-- ==== Sys2Proof/Word.lean ====
section
/-! DEFINITION. The word, byte and address types of the part (R3, R68) and their plainest arithmetic. -/

namespace Sys2Proof

/-- A 32-bit register word (R245). -/
abbrev Word := BitVec 32

/-- One byte of memory (R3). -/
abbrev Byte := BitVec 8

/-- A 64-bit virtual address, of which R99 uses bits [56:0]. -/
abbrev VA := BitVec 64

/-- The word of a truth value: 1 or 0 (R68). -/
def Word.ofBool (p : Bool) : Word := if p then 1 else 0

end Sys2Proof
end

