-- ==== Sys2Proof/Syntax.lean ====
section
/-! DEFINITION. The operand forms (R27, R37, R38, R41, R153) and the ONE inductive of instructions and
steps, one constructor for each row of spec/opcode_table.json: first the steps of the part's other
agents, then the Gliud instructions, in the table's order. -/

namespace Sys2Proof

/-- An operand code of R27; the reserved codes 37 to 47 are no operand. -/
inductive Opd where
  | b (r : BitVec 5)
  | e0
  | e1
  | z
  | ln
  | wv
  | g (r : BitVec 4)
  deriving DecidableEq, Repr

/-- Access sizes of R37; code 7 is reserved. -/
inductive Size where | b | bu | h | hu | w | w2 | w4
  deriving DecidableEq, Repr

/-- Semantics of R37. -/
inductive Sem where | relaxed | acquire | release | acqRel
  deriving DecidableEq, Repr

/-- The twelve scopes of R37 and R349; codes 12 to 15 are reserved. -/
inductive Scope where | lane | wave | block | core | quad | die | pkg | sys | plane | pod | eng | io
  deriving DecidableEq, Repr

/-- The address spaces of R37. -/
inductive Space where | global | scratch | priv | tensor
  deriving DecidableEq, Repr

/-- The cache hints of R37 and R144. -/
inductive Hint where | normal | streaming | keep | home
  deriving DecidableEq, Repr

/-- The atomic operations of R38. -/
inductive AtomOp where
  | add | sub | smin | smax | umin | umax | and | or | xor | exch | cas | fadd | fmin | fmax | incw | decw
  deriving DecidableEq, Repr

/-- The atomic scopes of R38. -/
inductive AScope where | wave | block | core | quad | die | pkg | sys | pod
  deriving DecidableEq, Repr

/-- FENCE kinds of R34. -/
inductive FenceKind where | acq | rel | ar | sc
  deriving DecidableEq, Repr

/-- FENCE domains of R34 and R155. -/
inductive FenceDomain where | mem | eng | io | all
  deriving DecidableEq, Repr

/-- Sizes of a lane copy, R40: 4, 8 or 16 bytes; code 11 is reserved. -/
inductive CopySize where | s4 | s8 | s16
  deriving DecidableEq, Repr

/-- The rnd field of a prefix, R41 and R72; codes 101 and 110 are reserved. -/
inductive Rnd where | rne | rtz | rup | rdn | rna | dyn
  deriving DecidableEq, Repr

/-- The fields of the prefix word, R41. -/
structure PfxFields where
  ftz : Bool
  sat : Bool
  rnd : Rnd
  zmask : Bool
  mask : Opd
  fourth : Opd
  deriving DecidableEq, Repr

/-- What a REQ flit asks of the home of its address (R129, R161, R184, R238, R244, R340). -/
inductive HomeOp where
  | load
  | store
  /-- A store of the low or the high four bits of one byte. -/
  | nibble (high : Bool)
  | atomic (op : AtomOp)
  /-- The publish point of an SPUB on a tensor entry. -/
  | publish
  /-- One less in the COUNT of a tile-task record, word 0 and COUNT returned as they stood (R340). -/
  | decrement
  /-- One more in the 64-bit index of a completion ring, its low word returned (R238). -/
  | increment
  deriving DecidableEq, Repr

/-- A REQ flit of the fabric that arrives at this package (R184, R189): an operation at a local address of this package, with
the source package, source port and sequence number. -/
structure FabricRequest where
  pkg : Nat
  port : Nat
  seq : Nat
  pa : Nat
  size : Nat
  op : HomeOp
  data : List Byte
  expected : Word
  deriving DecidableEq, Repr

/-- A multicast write that reaches a member window on this package (R157, R193), from a port of the sender, with the
privilege of its lane (R474). -/
structure MemberWrite where
  pkg : Nat
  port : Nat
  seq : Nat
  member : Nat
  priv : Bool
  asid : Nat
  winva : VA
  winsize : Nat
  offset : Nat
  data : Word
  deriving DecidableEq, Repr

/-- A page that travels with a grant (R396): its size code and its bytes. -/
structure GrantPage where
  size : BitVec 2
  frame : Nat
  bytes : List Byte
  deriving DecidableEq, Repr

/-- A message to a port (R204, R394): SOURCE, tag, inline bytes or payload, pages. -/
structure PortMessage where
  port : Word
  source : Word
  tag : BitVec 64
  bytes : List Byte
  /-- Payload bytes, of a message whose payload stays with its sender too (R210). -/
  len : Nat
  grants : List GrantPage
  /-- Its send record has BYREF 1 (R393). -/
  byref : Bool
  time : Nat
  deriving DecidableEq, Repr

/-- What one package's Logen sends to another's (R383, R394, R404 to R406). -/
inductive KmsgBody where
  | message (m : PortMessage)
  /-- A reference to a port there was made (R383). -/
  | refOpened (port : Word)
  /-- A reference to a port there was closed (R390). -/
  | refClosed (port : Word)
  /-- The port of a name homed there was closed (R405). -/
  | unbind (name : List Byte)
  /-- A request to bind a name (R405). -/
  | bind (name : List Byte) (port : Word) (matched : Bool)
  /-- A request for a name's port (R406). -/
  | lookup (name : List Byte)
  /-- The receiver of a message, by its number, is ready for its payload or for the pages it grants (R210, R396). -/
  | pull (seq : Nat)
  /-- The payload or the pages of a message, or the fault of its reading. -/
  | payload (seq : Nat) (bytes : List Byte) (pages : List (List Byte)) (fault : Option (Nat × Nat))
  deriving DecidableEq, Repr

/-- The four virtual channels of the die protocol (R163). -/
inductive Channel where | req | rsp | wnot | kmsg
  deriving DecidableEq, Repr

/-- A flit of the die protocol (R163, R165): where it comes from and goes to (0 to 5 a shader die, 6 Pavilion), its channel
and its end-to-end sequence number. -/
structure DieFlit where
  src : Nat
  dst : Nat
  chan : Channel
  seq : Nat
  /-- What it carries: a request's, a response's or a kernel message's bytes, or the line of a write notice. -/
  payload : List Byte
  /-- The vector clock of a write notice, by agent: how many write notices of each agent it comes after (R163, R356). -/
  clock : List Nat
  deriving DecidableEq, Repr

/-- One sample row data segment of an ST 2110-20 packet (R219). -/
structure SrdPacket where
  eth : Nat
  group : Word
  srcIp : Word
  udpPort : BitVec 16
  /-- The datagram's checksums are right (R215). -/
  sumOk : Bool
  /-- The version field of its RTP header (R219). -/
  version : Nat
  pt : Nat
  ssrc : Word
  timestamp : Word
  field : Bool
  line : Nat
  offset : Nat
  length : Nat
  data : List Byte
  time : Nat
  deriving DecidableEq, Repr

/-- What another package says of a pod barrier (R304, R305): an operation on a barrier held here, a lane that waits on a phase of it,
or, of one held elsewhere, the end of a phase and what BINIT or BINVAL has made of it. -/
inductive PodBarrierMsg where
  | arrive (asid : Nat) (lanes : Nat)
  | init (asid : Nat) (count : Word)
  | inval (asid : Nat)
  | waits (asid : Nat) (phase : Word)
  | phaseEnd (phase : Word) (status : Nat)
  | state (on : Bool) (asid : Nat) (phase : Word)
  deriving DecidableEq, Repr

/-- What a flit of the fabric brings to this package (R184, R195): the receiver releases it when its group has authenticated. -/
inductive Flit where
  /-- A REQ flit (R189). -/
  | request (r : FabricRequest)
  /-- The reply to a request of this package (R188). -/
  | reply (req : Nat) (ok : Bool) (data : List Byte)
  /-- A hold notice for a request of this package (R190). -/
  | hold (req : Nat)
  /-- A multicast write (R193). -/
  | member (w : MemberWrite)
  /-- A member's acknowledgement of a multicast of this package (R193). -/
  | ack (req member : Nat) (failure : Option Nat)
  /-- A hold notice for a member's write of a multicast of this package (R190, R193). -/
  | holdMember (req member : Nat)
  /-- A Logen message (R394, R404 to R406). -/
  | kmsg (src seq : Nat) (m : KmsgBody)
  /-- An answer to a Logen message (R394). -/
  | kmsgReply (req status value : Nat)
  /-- A pod barrier's message (R304). -/
  | podBarrier (index : Nat) (m : PodBarrierMsg)
  deriving DecidableEq, Repr

/-- A step of an agent other than a lane, with what the environment supplies for it: one constructor for each
row of spec/opcode_table.json without an encoding. -/
inductive Event where
  /-- PACKAGE_RESET (R16), with the minimum that a management operation before it has written (R448). -/
  | packageReset (minimum : Option Nat)
  /-- BRINGUP_PHASE_DONE (R441). -/
  | bringupPhaseDone (phase : Nat) (result : BitVec 2)
  /-- DRVACCEPT_WRITE (R442). -/
  | drvacceptWrite (v : BitVec 64)
  /-- MEMSPLIT_WRITE (R97). -/
  | memsplitWrite (v : Word)
  /-- REGISTER_WRITE (R5). -/
  | registerWrite (off size : Nat) (v : BitVec 64)
  /-- DOORBELL (R407). -/
  | doorbell (q : Nat) (v : Word)
  /-- LAUNCH_READ (R408). -/
  | launchRead
  /-- LAUNCH_START (R364). -/
  | launchStart (q seq : Nat)
  /-- BLOCK_PLACE (R372). -/
  | blockPlace
  /-- RUN_QUEUE_PLACE (R412). -/
  | runQueuePlace
  /-- LAUNCH_COMPLETE (R409). -/
  | launchComplete (q seq : Nat)
  /-- COMPACTOR_MOVE (R414). -/
  | compactorMove (core : Nat)
  /-- MOVE_DONE (R415). -/
  | moveDone (wave : Nat)
  /-- WAVE_END (R365). -/
  | waveEnd (wave : Nat)
  /-- WAVE_SAVED (R415). -/
  | waveSaved (block : Nat)
  /-- GENERATION_ADVANCE (R108). -/
  | generationAdvance (asid : Nat)
  /-- LINK_DEGRADED (R176). -/
  | linkDegraded
  /-- REMOTE_TIMEOUT (R190). -/
  | remoteTimeout (req : Nat)
  /-- HOLD_NOTICE_SEND (R190). -/
  | holdNoticeSend (req : Nat)
  /-- HOLD_NOTICE (R190): for a request, or for a member's write of a multicast. -/
  | holdNotice (req : Nat) (member : Option Nat)
  /-- REMOTE_REQUEST (R189). -/
  | remoteRequest (r : FabricRequest)
  /-- REMOTE_REPLY (R188). -/
  | remoteReply (req : Nat) (ok : Bool) (data : List Byte)
  /-- MULTICAST_MEMBER_WRITE (R193). -/
  | multicastMemberWrite (w : MemberWrite)
  /-- MULTICAST_ACK (R193). -/
  | multicastAck (req member : Nat) (failure : Option Nat)
  /-- MFREE_EXCHANGE (R134). -/
  | mfreeExchange (n : Nat)
  /-- LANE_COPY_COMPLETE (R232). -/
  | laneCopyComplete (core n : Nat)
  /-- SLIP_JOB_START (R237). -/
  | slipJobStart (core : Nat)
  /-- SLIP_TILE_START (R236). -/
  | slipTileStart (core : Nat)
  /-- SLIP_ITERATION (R236). -/
  | slipIteration (core : Nat)
  /-- SLIP_JOB_COMPLETE (R238). -/
  | slipJobComplete (core : Nat)
  /-- SLIP_SIGNAL (R238). -/
  | slipSignal (core : Nat)
  /-- WHEEL_SLAB (R325). -/
  | wheelSlab (core : Nat)
  /-- TASK_DISPATCH (R342). -/
  | taskDispatch (setter : Nat)
  /-- TASK_TILE_DRAIN (R339). -/
  | taskTileDrain (core : Nat)
  /-- TASK_COMPLETE (R341). -/
  | taskComplete (setter n : Nat)
  /-- MESSAGE_ARRIVAL (R208). -/
  | messageArrival (m : PortMessage)
  /-- RENDEZVOUS_LAND (R210). -/
  | rendezvousLand (port n : Nat)
  /-- POST_TIMEOUT (R214). -/
  | postTimeout (port post : Nat)
  /-- FRAME_STALL (R221). -/
  | frameStall (port post : Nat)
  /-- THRUMINO_MESSAGE (R216). -/
  | thruminoMessage (udpPort : BitVec 16) (payload : List Byte) (sumOk : Bool) (time : Nat)
  /-- SRD_RECEIVE (R221). -/
  | srdReceive (p : SrdPacket)
  /-- PTP_MESSAGE (R215). -/
  | ptpMessage (time : Nat) (lock : Bool)
  /-- ARP_REQUEST (R215). -/
  | arpRequest (sender target : Word)
  /-- KMSG_DELIVER (R394). -/
  | kmsgDeliver (src seq : Nat) (m : KmsgBody)
  /-- BELVEDERE_BIND (R405). -/
  | belvedereBind (src req : Nat) (name : List Byte) (port : Word) (matched : Bool)
  /-- BELVEDERE_LOOKUP (R406). -/
  | belvedereLookup (src req : Nat) (name : List Byte)
  /-- TIMER_EXPIRY (R403). -/
  | timerExpiry (timer : Nat)
  /-- KWAIT_TIMEOUT (R401). -/
  | kwaitTimeout (wave lane : Nat)
  /-- CONE_PASS (R377). -/
  | conePass (group : Nat)
  /-- RECONV_TIMEOUT (R300). -/
  | reconvTimeout (wave lane : Nat)
  /-- LKRATE_WRITE (R170). -/
  | lkrateWrite (link : Nat) (v : Word)
  /-- LINK_TRAINING_DONE (R171). -/
  | linkTrainingDone (link : Nat) (ok : Bool)
  /-- LANE_FAULT (R173). -/
  | laneFault (link module : Nat) (out : Bool)
  /-- REPLAY_WINDOW (R175). -/
  | replayWindow (link : Nat)
  /-- DIE_FLIT_RECEIVE (R165). -/
  | dieFlitReceive (link : Nat) (crcOk : Bool) (f : DieFlit)
  /-- UNCRST (R180). -/
  | uncrst (die : Nat)
  /-- POISCRUB (R182). -/
  | poiscrub (v : BitVec 64)
  /-- FLIT_GROUP_RECEIVE (R195). -/
  | flitGroupReceive (port bank : Nat) (ok : Bool) (flits : List Flit)
  /-- PORT_LOST (R199, R405, R443): refused says that the port's announcement disagrees with what its plane holds; gone names a package that
  the pod has lost with it. -/
  | portLost (port : Nat) (refused : Bool) (gone : Option Nat)
  /-- PORT_TRAINED (R199). -/
  | portTrained (port : Nat)
  /-- PLANE_REMAP (R200). -/
  | planeRemap (plane : Nat)
  /-- PLANEMAP_WRITE (R201). -/
  | planemapWrite (v : Word)
  /-- FABREKEY (R197). -/
  | fabrekey (port : Nat)
  /-- REKEY_GROUP_COUNT (R197). -/
  | rekeyGroupCount (port : Nat) (tx : Bool)
  /-- LOAD_CONFIRM (R197). -/
  | loadConfirm (port : Nat) (tx : Bool)
  /-- RECEIVER_ACK (R197). -/
  | receiverAck (port : Nat) (tx : Bool)
  /-- GET_VERSION (R449). -/
  | getVersion (session : Nat)
  /-- GET_CAPABILITIES (R449). -/
  | getCapabilities (session : Nat)
  /-- NEGOTIATE_ALGORITHMS (R196). -/
  | negotiateAlgorithms (session : Nat) (offer : List Byte)
  /-- GET_DIGESTS (R449). -/
  | getDigests (session : Nat)
  /-- GET_CERTIFICATE (R449). -/
  | getCertificate (session slot : Nat)
  /-- KEY_EXCHANGE (R196). -/
  | keyExchange (session : Nat) (share : List Byte)
  /-- FINISH (R196). -/
  | finish (session : Nat) (ok : Bool)
  /-- KEY_UPDATE (R197). -/
  | keyUpdate (port : Nat) (tx : Bool)
  /-- HEARTBEAT (R196). -/
  | heartbeat (session : Nat)
  /-- END_SESSION (R196). -/
  | endSession (session : Nat)
  /-- GET_MEASUREMENTS (R449). -/
  | getMeasurements (session index : Nat)
  /-- CHALLENGE (R449). -/
  | challenge (session : Nat) (nonce : List Byte)
  /-- GRANT_POOL_ADD (R398). -/
  | grantPoolAdd (v : BitVec 64)
  /-- HOST_MEM_ACCESS (R439). -/
  | hostMemAccess (addr size : Nat) (write : Bool) (data : List Byte)
  /-- CXL_TIMEOUT (R426). -/
  | cxlTimeout (wave lane : Nat)
  /-- CXL_LINK_DOWN (R426). -/
  | cxlLinkDown
  /-- CXL_LINK_UP (R426). -/
  | cxlLinkUp
  /-- DROOP_STRETCH (R446). -/
  | droopStretch
  /-- POWER_STRETCH (R446). -/
  | powerStretch
  /-- PTP_LOCK_LOSS (R402). -/
  | ptpLockLoss
  /-- KMSG_REPLY (R394). -/
  | kmsgReply (req status value : Nat)
  /-- NAME_TIMEOUT (R405). -/
  | nameTimeout (req : Nat)
  /-- KMSG_RETRANSMISSION (R435). -/
  | kmsgRetransmission (req : Nat)
  /-- POD_BARRIER_MESSAGE (R304). -/
  | podBarrierMessage (index : Nat) (m : PodBarrierMsg)
  /-- CXL_CACHE_SNOOP (R113). -/
  | cxlCacheSnoop (addr : Nat) (invalidate : Bool) (data : List Byte)
  deriving DecidableEq, Repr

/-- Every row of spec/opcode_table.json: the Gliud instructions with their operands, then the steps of the
part's other agents, whose input (an Event) stands in State.input while the step runs. -/
inductive Instr where
  /-- NOP16 (R32). -/
  | nop16
  /-- MOV_C16 (R31). -/
  | movC16 (d : Opd) (s : BitVec 5)
  /-- IADD_C16 (R31). -/
  | iaddC16 (d : Opd) (s : BitVec 5)
  /-- ISUB_C16 (R31). -/
  | isubC16 (d : Opd) (s : BitVec 5)
  /-- IMUL_C16 (R31). -/
  | imulC16 (d : Opd) (s : BitVec 5)
  /-- AND_C16 (R31). -/
  | andC16 (d : Opd) (s : BitVec 5)
  /-- OR_C16 (R31). -/
  | orC16 (d : Opd) (s : BitVec 5)
  /-- XOR_C16 (R31). -/
  | xorC16 (d : Opd) (s : BitVec 5)
  /-- SHL_C16 (R31). -/
  | shlC16 (d : Opd) (s : BitVec 5)
  /-- SHRL_C16 (R31). -/
  | shrlC16 (d : Opd) (s : BitVec 5)
  /-- SHRA_C16 (R31). -/
  | shraC16 (d : Opd) (s : BitVec 5)
  /-- FADD_C16 (R285). -/
  | faddC16 (d : Opd) (s : BitVec 5)
  /-- FMUL_C16 (R285). -/
  | fmulC16 (d : Opd) (s : BitVec 5)
  /-- FMAX_C16 (R285). -/
  | fmaxC16 (d : Opd) (s : BitVec 5)
  /-- FMIN_C16 (R285). -/
  | fminC16 (d : Opd) (s : BitVec 5)
  /-- ISETLT_C16 (R31). -/
  | isetltC16 (d : Opd) (s : BitVec 5)
  /-- NOT (R267). -/
  | not (d : Opd) (s : BitVec 5)
  /-- PREFIX (R41). -/
  | pfx (p : PfxFields)
  /-- IADD (R264). -/
  | iadd (d a b : Opd)
  /-- ISUB (R264). -/
  | isub (d a b : Opd)
  /-- IMUL (R264). -/
  | imul (d a b : Opd)
  /-- IMULHI (R264). -/
  | imulhi (d a b : Opd)
  /-- IMULHU (R264). -/
  | imulhu (d a b : Opd)
  /-- IMAD (R264). -/
  | imad (d a b : Opd)
  /-- IMIN (R264). -/
  | imin (d a b : Opd)
  /-- IMAX (R264). -/
  | imax (d a b : Opd)
  /-- UMIN (R264). -/
  | umin (d a b : Opd)
  /-- UMAX (R264). -/
  | umax (d a b : Opd)
  /-- AND (R264). -/
  | and (d a b : Opd)
  /-- OR (R264). -/
  | or (d a b : Opd)
  /-- XOR (R264). -/
  | xor (d a b : Opd)
  /-- ANDN (R264). -/
  | andn (d a b : Opd)
  /-- SHL (R264). -/
  | shl (d a b : Opd)
  /-- SHRL (R264). -/
  | shrl (d a b : Opd)
  /-- SHRA (R264). -/
  | shra (d a b : Opd)
  /-- ROTL (R264). -/
  | rotl (d a b : Opd)
  /-- POPC (R264). -/
  | popc (d a : Opd)
  /-- CLZ (R264). -/
  | clz (d a : Opd)
  /-- BREV (R264). -/
  | brev (d a : Opd)
  /-- BFE (R265). -/
  | bfe (d a b : Opd)
  /-- BFI (R265). -/
  | bfi (d a b : Opd)
  /-- SEL (R264). -/
  | sel (d a b : Opd)
  /-- ISETEQ (R264). -/
  | iseteq (d a b : Opd)
  /-- ISETNE (R264). -/
  | isetne (d a b : Opd)
  /-- ISETLT (R264). -/
  | isetlt (d a b : Opd)
  /-- ISETLE (R264). -/
  | isetle (d a b : Opd)
  /-- ISETLTU (R264). -/
  | isetltu (d a b : Opd)
  /-- ISETLEU (R264). -/
  | isetleu (d a b : Opd)
  /-- IABS (R264). -/
  | iabs (d a : Opd)
  /-- IADDI (R266). -/
  | iaddi (d a : Opd) (imm : BitVec 13)
  /-- ANDI (R266). -/
  | andi (d a : Opd) (imm : BitVec 13)
  /-- ORI (R266). -/
  | ori (d a : Opd) (imm : BitVec 13)
  /-- XORI (R266). -/
  | xori (d a : Opd) (imm : BitVec 13)
  /-- SHI_SHL (R266). -/
  | shiShl (d a : Opd) (n : BitVec 5)
  /-- SHI_SHRL (R266). -/
  | shiShrl (d a : Opd) (n : BitVec 5)
  /-- SHI_SHRA (R266). -/
  | shiShra (d a : Opd) (n : BitVec 5)
  /-- SHI_ROTL (R266). -/
  | shiRotl (d a : Opd) (n : BitVec 5)
  /-- ISETI_EQ (R266). -/
  | isetiEq (d a : Opd) (imm : BitVec 10)
  /-- ISETI_NE (R266). -/
  | isetiNe (d a : Opd) (imm : BitVec 10)
  /-- ISETI_LT (R266). -/
  | isetiLt (d a : Opd) (imm : BitVec 10)
  /-- ISETI_LE (R266). -/
  | isetiLe (d a : Opd) (imm : BitVec 10)
  /-- ISETI_LTU (R266). -/
  | isetiLtu (d a : Opd) (imm : BitVec 10)
  /-- ISETI_LEU (R266). -/
  | isetiLeu (d a : Opd) (imm : BitVec 10)
  /-- MOVI (R146). -/
  | movi (d : Opd) (imm : BitVec 19)
  /-- MOVHI (R146). -/
  | movhi (d : Opd) (imm : BitVec 19)
  /-- LDL (R147). -/
  | ldl (d : Opd) (imm : BitVec 19)
  /-- REGION (R251). -/
  | region (imm : BitVec 19)
  /-- MOVM (R258). -/
  | movm (v : Opd) (idx : BitVec 9)
  /-- MOVMW (R258). -/
  | movmw (v : Opd) (idx : BitVec 9)
  /-- MOVG (R258). -/
  | movg (v : Opd) (idx : BitVec 9)
  /-- MOVGW (R258). -/
  | movgw (v : Opd) (idx : BitVec 9)
  /-- MOVC (R258). -/
  | movc (v : Opd) (idx : BitVec 9)
  /-- MOVTC (R258). -/
  | movtc (v : Opd) (idx : BitVec 9)
  /-- LD (R143). -/
  | ld (v a : Opd) (size : Size) (sem : Sem) (scope : Scope) (space : Space) (hint : Hint)
  /-- ST (R143). -/
  | st (v a : Opd) (size : Size) (sem : Sem) (scope : Scope) (space : Space) (hint : Hint)
  /-- LDO (R145). -/
  | ldo (v a : Opd) (size : Size) (off : BitVec 10)
  /-- STO (R145). -/
  | sto (v a : Opd) (size : Size) (off : BitVec 10)
  /-- LDS (R145). -/
  | lds (v a : Opd) (size : Size) (off : BitVec 10)
  /-- STS (R145). -/
  | sts (v a : Opd) (size : Size) (off : BitVec 10)
  /-- ATOM (R148). -/
  | atom (d a b : Opd) (op : AtomOp) (scope : AScope)
  /-- ATOMA (R148). -/
  | atoma (d a b : Opd) (op : AtomOp) (scope : AScope)
  /-- ATOML (R148). -/
  | atoml (d a b : Opd) (op : AtomOp) (scope : AScope)
  /-- ATOMAL (R148). -/
  | atomal (d a b : Opd) (op : AtomOp) (scope : AScope)
  /-- FENCE (R154). -/
  | fence (scope : Scope) (kind : FenceKind) (dom : FenceDomain)
  /-- STMC (R157). -/
  | stmc (d a b : Opd)
  /-- MALLOC (R158). -/
  | malloc (d a : Opd)
  /-- MFREE (R158). -/
  | mfree (a : Opd)
  /-- CFLUSH (R159). -/
  | cflush (a b : Opd)
  /-- CINV (R159). -/
  | cinv (a b : Opd)
  /-- PREF (R159). -/
  | pref (a b : Opd)
  /-- LDT (R161). -/
  | ldt (d a b : Opd)
  /-- STT (R161). -/
  | stt (d a b : Opd)
  /-- LCP (R231). -/
  | lcp (s g : Opd) (size : CopySize) (out : Bool) (slot : BitVec 6) (ordered : Bool)
  /-- TINIT (R226). -/
  | tinit (d a b : Opd)
  /-- TWAIT (R227). -/
  | twait (d a : Opd)
  /-- TSTAT (R228). -/
  | tstat (d a : Opd)
  /-- TREADY (R229). -/
  | tready (d a : Opd)
  /-- TEMPTY (R229). -/
  | tempty (d a : Opd)
  /-- SCMD (R241). -/
  | scmd (d a : Opd)
  /-- SRESUME (R241). -/
  | sresume (d a : Opd)
  /-- SHALO (R242). -/
  | shalo (d a : Opd)
  /-- SPUB (R244). -/
  | spub (d a : Opd)
  /-- SPOLL (R241). -/
  | spoll (d a b : Opd)
  /-- TDEF (R243). -/
  | tdef (d a b : Opd)
  /-- TUNDEF (R243). -/
  | tundef (d a : Opd)
  /-- SCANCEL (R241). -/
  | scancel (d a : Opd)
  /-- TLD (R318). -/
  | tld (t p : BitVec 3)
  /-- TST (R318). -/
  | tst (t p : BitVec 3)
  /-- TZERO (R321). -/
  | tzero (t : BitVec 3)
  /-- TMMA (R324). -/
  | tmma (c a b : BitVec 3) (ra rb : Bool)
  /-- TMMAQ (R329). -/
  | tmmaq (c a b : BitVec 3) (ra rb : Bool)
  /-- TDRAIN (R332). -/
  | tdrain (t p : BitVec 3)
  /-- TCVT (R322). -/
  | tcvt (d a p : BitVec 3)
  /-- TTRANS (R323). -/
  | ttrans (d a : BitVec 3)
  /-- TFILL (R321). -/
  | tfill (d p : BitVec 3)
  /-- MTASK (R346). -/
  | mtask (d a b : Opd)
  /-- MTWAIT (R347). -/
  | mtwait (d a : Opd)
  /-- MTSTAT (R347). -/
  | mtstat (d a : Opd)
  /-- MTCANCEL (R346). -/
  | mtcancel (d a : Opd)
  /-- KCREATE (R388). -/
  | kcreate (d a b : Opd)
  /-- KCLOSE (R390). -/
  | kclose (d a b : Opd)
  /-- KSPAWN (R392). -/
  | kspawn (d a : Opd)
  /-- KSEND (R394). -/
  | ksend (d a b : Opd)
  /-- KRECV (R395). -/
  | krecv (d a b : Opd)
  /-- KTRYRECV (R395). -/
  | ktryrecv (d a b : Opd)
  /-- KPOST (R207). -/
  | kpost (d a b : Opd)
  /-- KWADD (R399). -/
  | kwadd (d a b : Opd)
  /-- KWDEL (R399). -/
  | kwdel (d a b : Opd)
  /-- KWAIT (R401). -/
  | kwait (d a b : Opd)
  /-- KARM (R403). -/
  | karm (d a b : Opd)
  /-- KDISARM (R403). -/
  | kdisarm (d a : Opd)
  /-- KLOOKUP (R406). -/
  | klookup (d a : Opd)
  /-- KNAME (R405). -/
  | kname (d a b : Opd)
  /-- KIDLE (R378). -/
  | kidle (d a : Opd)
  /-- KWORK (R374). -/
  | kwork (d : Opd)
  /-- KTIME (R402). -/
  | ktime (d : Opd)
  /-- BINIT (R307). -/
  | binit (d a b : Opd)
  /-- BARRIVE (R308). -/
  | barrive (d a : Opd)
  /-- BWAIT (R308). -/
  | bwait (d a b : Opd)
  /-- BSYNC (R308). -/
  | bsync (d a : Opd)
  /-- BINVAL (R307). -/
  | binval (d a : Opd)
  /-- BZ (R293). -/
  | bz (c : Opd) (off : BitVec 19)
  /-- BNZ (R293). -/
  | bnz (c : Opd) (off : BitVec 19)
  /-- BRA (R293). -/
  | bra (off : BitVec 25)
  /-- CALL (R296). -/
  | call (off : BitVec 25)
  /-- CALLR (R296). -/
  | callr (a : Opd)
  /-- JMPR (R298). -/
  | jmpr (a : Opd)
  /-- RET (R296). -/
  | ret
  /-- RECONV (R300). -/
  | reconv
  /-- YIELD (R301). -/
  | yield
  /-- EXIT (R302). -/
  | exitLane
  /-- NOP (R301). -/
  | nop
  /-- TRAP (R302). -/
  | trapInstr (a : Opd)
  /-- BREAK (R302). -/
  | breakTrap
  /-- SVC (R302). -/
  | svc (a : Opd)
  /-- ERET (R425). -/
  | eret (a b : Opd)
  /-- TLBINV (R430). -/
  | tlbinv (a : Opd)
  /-- TLBGEN (R430). -/
  | tlbgen
  /-- PREEMPT (R431). -/
  | preempt (a b : Opd)
  /-- RESUMEW (R431). -/
  | resumew (a b : Opd)
  /-- CORERST (R432). -/
  | corerst (a b : Opd)
  /-- ENGRST (R433). -/
  | engrst (a b : Opd)
  /-- FADD (R273). -/
  | fadd (d a b : Opd)
  /-- FSUB (R273). -/
  | fsub (d a b : Opd)
  /-- FMUL (R273). -/
  | fmul (d a b : Opd)
  /-- FFMA (R273). -/
  | ffma (d a b : Opd)
  /-- FMIN (R80). -/
  | fmin (d a b : Opd)
  /-- FMAX (R80). -/
  | fmax (d a b : Opd)
  /-- FABS (R273). -/
  | fabs (d a : Opd)
  /-- FNEG (R273). -/
  | fneg (d a : Opd)
  /-- FSETEQ (R274). -/
  | fseteq (d a b : Opd)
  /-- FSETNE (R274). -/
  | fsetne (d a b : Opd)
  /-- FSETLT (R274). -/
  | fsetlt (d a b : Opd)
  /-- FSETLE (R274). -/
  | fsetle (d a b : Opd)
  /-- FSETUN (R274). -/
  | fsetun (d a b : Opd)
  /-- FCLASS (R275). -/
  | fclass (d a : Opd)
  /-- FRND (R276). -/
  | frnd (d a : Opd)
  /-- FCVTI (R278). -/
  | fcvti (d a : Opd)
  /-- FCVTUI (R278). -/
  | fcvtui (d a : Opd)
  /-- ICVTF (R277). -/
  | icvtf (d a : Opd)
  /-- UCVTF (R277). -/
  | ucvtf (d a : Opd)
  /-- FPKBF (R280). -/
  | fpkbf (d a b : Opd)
  /-- FPKH (R280). -/
  | fpkh (d a b : Opd)
  /-- FUPBFL (R280). -/
  | fupbfl (d a : Opd)
  /-- FUPBFH (R280). -/
  | fupbfh (d a : Opd)
  /-- FUPHL (R280). -/
  | fuphl (d a : Opd)
  /-- FUPHH (R280). -/
  | fuphh (d a : Opd)
  /-- HADD2_BF (R283). -/
  | hadd2Bf (d a b : Opd)
  /-- HMUL2_BF (R283). -/
  | hmul2Bf (d a b : Opd)
  /-- HFMA2_BF (R283). -/
  | hfma2Bf (d a b : Opd)
  /-- HMAX2_BF (R283). -/
  | hmax2Bf (d a b : Opd)
  /-- HMIN2_BF (R283). -/
  | hmin2Bf (d a b : Opd)
  /-- HADD2_H (R283). -/
  | hadd2H (d a b : Opd)
  /-- HMUL2_H (R283). -/
  | hmul2H (d a b : Opd)
  /-- HFMA2_H (R283). -/
  | hfma2H (d a b : Opd)
  /-- HMAX2_H (R283). -/
  | hmax2H (d a b : Opd)
  /-- HMIN2_H (R283). -/
  | hmin2H (d a b : Opd)
  /-- HDOT2_BF (R284). -/
  | hdot2Bf (d a b : Opd)
  /-- HDOT2_H (R284). -/
  | hdot2H (d a b : Opd)
  /-- FRCP (R282). -/
  | frcp (d a : Opd)
  /-- FRSQ (R282). -/
  | frsq (d a : Opd)
  /-- FSQRT (R282). -/
  | fsqrt (d a : Opd)
  /-- FEX2 (R282). -/
  | fex2 (d a : Opd)
  /-- FLG2 (R282). -/
  | flg2 (d a : Opd)
  /-- FSIN (R282). -/
  | fsin (d a : Opd)
  /-- FCOS (R282). -/
  | fcos (d a : Opd)
  /-- FTANH (R282). -/
  | ftanh (d a : Opd)
  /-- FDIV (R282). -/
  | fdiv (d a b : Opd)
  /-- SHFLI (R290). -/
  | shfli (d a b : Opd)
  /-- SHFLU (R290). -/
  | shflu (d a b : Opd)
  /-- SHFLD (R290). -/
  | shfld (d a b : Opd)
  /-- SHFLX (R290). -/
  | shflx (d a b : Opd)
  /-- VOTEALL (R290). -/
  | voteall (d a : Opd)
  /-- VOTEANY (R290). -/
  | voteany (d a : Opd)
  /-- BALLOT (R290). -/
  | ballot (d a : Opd)
  /-- REDADD (R290). -/
  | redadd (d a : Opd)
  /-- REDMIN (R290). -/
  | redmin (d a : Opd)
  /-- REDMAX (R290). -/
  | redmax (d a : Opd)
  /-- REDAND (R290). -/
  | redand (d a : Opd)
  /-- REDOR (R290). -/
  | redor (d a : Opd)
  /-- REDXOR (R290). -/
  | redxor (d a : Opd)
  /-- FREDADD (R291). -/
  | fredadd (d a : Opd)
  /-- FREDMIN (R291). -/
  | fredmin (d a : Opd)
  /-- FREDMAX (R291). -/
  | fredmax (d a : Opd)
  /-- SCANADD (R290). -/
  | scanadd (d a : Opd)
  /-- MATCH (R290). -/
  | matchLanes (d a : Opd)
  /-- ELECT (R290). -/
  | elect (d : Opd)
  /-- ACTIVE (R292). -/
  | active (d : Opd)
  /-- PACKAGE_RESET (R16). -/
  | packageReset
  /-- BRINGUP_PHASE_DONE (R441). -/
  | bringupPhaseDone
  /-- DRVACCEPT_WRITE (R442). -/
  | drvacceptWrite
  /-- MEMSPLIT_WRITE (R97). -/
  | memsplitWrite
  /-- REGISTER_WRITE (R5). -/
  | registerWrite
  /-- DOORBELL (R407). -/
  | doorbell
  /-- LAUNCH_READ (R408). -/
  | launchRead
  /-- LAUNCH_START (R364). -/
  | launchStart
  /-- BLOCK_PLACE (R372). -/
  | blockPlace
  /-- RUN_QUEUE_PLACE (R412). -/
  | runQueuePlace
  /-- LAUNCH_COMPLETE (R409). -/
  | launchComplete
  /-- COMPACTOR_MOVE (R414). -/
  | compactorMove
  /-- MOVE_DONE (R415). -/
  | moveDone
  /-- WAVE_END (R365). -/
  | waveEnd
  /-- WAVE_SAVED (R415). -/
  | waveSaved
  /-- GENERATION_ADVANCE (R108). -/
  | generationAdvance
  /-- LINK_DEGRADED (R176). -/
  | linkDegraded
  /-- REMOTE_TIMEOUT (R190). -/
  | remoteTimeout
  /-- HOLD_NOTICE_SEND (R190). -/
  | holdNoticeSend
  /-- HOLD_NOTICE (R190). -/
  | holdNotice
  /-- REMOTE_REQUEST (R189). -/
  | remoteRequest
  /-- REMOTE_REPLY (R188). -/
  | remoteReply
  /-- MULTICAST_MEMBER_WRITE (R193). -/
  | multicastMemberWrite
  /-- MULTICAST_ACK (R193). -/
  | multicastAck
  /-- MFREE_EXCHANGE (R134). -/
  | mfreeExchange
  /-- LANE_COPY_COMPLETE (R232). -/
  | laneCopyComplete
  /-- SLIP_JOB_START (R237). -/
  | slipJobStart
  /-- SLIP_TILE_START (R236). -/
  | slipTileStart
  /-- SLIP_ITERATION (R236). -/
  | slipIteration
  /-- SLIP_JOB_COMPLETE (R238). -/
  | slipJobComplete
  /-- SLIP_SIGNAL (R238). -/
  | slipSignal
  /-- WHEEL_SLAB (R325). -/
  | wheelSlab
  /-- TASK_DISPATCH (R342). -/
  | taskDispatch
  /-- TASK_TILE_DRAIN (R339). -/
  | taskTileDrain
  /-- TASK_COMPLETE (R341). -/
  | taskComplete
  /-- MESSAGE_ARRIVAL (R208). -/
  | messageArrival
  /-- RENDEZVOUS_LAND (R210). -/
  | rendezvousLand
  /-- POST_TIMEOUT (R214). -/
  | postTimeout
  /-- FRAME_STALL (R221). -/
  | frameStall
  /-- THRUMINO_MESSAGE (R216). -/
  | thruminoMessage
  /-- SRD_RECEIVE (R221). -/
  | srdReceive
  /-- PTP_MESSAGE (R215). -/
  | ptpMessage
  /-- ARP_REQUEST (R215). -/
  | arpRequest
  /-- KMSG_DELIVER (R394). -/
  | kmsgDeliver
  /-- BELVEDERE_BIND (R405). -/
  | belvedereBind
  /-- BELVEDERE_LOOKUP (R406). -/
  | belvedereLookup
  /-- TIMER_EXPIRY (R403). -/
  | timerExpiry
  /-- KWAIT_TIMEOUT (R401). -/
  | kwaitTimeout
  /-- CONE_PASS (R377). -/
  | conePass
  /-- RECONV_TIMEOUT (R300). -/
  | reconvTimeout
  /-- LKRATE_WRITE (R170). -/
  | lkrateWrite
  /-- LINK_TRAINING_DONE (R171). -/
  | linkTrainingDone
  /-- LANE_FAULT (R173). -/
  | laneFault
  /-- REPLAY_WINDOW (R175). -/
  | replayWindow
  /-- DIE_FLIT_RECEIVE (R165). -/
  | dieFlitReceive
  /-- UNCRST (R180). -/
  | uncrst
  /-- POISCRUB (R182). -/
  | poiscrub
  /-- FLIT_GROUP_RECEIVE (R195). -/
  | flitGroupReceive
  /-- PORT_LOST (R199). -/
  | portLost
  /-- PORT_TRAINED (R199). -/
  | portTrained
  /-- PLANE_REMAP (R200). -/
  | planeRemap
  /-- PLANEMAP_WRITE (R201). -/
  | planemapWrite
  /-- FABREKEY (R197). -/
  | fabrekey
  /-- REKEY_GROUP_COUNT (R197). -/
  | rekeyGroupCount
  /-- LOAD_CONFIRM (R197). -/
  | loadConfirm
  /-- RECEIVER_ACK (R197). -/
  | receiverAck
  /-- GET_VERSION (R449). -/
  | getVersion
  /-- GET_CAPABILITIES (R449). -/
  | getCapabilities
  /-- NEGOTIATE_ALGORITHMS (R196). -/
  | negotiateAlgorithms
  /-- GET_DIGESTS (R449). -/
  | getDigests
  /-- GET_CERTIFICATE (R449). -/
  | getCertificate
  /-- KEY_EXCHANGE (R196). -/
  | keyExchange
  /-- FINISH (R196). -/
  | finish
  /-- KEY_UPDATE (R197). -/
  | keyUpdate
  /-- HEARTBEAT (R196). -/
  | heartbeat
  /-- END_SESSION (R196). -/
  | endSession
  /-- GET_MEASUREMENTS (R449). -/
  | getMeasurements
  /-- CHALLENGE (R449). -/
  | challenge
  /-- GRANT_POOL_ADD (R398). -/
  | grantPoolAdd
  /-- HOST_MEM_ACCESS (R439). -/
  | hostMemAccess
  /-- CXL_TIMEOUT (R426). -/
  | cxlTimeout
  /-- CXL_LINK_DOWN (R426). -/
  | cxlLinkDown
  /-- CXL_LINK_UP (R426). -/
  | cxlLinkUp
  /-- DROOP_STRETCH (R446). -/
  | droopStretch
  /-- POWER_STRETCH (R446). -/
  | powerStretch
  /-- PTP_LOCK_LOSS (R402). -/
  | ptpLockLoss
  /-- KMSG_REPLY (R394). -/
  | kmsgReply
  /-- NAME_TIMEOUT (R405). -/
  | nameTimeout
  /-- KMSG_RETRANSMISSION (R435). -/
  | kmsgRetransmission
  /-- POD_BARRIER_MESSAGE (R304). -/
  | podBarrierMessage
  /-- CXL_CACHE_SNOOP (R113). -/
  | cxlCacheSnoop
  deriving DecidableEq, Repr

/-- The row an event belongs to. -/
def Event.instr (e : Event) : Instr :=
  match e with
  | .packageReset _ => .packageReset
  | .bringupPhaseDone _ _ => .bringupPhaseDone
  | .drvacceptWrite _ => .drvacceptWrite
  | .memsplitWrite _ => .memsplitWrite
  | .registerWrite _ _ _ => .registerWrite
  | .doorbell _ _ => .doorbell
  | .launchRead => .launchRead
  | .launchStart _ _ => .launchStart
  | .blockPlace => .blockPlace
  | .runQueuePlace => .runQueuePlace
  | .launchComplete _ _ => .launchComplete
  | .compactorMove _ => .compactorMove
  | .moveDone _ => .moveDone
  | .waveEnd _ => .waveEnd
  | .waveSaved _ => .waveSaved
  | .generationAdvance _ => .generationAdvance
  | .linkDegraded => .linkDegraded
  | .remoteTimeout _ => .remoteTimeout
  | .holdNoticeSend _ => .holdNoticeSend
  | .holdNotice _ _ => .holdNotice
  | .remoteRequest _ => .remoteRequest
  | .remoteReply _ _ _ => .remoteReply
  | .multicastMemberWrite _ => .multicastMemberWrite
  | .multicastAck _ _ _ => .multicastAck
  | .mfreeExchange _ => .mfreeExchange
  | .laneCopyComplete _ _ => .laneCopyComplete
  | .slipJobStart _ => .slipJobStart
  | .slipTileStart _ => .slipTileStart
  | .slipIteration _ => .slipIteration
  | .slipJobComplete _ => .slipJobComplete
  | .slipSignal _ => .slipSignal
  | .wheelSlab _ => .wheelSlab
  | .taskDispatch _ => .taskDispatch
  | .taskTileDrain _ => .taskTileDrain
  | .taskComplete _ _ => .taskComplete
  | .messageArrival _ => .messageArrival
  | .rendezvousLand _ _ => .rendezvousLand
  | .postTimeout _ _ => .postTimeout
  | .frameStall _ _ => .frameStall
  | .thruminoMessage _ _ _ _ => .thruminoMessage
  | .srdReceive _ => .srdReceive
  | .ptpMessage _ _ => .ptpMessage
  | .arpRequest _ _ => .arpRequest
  | .kmsgDeliver _ _ _ => .kmsgDeliver
  | .belvedereBind _ _ _ _ _ => .belvedereBind
  | .belvedereLookup _ _ _ => .belvedereLookup
  | .timerExpiry _ => .timerExpiry
  | .kwaitTimeout _ _ => .kwaitTimeout
  | .conePass _ => .conePass
  | .reconvTimeout _ _ => .reconvTimeout
  | .lkrateWrite _ _ => .lkrateWrite
  | .linkTrainingDone _ _ => .linkTrainingDone
  | .laneFault _ _ _ => .laneFault
  | .replayWindow _ => .replayWindow
  | .dieFlitReceive _ _ _ => .dieFlitReceive
  | .uncrst _ => .uncrst
  | .poiscrub _ => .poiscrub
  | .flitGroupReceive _ _ _ _ => .flitGroupReceive
  | .portLost _ _ _ => .portLost
  | .portTrained _ => .portTrained
  | .planeRemap _ => .planeRemap
  | .planemapWrite _ => .planemapWrite
  | .fabrekey _ => .fabrekey
  | .rekeyGroupCount _ _ => .rekeyGroupCount
  | .loadConfirm _ _ => .loadConfirm
  | .receiverAck _ _ => .receiverAck
  | .getVersion _ => .getVersion
  | .getCapabilities _ => .getCapabilities
  | .negotiateAlgorithms _ _ => .negotiateAlgorithms
  | .getDigests _ => .getDigests
  | .getCertificate _ _ => .getCertificate
  | .keyExchange _ _ => .keyExchange
  | .finish _ _ => .finish
  | .keyUpdate _ _ => .keyUpdate
  | .heartbeat _ => .heartbeat
  | .endSession _ => .endSession
  | .getMeasurements _ _ => .getMeasurements
  | .challenge _ _ => .challenge
  | .grantPoolAdd _ => .grantPoolAdd
  | .hostMemAccess _ _ _ _ => .hostMemAccess
  | .cxlTimeout _ _ => .cxlTimeout
  | .cxlLinkDown => .cxlLinkDown
  | .cxlLinkUp => .cxlLinkUp
  | .droopStretch => .droopStretch
  | .powerStretch => .powerStretch
  | .ptpLockLoss => .ptpLockLoss
  | .kmsgReply _ _ _ => .kmsgReply
  | .nameTimeout _ => .nameTimeout
  | .kmsgRetransmission _ => .kmsgRetransmission
  | .podBarrierMessage _ _ => .podBarrierMessage
  | .cxlCacheSnoop _ _ _ => .cxlCacheSnoop

end Sys2Proof
end

