-- ==== Sys2Proof/WellFormed.lean ====
section
/-! DEFINITION. Which instructions the encodings of R27 to R47 allow: writable destinations, pairs, groups,
indices, semantics and scopes. What only the footprint or the mode of a wave decides is not here. -/

namespace Sys2Proof

/-- R27: the codes that accept a write; z discards it. -/
def Opd.writable (o : Opd) : Bool :=
  match o with
  | .b _ | .z | .g _ => true
  | .e0 | .e1 | .ln | .wv => false

/-- R28: an even b or g register, the low word of a pair. -/
def Opd.isPair (o : Opd) : Bool :=
  match o with
  | .b r => !r.getLsbD 0
  | .g r => !r.getLsbD 0
  | .e0 | .e1 | .z | .ln | .wv => false

/-- R29: an even b register. -/
def Opd.isGroup2 (o : Opd) : Bool :=
  match o with
  | .b r => !r.getLsbD 0
  | .e0 | .e1 | .z | .ln | .wv | .g _ => false

/-- R29: a b register whose number is a multiple of 4. -/
def Opd.isGroup4 (o : Opd) : Bool :=
  match o with
  | .b r => !r.getLsbD 0 && !r.getLsbD 1
  | .e0 | .e1 | .z | .ln | .wv | .g _ => false

/-- R41: a b register, a g register or z as the mask. -/
def Opd.maskOk (o : Opd) : Bool :=
  match o with
  | .b _ | .z | .g _ => true
  | .e0 | .e1 | .ln | .wv => false

/-- R37: the destination of a load of a size. -/
def loadDstOk (size : Size) (v : Opd) : Bool :=
  match size with
  | .b | .bu | .h | .hu | .w => v.writable
  | .w2 => v.isGroup2
  | .w4 => v.isGroup4

/-- R37: the source of a store of a size. -/
def storeSrcOk (size : Size) (v : Opd) : Bool :=
  match size with
  | .b | .bu | .h | .hu | .w => true
  | .w2 => v.isGroup2
  | .w4 => v.isGroup4

/-- R37: global and tensor-relative addresses are pairs. -/
def spaceOk (space : Space) (a : Opd) : Bool :=
  match space with
  | .global | .tensor => a.isPair
  | .scratch | .priv => true

/-- R37: an acquire or release access names no scope .lane, .eng or .io. -/
def scopeOk (sem : Sem) (scope : Scope) : Bool :=
  sem == .relaxed || !(scope == .lane || scope == .eng || scope == .io)

/-- R255: the control-register indices that are assigned. -/
def ctlAssigned (idx : BitVec 9) : Bool :=
  idx.toNat ≤ 28 || (256 ≤ idx.toNat && idx.toNat ≤ 265)

/-- R255: the indices that need privileged mode. -/
def ctlPriv (idx : BitVec 9) : Bool := 256 ≤ idx.toNat

/-- The instructions that R25 to R46 define. The steps of other agents have no encoding to check. -/
def WellFormed (i : Instr) : Bool :=
  match i with
  | .packageReset | .bringupPhaseDone | .drvacceptWrite | .memsplitWrite | .registerWrite
  | .doorbell | .launchRead | .launchStart | .blockPlace | .runQueuePlace | .launchComplete
  | .compactorMove | .moveDone | .waveEnd | .waveSaved | .generationAdvance | .linkDegraded
  | .remoteTimeout | .holdNoticeSend | .holdNotice | .remoteRequest | .remoteReply
  | .multicastMemberWrite | .multicastAck | .mfreeExchange | .laneCopyComplete | .slipJobStart
  | .slipTileStart | .slipIteration | .slipJobComplete | .slipSignal | .wheelSlab
  | .taskDispatch | .taskTileDrain | .taskComplete | .messageArrival | .rendezvousLand
  | .postTimeout | .frameStall | .thruminoMessage | .srdReceive | .ptpMessage | .arpRequest
  | .kmsgDeliver | .belvedereBind | .belvedereLookup | .timerExpiry | .kwaitTimeout
  | .conePass | .reconvTimeout | .lkrateWrite | .linkTrainingDone | .laneFault | .replayWindow
  | .dieFlitReceive | .uncrst | .poiscrub | .flitGroupReceive | .portLost | .portTrained
  | .planeRemap | .planemapWrite | .fabrekey | .rekeyGroupCount | .loadConfirm | .receiverAck
  | .getVersion | .getCapabilities | .negotiateAlgorithms | .getDigests | .getCertificate
  | .keyExchange | .finish | .keyUpdate | .heartbeat | .endSession | .getMeasurements
  | .challenge | .grantPoolAdd | .hostMemAccess | .cxlTimeout | .cxlLinkDown | .cxlLinkUp
  | .droopStretch | .powerStretch | .nop16 =>
    true
  | .movC16 d s =>
    d.writable && !(d == .b 0 && s == 0)
  | .iaddC16 d _ | .isubC16 d _ | .imulC16 d _ | .andC16 d _ | .orC16 d _ | .xorC16 d _
  | .shlC16 d _ | .shrlC16 d _ | .shraC16 d _ | .faddC16 d _ | .fmulC16 d _ | .fmaxC16 d _
  | .fminC16 d _ | .isetltC16 d _ | .not d _ =>
    d.writable
  | .pfx p =>
    p.mask.maskOk
  | .iadd d _ _ | .isub d _ _ | .imul d _ _ | .imulhi d _ _ | .imulhu d _ _ | .imad d _ _
  | .imin d _ _ | .imax d _ _ | .umin d _ _ | .umax d _ _ | .and d _ _ | .or d _ _
  | .xor d _ _ | .andn d _ _ | .shl d _ _ | .shrl d _ _ | .shra d _ _ | .rotl d _ _
  | .popc d _ | .clz d _ | .brev d _ | .bfe d _ _ | .bfi d _ _ | .sel d _ _ | .iseteq d _ _
  | .isetne d _ _ | .isetlt d _ _ | .isetle d _ _ | .isetltu d _ _ | .isetleu d _ _
  | .iabs d _ | .iaddi d _ _ | .andi d _ _ | .ori d _ _ | .xori d _ _ | .shiShl d _ _
  | .shiShrl d _ _ | .shiShra d _ _ | .shiRotl d _ _ | .isetiEq d _ _ | .isetiNe d _ _
  | .isetiLt d _ _ | .isetiLe d _ _ | .isetiLtu d _ _ | .isetiLeu d _ _ | .movi d _
  | .movhi d _ | .ldl d _ =>
    d.writable
  | .region _ =>
    true
  | .movm v idx =>
    v.writable && idx.toNat < 256
  | .movmw _ idx =>
    idx.toNat < 256
  | .movg v _ =>
    v.writable
  | .movgw _ _ =>
    true
  | .movc v idx =>
    v.writable && ctlAssigned idx
  | .movtc _ idx =>
    ctlAssigned idx
  | .ld v a size sem scope space _ =>
    loadDstOk size v && spaceOk space a && scopeOk sem scope && (sem == .relaxed || sem == .acquire)
  | .st v a size sem scope space _ =>
    storeSrcOk size v && spaceOk space a && scopeOk sem scope && (sem == .relaxed || sem == .release)
  | .ldo v a size _ =>
    loadDstOk size v && a.isPair
  | .sto v a size _ =>
    storeSrcOk size v && a.isPair
  | .lds v _ size _ =>
    loadDstOk size v
  | .sts v _ size _ =>
    storeSrcOk size v
  | .atom d a _ _ _ | .atoma d a _ _ _ | .atoml d a _ _ _ | .atomal d a _ _ _ =>
    d.writable && a.isPair
  | .fence _ _ _ =>
    true
  | .stmc _ a _ =>
    a.isPair
  | .malloc d _ =>
    d.isPair
  | .mfree a | .cflush a _ | .cinv a _ | .pref a _ =>
    a.isPair
  | .ldt d a _ =>
    d.writable && a.isPair
  | .stt _ a _ =>
    a.isPair
  | .lcp _ g _ _ _ _ =>
    g.isPair
  | .tinit d _ b =>
    d.writable && b.isPair
  | .twait d _ =>
    d.writable
  | .tstat d _ =>
    d.isGroup4
  | .tready d _ | .tempty d _ =>
    d.writable
  | .scmd d a =>
    d.writable && a.isPair
  | .sresume d _ =>
    d.writable
  | .shalo d a =>
    d.writable && a.isPair
  | .spub d _ =>
    d.writable
  | .spoll d a _ =>
    d.writable && a.isPair
  | .tdef d _ b =>
    d.writable && b.isPair
  | .tundef d _ | .scancel d _ =>
    d.writable
  | .tld _ _ | .tst _ _ | .tzero _ =>
    true
  | .tmma c a b _ _ | .tmmaq c a b _ _ =>
    c != a && c != b
  | .tdrain _ p =>
    !p.getLsbD 0
  | .tcvt _ _ _ | .ttrans _ _ | .tfill _ _ =>
    true
  | .mtask d a _ | .mtwait d a | .mtstat d a | .mtcancel d a =>
    d.writable && a.isPair
  | .kcreate d _ b =>
    d.isGroup2 && b.isPair
  | .kclose d _ _ =>
    d.writable
  | .kspawn d a =>
    d.isGroup2 && a.isPair
  | .ksend d _ b | .krecv d _ b | .ktryrecv d _ b | .kpost d _ b | .kwadd d _ b =>
    d.writable && b.isPair
  | .kwdel d _ _ =>
    d.writable
  | .kwait d _ _ =>
    d.isGroup2
  | .karm d _ b =>
    d.writable && b.isPair
  | .kdisarm d _ =>
    d.writable
  | .klookup d a =>
    d.isGroup2 && a.isPair
  | .kname d _ b =>
    d.writable && b.isPair
  | .kidle d _ =>
    d.writable
  | .kwork d =>
    d.isGroup4
  | .ktime d =>
    d.isGroup2
  | .binit d _ _ | .barrive d _ | .bwait d _ _ | .bsync d _ | .binval d _ =>
    d.writable
  | .bz _ _ | .bnz _ _ | .bra _ | .call _ =>
    true
  | .callr a | .jmpr a =>
    a.isPair
  | .ret | .reconv | .yield | .exitLane | .nop | .trapInstr _ | .breakTrap | .svc _
  | .eret _ _ | .tlbinv _ | .tlbgen =>
    true
  | .preempt _ b | .resumew _ b | .corerst _ b | .engrst _ b =>
    b.writable
  | .fadd d _ _ | .fsub d _ _ | .fmul d _ _ | .ffma d _ _ | .fmin d _ _ | .fmax d _ _
  | .fabs d _ | .fneg d _ | .fseteq d _ _ | .fsetne d _ _ | .fsetlt d _ _ | .fsetle d _ _
  | .fsetun d _ _ | .fclass d _ | .frnd d _ | .fcvti d _ | .fcvtui d _ | .icvtf d _
  | .ucvtf d _ | .fpkbf d _ _ | .fpkh d _ _ | .fupbfl d _ | .fupbfh d _ | .fuphl d _
  | .fuphh d _ | .hadd2Bf d _ _ | .hmul2Bf d _ _ | .hfma2Bf d _ _ | .hmax2Bf d _ _
  | .hmin2Bf d _ _ | .hadd2H d _ _ | .hmul2H d _ _ | .hfma2H d _ _ | .hmax2H d _ _
  | .hmin2H d _ _ | .hdot2Bf d _ _ | .hdot2H d _ _ | .frcp d _ | .frsq d _ | .fsqrt d _
  | .fex2 d _ | .flg2 d _ | .fsin d _ | .fcos d _ | .ftanh d _ | .fdiv d _ _ | .shfli d _ _
  | .shflu d _ _ | .shfld d _ _ | .shflx d _ _ | .voteall d _ | .voteany d _ | .ballot d _
  | .redadd d _ | .redmin d _ | .redmax d _ | .redand d _ | .redor d _ | .redxor d _
  | .fredadd d _ | .fredmin d _ | .fredmax d _ | .scanadd d _ | .matchLanes d _ | .elect d
  | .active d =>
    d.writable
  | .ptpLockLoss | .kmsgReply | .nameTimeout | .kmsgRetransmission | .podBarrierMessage
  | .cxlCacheSnoop =>
    true

end Sys2Proof
end

