-- ==== Sys2Proof/Decode.lean ====
section
/-! DEFINITION. The decoder of R25 to R48, total on any bytes, rejecting by the name of the trap; after it
the encoder, written from the layouts of R30 to R41. -/

namespace Sys2Proof

/-- Why a word is no instruction: the trap of R47. -/
inductive Reject where
  /-- ILLEGAL_INSTR. -/
  | illegalInstr
  /-- ILLEGAL_OPERAND. -/
  | illegalOperand
  /-- ILLEGAL_OPERAND or ILLEGAL_ORDER of a word that also needs privileged mode: PRIV comes first (R48). -/
  | privOperand
  /-- ILLEGAL_ORDER. -/
  | illegalOrder
  /-- PREFIX_FORM (R43). -/
  | prefixForm
  /-- The bytes end before the instruction does: no trap of the part, which fetches more. -/
  | tooShort
  deriving DecidableEq, Repr

/-- The code of an operand (R27). -/
def Opd.code (o : Opd) : BitVec 6 :=
  match o with
  | .b r => (0#1) ++ r
  | .e0 => 32
  | .e1 => 33
  | .z => 34
  | .ln => 35
  | .wv => 36
  | .g r => (3#2) ++ r

/-- The operand of a code; 37 to 47 are reserved (R27). -/
def Opd.ofCode (c : BitVec 6) : Option Opd :=
  if c.getLsbD 5 = false then some (.b (c.extractLsb' 0 5))
  else if c.getLsbD 4 then some (.g (c.extractLsb' 0 4))
  else
    match c.toNat with
    | 32 => some .e0
    | 33 => some .e1
    | 34 => some .z
    | 35 => some .ln
    | 36 => some .wv
    | _ => none

/-- R37. -/
def Size.code (s : Size) : BitVec 3 :=
  match s with
  | .b => 0 | .bu => 1 | .h => 2 | .hu => 3 | .w => 4 | .w2 => 5 | .w4 => 6

/-- R37; 7 is reserved. -/
def Size.ofCode (c : BitVec 3) : Option Size :=
  match c.toNat with
  | 0 => some .b | 1 => some .bu | 2 => some .h | 3 => some .hu | 4 => some .w | 5 => some .w2 | 6 => some .w4
  | _ => none

/-- R37. -/
def Sem.code (s : Sem) : BitVec 2 :=
  match s with
  | .relaxed => 0 | .acquire => 1 | .release => 2 | .acqRel => 3

/-- R37. -/
def Sem.ofCode (c : BitVec 2) : Sem :=
  match c.toNat with
  | 0 => .relaxed | 1 => .acquire | 2 => .release | _ => .acqRel

/-- R37, R349. -/
def Scope.code (s : Scope) : BitVec 4 :=
  match s with
  | .lane => 0 | .wave => 1 | .block => 2 | .core => 3 | .quad => 4 | .die => 5 | .pkg => 6 | .sys => 7
  | .plane => 8 | .pod => 9 | .eng => 10 | .io => 11

/-- R37; 12 to 15 are reserved. -/
def Scope.ofCode (c : BitVec 4) : Option Scope :=
  match c.toNat with
  | 0 => some .lane | 1 => some .wave | 2 => some .block | 3 => some .core | 4 => some .quad | 5 => some .die
  | 6 => some .pkg | 7 => some .sys | 8 => some .plane | 9 => some .pod | 10 => some .eng | 11 => some .io
  | _ => none

/-- R37. -/
def Space.code (s : Space) : BitVec 2 :=
  match s with
  | .global => 0 | .scratch => 1 | .priv => 2 | .tensor => 3

/-- R37. -/
def Space.ofCode (c : BitVec 2) : Space :=
  match c.toNat with
  | 0 => .global | 1 => .scratch | 2 => .priv | _ => .tensor

/-- R37. -/
def Hint.code (h : Hint) : BitVec 2 :=
  match h with
  | .normal => 0 | .streaming => 1 | .keep => 2 | .home => 3

/-- R37. -/
def Hint.ofCode (c : BitVec 2) : Hint :=
  match c.toNat with
  | 0 => .normal | 1 => .streaming | 2 => .keep | _ => .home

/-- R38. -/
def AtomOp.code (o : AtomOp) : BitVec 4 :=
  match o with
  | .add => 0 | .sub => 1 | .smin => 2 | .smax => 3 | .umin => 4 | .umax => 5 | .and => 6 | .or => 7
  | .xor => 8 | .exch => 9 | .cas => 10 | .fadd => 11 | .fmin => 12 | .fmax => 13 | .incw => 14 | .decw => 15

/-- R38: every code is defined. -/
def AtomOp.ofCode (c : BitVec 4) : AtomOp :=
  match c.toNat with
  | 0 => .add | 1 => .sub | 2 => .smin | 3 => .smax | 4 => .umin | 5 => .umax | 6 => .and | 7 => .or
  | 8 => .xor | 9 => .exch | 10 => .cas | 11 => .fadd | 12 => .fmin | 13 => .fmax | 14 => .incw | _ => .decw

/-- R38. -/
def AScope.code (s : AScope) : BitVec 3 :=
  match s with
  | .wave => 0 | .block => 1 | .core => 2 | .quad => 3 | .die => 4 | .pkg => 5 | .sys => 6 | .pod => 7

/-- R38: every code is defined. -/
def AScope.ofCode (c : BitVec 3) : AScope :=
  match c.toNat with
  | 0 => .wave | 1 => .block | 2 => .core | 3 => .quad | 4 => .die | 5 => .pkg | 6 => .sys | _ => .pod

/-- R34. -/
def FenceKind.code (k : FenceKind) : BitVec 2 :=
  match k with
  | .acq => 0 | .rel => 1 | .ar => 2 | .sc => 3

/-- R34. -/
def FenceKind.ofCode (c : BitVec 2) : FenceKind :=
  match c.toNat with
  | 0 => .acq | 1 => .rel | 2 => .ar | _ => .sc

/-- R34. -/
def FenceDomain.code (k : FenceDomain) : BitVec 2 :=
  match k with
  | .mem => 0 | .eng => 1 | .io => 2 | .all => 3

/-- R34. -/
def FenceDomain.ofCode (c : BitVec 2) : FenceDomain :=
  match c.toNat with
  | 0 => .mem | 1 => .eng | 2 => .io | _ => .all

/-- R40. -/
def CopySize.code (s : CopySize) : BitVec 2 :=
  match s with
  | .s4 => 0 | .s8 => 1 | .s16 => 2

/-- R40; 11 is reserved. -/
def CopySize.ofCode (c : BitVec 2) : Option CopySize :=
  match c.toNat with
  | 0 => some .s4 | 1 => some .s8 | 2 => some .s16
  | _ => none

/-- R41. -/
def Rnd.code (r : Rnd) : BitVec 3 :=
  match r with
  | .rne => 0 | .rtz => 1 | .rup => 2 | .rdn => 3 | .rna => 4 | .dyn => 7

/-- R41; 101 and 110 are reserved. -/
def Rnd.ofCode (c : BitVec 3) : Option Rnd :=
  match c.toNat with
  | 0 => some .rne | 1 => some .rtz | 2 => some .rup | 3 => some .rdn | 4 => some .rna | 7 => some .dyn
  | _ => none

/-- A bit field of width 1. -/
def bit (p : Bool) : BitVec 1 := BitVec.ofBool p

/-- A must-be-zero check, before every operand check (R48). -/
def mbz {α : Type} (ok : Bool) (k : Except Reject α) : Except Reject α :=
  if ok then k else .error .illegalInstr

/-- An operand with a property of R27 to R29 or R41. -/
def opdWith (p : Opd → Bool) (c : BitVec 6) : Except Reject Opd :=
  match Opd.ofCode c with
  | some o => if p o then .ok o else .error .illegalOperand
  | none => .error .illegalOperand

/-- A readable operand (R27). -/
def rdOpd (c : BitVec 6) : Except Reject Opd := opdWith (fun _ => true) c

/-- A writable operand (R27). -/
def wrOpd (c : BitVec 6) : Except Reject Opd := opdWith Opd.writable c

/-- A pair (R28). -/
def pairOpd (c : BitVec 6) : Except Reject Opd := opdWith Opd.isPair c

/-- A group of two b registers (R29). -/
def grp2Opd (c : BitVec 6) : Except Reject Opd := opdWith Opd.isGroup2 c

/-- A group of four b registers (R29). -/
def grp4Opd (c : BitVec 6) : Except Reject Opd := opdWith Opd.isGroup4 c

/-- The functions of INT (R263) in the order of R46; unused fields are must-be-zero (R34). -/
def decodeInt (fn : Nat) (d a b : BitVec 6) : Except Reject Instr :=
  match fn with
  | 0 => do let d ← wrOpd d; let a ← rdOpd a; let b ← rdOpd b; return .iadd d a b
  | 1 => do let d ← wrOpd d; let a ← rdOpd a; let b ← rdOpd b; return .isub d a b
  | 2 => do let d ← wrOpd d; let a ← rdOpd a; let b ← rdOpd b; return .imul d a b
  | 3 => do let d ← wrOpd d; let a ← rdOpd a; let b ← rdOpd b; return .imulhi d a b
  | 4 => do let d ← wrOpd d; let a ← rdOpd a; let b ← rdOpd b; return .imulhu d a b
  | 5 => do let d ← wrOpd d; let a ← rdOpd a; let b ← rdOpd b; return .imad d a b
  | 6 => do let d ← wrOpd d; let a ← rdOpd a; let b ← rdOpd b; return .imin d a b
  | 7 => do let d ← wrOpd d; let a ← rdOpd a; let b ← rdOpd b; return .imax d a b
  | 8 => do let d ← wrOpd d; let a ← rdOpd a; let b ← rdOpd b; return .umin d a b
  | 9 => do let d ← wrOpd d; let a ← rdOpd a; let b ← rdOpd b; return .umax d a b
  | 10 => do let d ← wrOpd d; let a ← rdOpd a; let b ← rdOpd b; return .and d a b
  | 11 => do let d ← wrOpd d; let a ← rdOpd a; let b ← rdOpd b; return .or d a b
  | 12 => do let d ← wrOpd d; let a ← rdOpd a; let b ← rdOpd b; return .xor d a b
  | 13 => do let d ← wrOpd d; let a ← rdOpd a; let b ← rdOpd b; return .andn d a b
  | 14 => do let d ← wrOpd d; let a ← rdOpd a; let b ← rdOpd b; return .shl d a b
  | 15 => do let d ← wrOpd d; let a ← rdOpd a; let b ← rdOpd b; return .shrl d a b
  | 16 => do let d ← wrOpd d; let a ← rdOpd a; let b ← rdOpd b; return .shra d a b
  | 17 => do let d ← wrOpd d; let a ← rdOpd a; let b ← rdOpd b; return .rotl d a b
  | 18 => mbz (b == 0) do let d ← wrOpd d; let a ← rdOpd a; return .popc d a
  | 19 => mbz (b == 0) do let d ← wrOpd d; let a ← rdOpd a; return .clz d a
  | 20 => mbz (b == 0) do let d ← wrOpd d; let a ← rdOpd a; return .brev d a
  | 21 => do let d ← wrOpd d; let a ← rdOpd a; let b ← rdOpd b; return .bfe d a b
  | 22 => do let d ← wrOpd d; let a ← rdOpd a; let b ← rdOpd b; return .bfi d a b
  | 23 => do let d ← wrOpd d; let a ← rdOpd a; let b ← rdOpd b; return .sel d a b
  | 24 => do let d ← wrOpd d; let a ← rdOpd a; let b ← rdOpd b; return .iseteq d a b
  | 25 => do let d ← wrOpd d; let a ← rdOpd a; let b ← rdOpd b; return .isetne d a b
  | 26 => do let d ← wrOpd d; let a ← rdOpd a; let b ← rdOpd b; return .isetlt d a b
  | 27 => do let d ← wrOpd d; let a ← rdOpd a; let b ← rdOpd b; return .isetle d a b
  | 28 => do let d ← wrOpd d; let a ← rdOpd a; let b ← rdOpd b; return .isetltu d a b
  | 29 => do let d ← wrOpd d; let a ← rdOpd a; let b ← rdOpd b; return .isetleu d a b
  | 30 => mbz (b == 0) do let d ← wrOpd d; let a ← rdOpd a; return .iabs d a
  | _ => .error .illegalInstr

/-- The functions of FLT (R268) in the order of R46; unused fields are must-be-zero (R34). -/
def decodeFlt (fn : Nat) (d a b : BitVec 6) : Except Reject Instr :=
  match fn with
  | 0 => do let d ← wrOpd d; let a ← rdOpd a; let b ← rdOpd b; return .fadd d a b
  | 1 => do let d ← wrOpd d; let a ← rdOpd a; let b ← rdOpd b; return .fsub d a b
  | 2 => do let d ← wrOpd d; let a ← rdOpd a; let b ← rdOpd b; return .fmul d a b
  | 3 => do let d ← wrOpd d; let a ← rdOpd a; let b ← rdOpd b; return .ffma d a b
  | 4 => do let d ← wrOpd d; let a ← rdOpd a; let b ← rdOpd b; return .fmin d a b
  | 5 => do let d ← wrOpd d; let a ← rdOpd a; let b ← rdOpd b; return .fmax d a b
  | 6 => mbz (b == 0) do let d ← wrOpd d; let a ← rdOpd a; return .fabs d a
  | 7 => mbz (b == 0) do let d ← wrOpd d; let a ← rdOpd a; return .fneg d a
  | 8 => do let d ← wrOpd d; let a ← rdOpd a; let b ← rdOpd b; return .fseteq d a b
  | 9 => do let d ← wrOpd d; let a ← rdOpd a; let b ← rdOpd b; return .fsetne d a b
  | 10 => do let d ← wrOpd d; let a ← rdOpd a; let b ← rdOpd b; return .fsetlt d a b
  | 11 => do let d ← wrOpd d; let a ← rdOpd a; let b ← rdOpd b; return .fsetle d a b
  | 12 => do let d ← wrOpd d; let a ← rdOpd a; let b ← rdOpd b; return .fsetun d a b
  | 13 => mbz (b == 0) do let d ← wrOpd d; let a ← rdOpd a; return .fclass d a
  | 14 => mbz (b == 0) do let d ← wrOpd d; let a ← rdOpd a; return .frnd d a
  | 15 => mbz (b == 0) do let d ← wrOpd d; let a ← rdOpd a; return .fcvti d a
  | 16 => mbz (b == 0) do let d ← wrOpd d; let a ← rdOpd a; return .fcvtui d a
  | 17 => mbz (b == 0) do let d ← wrOpd d; let a ← rdOpd a; return .icvtf d a
  | 18 => mbz (b == 0) do let d ← wrOpd d; let a ← rdOpd a; return .ucvtf d a
  | 19 => do let d ← wrOpd d; let a ← rdOpd a; let b ← rdOpd b; return .fpkbf d a b
  | 20 => do let d ← wrOpd d; let a ← rdOpd a; let b ← rdOpd b; return .fpkh d a b
  | 21 => mbz (b == 0) do let d ← wrOpd d; let a ← rdOpd a; return .fupbfl d a
  | 22 => mbz (b == 0) do let d ← wrOpd d; let a ← rdOpd a; return .fupbfh d a
  | 23 => mbz (b == 0) do let d ← wrOpd d; let a ← rdOpd a; return .fuphl d a
  | 24 => mbz (b == 0) do let d ← wrOpd d; let a ← rdOpd a; return .fuphh d a
  | _ => .error .illegalInstr

/-- The functions of HPK (R283) in the order of R46; unused fields are must-be-zero (R34). -/
def decodeHpk (fn : Nat) (d a b : BitVec 6) : Except Reject Instr :=
  match fn with
  | 0 => do let d ← wrOpd d; let a ← rdOpd a; let b ← rdOpd b; return .hadd2Bf d a b
  | 1 => do let d ← wrOpd d; let a ← rdOpd a; let b ← rdOpd b; return .hmul2Bf d a b
  | 2 => do let d ← wrOpd d; let a ← rdOpd a; let b ← rdOpd b; return .hfma2Bf d a b
  | 3 => do let d ← wrOpd d; let a ← rdOpd a; let b ← rdOpd b; return .hmax2Bf d a b
  | 4 => do let d ← wrOpd d; let a ← rdOpd a; let b ← rdOpd b; return .hmin2Bf d a b
  | 5 => do let d ← wrOpd d; let a ← rdOpd a; let b ← rdOpd b; return .hadd2H d a b
  | 6 => do let d ← wrOpd d; let a ← rdOpd a; let b ← rdOpd b; return .hmul2H d a b
  | 7 => do let d ← wrOpd d; let a ← rdOpd a; let b ← rdOpd b; return .hfma2H d a b
  | 8 => do let d ← wrOpd d; let a ← rdOpd a; let b ← rdOpd b; return .hmax2H d a b
  | 9 => do let d ← wrOpd d; let a ← rdOpd a; let b ← rdOpd b; return .hmin2H d a b
  | 10 => do let d ← wrOpd d; let a ← rdOpd a; let b ← rdOpd b; return .hdot2Bf d a b
  | 11 => do let d ← wrOpd d; let a ← rdOpd a; let b ← rdOpd b; return .hdot2H d a b
  | _ => .error .illegalInstr

/-- The functions of SFU (R281) in the order of R46; unused fields are must-be-zero (R34). -/
def decodeSfu (fn : Nat) (d a b : BitVec 6) : Except Reject Instr :=
  match fn with
  | 0 => mbz (b == 0) do let d ← wrOpd d; let a ← rdOpd a; return .frcp d a
  | 1 => mbz (b == 0) do let d ← wrOpd d; let a ← rdOpd a; return .frsq d a
  | 2 => mbz (b == 0) do let d ← wrOpd d; let a ← rdOpd a; return .fsqrt d a
  | 3 => mbz (b == 0) do let d ← wrOpd d; let a ← rdOpd a; return .fex2 d a
  | 4 => mbz (b == 0) do let d ← wrOpd d; let a ← rdOpd a; return .flg2 d a
  | 5 => mbz (b == 0) do let d ← wrOpd d; let a ← rdOpd a; return .fsin d a
  | 6 => mbz (b == 0) do let d ← wrOpd d; let a ← rdOpd a; return .fcos d a
  | 7 => mbz (b == 0) do let d ← wrOpd d; let a ← rdOpd a; return .ftanh d a
  | 8 => do let d ← wrOpd d; let a ← rdOpd a; let b ← rdOpd b; return .fdiv d a b
  | _ => .error .illegalInstr

/-- The functions of XLN (R289) in the order of R46; unused fields are must-be-zero (R34). -/
def decodeXln (fn : Nat) (d a b : BitVec 6) : Except Reject Instr :=
  match fn with
  | 0 => do let d ← wrOpd d; let a ← rdOpd a; let b ← rdOpd b; return .shfli d a b
  | 1 => do let d ← wrOpd d; let a ← rdOpd a; let b ← rdOpd b; return .shflu d a b
  | 2 => do let d ← wrOpd d; let a ← rdOpd a; let b ← rdOpd b; return .shfld d a b
  | 3 => do let d ← wrOpd d; let a ← rdOpd a; let b ← rdOpd b; return .shflx d a b
  | 4 => mbz (b == 0) do let d ← wrOpd d; let a ← rdOpd a; return .voteall d a
  | 5 => mbz (b == 0) do let d ← wrOpd d; let a ← rdOpd a; return .voteany d a
  | 6 => mbz (b == 0) do let d ← wrOpd d; let a ← rdOpd a; return .ballot d a
  | 7 => mbz (b == 0) do let d ← wrOpd d; let a ← rdOpd a; return .redadd d a
  | 8 => mbz (b == 0) do let d ← wrOpd d; let a ← rdOpd a; return .redmin d a
  | 9 => mbz (b == 0) do let d ← wrOpd d; let a ← rdOpd a; return .redmax d a
  | 10 => mbz (b == 0) do let d ← wrOpd d; let a ← rdOpd a; return .redand d a
  | 11 => mbz (b == 0) do let d ← wrOpd d; let a ← rdOpd a; return .redor d a
  | 12 => mbz (b == 0) do let d ← wrOpd d; let a ← rdOpd a; return .redxor d a
  | 13 => mbz (b == 0) do let d ← wrOpd d; let a ← rdOpd a; return .fredadd d a
  | 14 => mbz (b == 0) do let d ← wrOpd d; let a ← rdOpd a; return .fredmin d a
  | 15 => mbz (b == 0) do let d ← wrOpd d; let a ← rdOpd a; return .fredmax d a
  | 16 => mbz (b == 0) do let d ← wrOpd d; let a ← rdOpd a; return .scanadd d a
  | 17 => mbz (b == 0) do let d ← wrOpd d; let a ← rdOpd a; return .matchLanes d a
  | 18 => mbz (a == 0 && b == 0) do let d ← wrOpd d; return .elect d
  | 19 => mbz (a == 0 && b == 0) do let d ← wrOpd d; return .active d
  | _ => .error .illegalInstr

/-- The functions of MEMX (R156) in the order of R46; unused fields are must-be-zero (R34). -/
def decodeMemx (fn : Nat) (d a b : BitVec 6) : Except Reject Instr :=
  match fn with
  | 0 => do let d ← rdOpd d; let a ← pairOpd a; let b ← rdOpd b; return .stmc d a b
  | 1 => mbz (b == 0) do let d ← pairOpd d; let a ← rdOpd a; return .malloc d a
  | 2 => mbz (d == 0 && b == 0) do let a ← pairOpd a; return .mfree a
  | 3 => mbz (d == 0) do let a ← pairOpd a; let b ← rdOpd b; return .cflush a b
  | 4 => mbz (d == 0) do let a ← pairOpd a; let b ← rdOpd b; return .cinv a b
  | 5 => mbz (d == 0) do let a ← pairOpd a; let b ← rdOpd b; return .pref a b
  | 6 => do let d ← wrOpd d; let a ← pairOpd a; let b ← rdOpd b; return .ldt d a b
  | 7 => do let d ← rdOpd d; let a ← pairOpd a; let b ← rdOpd b; return .stt d a b
  | _ => .error .illegalInstr

/-- The functions of TSYNC (R225) in the order of R46; unused fields are must-be-zero (R34). -/
def decodeTsync (fn : Nat) (d a b : BitVec 6) : Except Reject Instr :=
  match fn with
  | 0 => do let d ← wrOpd d; let a ← rdOpd a; let b ← pairOpd b; return .tinit d a b
  | 1 => mbz (b == 0) do let d ← wrOpd d; let a ← rdOpd a; return .twait d a
  | 2 => mbz (b == 0) do let d ← grp4Opd d; let a ← rdOpd a; return .tstat d a
  | 3 => mbz (b == 0) do let d ← wrOpd d; let a ← rdOpd a; return .tready d a
  | 4 => mbz (b == 0) do let d ← wrOpd d; let a ← rdOpd a; return .tempty d a
  | _ => .error .illegalInstr

/-- The functions of STRM (R241) in the order of R46; unused fields are must-be-zero (R34). -/
def decodeStrm (fn : Nat) (d a b : BitVec 6) : Except Reject Instr :=
  match fn with
  | 0 => mbz (b == 0) do let d ← wrOpd d; let a ← pairOpd a; return .scmd d a
  | 1 => mbz (b == 0) do let d ← wrOpd d; let a ← rdOpd a; return .sresume d a
  | 2 => mbz (b == 0) do let d ← wrOpd d; let a ← pairOpd a; return .shalo d a
  | 3 => mbz (b == 0) do let d ← wrOpd d; let a ← rdOpd a; return .spub d a
  | 4 => do let d ← wrOpd d; let a ← pairOpd a; let b ← rdOpd b; return .spoll d a b
  | 5 => do let d ← wrOpd d; let a ← rdOpd a; let b ← pairOpd b; return .tdef d a b
  | 6 => mbz (b == 0) do let d ← wrOpd d; let a ← rdOpd a; return .tundef d a
  | 7 => mbz (b == 0) do let d ← wrOpd d; let a ← rdOpd a; return .scancel d a
  | _ => .error .illegalInstr

/-- The functions of TASK (R345) in the order of R46; unused fields are must-be-zero (R34). -/
def decodeTask (fn : Nat) (d a b : BitVec 6) : Except Reject Instr :=
  match fn with
  | 0 => do let d ← wrOpd d; let a ← pairOpd a; let b ← rdOpd b; return .mtask d a b
  | 1 => mbz (b == 0) do let d ← wrOpd d; let a ← pairOpd a; return .mtwait d a
  | 2 => mbz (b == 0) do let d ← wrOpd d; let a ← pairOpd a; return .mtstat d a
  | 3 => mbz (b == 0) do let d ← wrOpd d; let a ← pairOpd a; return .mtcancel d a
  | _ => .error .illegalInstr

/-- The functions of KRN (R385) in the order of R46; unused fields are must-be-zero (R34). -/
def decodeKrn (fn : Nat) (d a b : BitVec 6) : Except Reject Instr :=
  match fn with
  | 0 => do let d ← grp2Opd d; let a ← rdOpd a; let b ← pairOpd b; return .kcreate d a b
  | 1 => do let d ← wrOpd d; let a ← rdOpd a; let b ← rdOpd b; return .kclose d a b
  | 2 => mbz (b == 0) do let d ← grp2Opd d; let a ← pairOpd a; return .kspawn d a
  | 3 => do let d ← wrOpd d; let a ← rdOpd a; let b ← pairOpd b; return .ksend d a b
  | 4 => do let d ← wrOpd d; let a ← rdOpd a; let b ← pairOpd b; return .krecv d a b
  | 5 => do let d ← wrOpd d; let a ← rdOpd a; let b ← pairOpd b; return .ktryrecv d a b
  | 6 => do let d ← wrOpd d; let a ← rdOpd a; let b ← pairOpd b; return .kpost d a b
  | 7 => do let d ← wrOpd d; let a ← rdOpd a; let b ← pairOpd b; return .kwadd d a b
  | 8 => do let d ← wrOpd d; let a ← rdOpd a; let b ← rdOpd b; return .kwdel d a b
  | 9 => do let d ← grp2Opd d; let a ← rdOpd a; let b ← rdOpd b; return .kwait d a b
  | 10 => do let d ← wrOpd d; let a ← rdOpd a; let b ← pairOpd b; return .karm d a b
  | 11 => mbz (b == 0) do let d ← wrOpd d; let a ← rdOpd a; return .kdisarm d a
  | 12 => mbz (b == 0) do let d ← grp2Opd d; let a ← pairOpd a; return .klookup d a
  | 13 => do let d ← wrOpd d; let a ← rdOpd a; let b ← pairOpd b; return .kname d a b
  | 14 => mbz (b == 0) do let d ← wrOpd d; let a ← rdOpd a; return .kidle d a
  | 15 => mbz (a == 0 && b == 0) do let d ← grp4Opd d; return .kwork d
  | 16 => mbz (a == 0 && b == 0) do let d ← grp2Opd d; return .ktime d
  | _ => .error .illegalInstr

/-- The functions of BAR (R308) in the order of R46; unused fields are must-be-zero (R34). -/
def decodeBar (fn : Nat) (d a b : BitVec 6) : Except Reject Instr :=
  match fn with
  | 0 => do let d ← wrOpd d; let a ← rdOpd a; let b ← rdOpd b; return .binit d a b
  | 1 => mbz (b == 0) do let d ← wrOpd d; let a ← rdOpd a; return .barrive d a
  | 2 => do let d ← wrOpd d; let a ← rdOpd a; let b ← rdOpd b; return .bwait d a b
  | 3 => mbz (b == 0) do let d ← wrOpd d; let a ← rdOpd a; return .bsync d a
  | 4 => mbz (b == 0) do let d ← wrOpd d; let a ← rdOpd a; return .binval d a
  | _ => .error .illegalInstr

/-- The functions of CTL (R296 to R302) in the order of R46; unused fields are must-be-zero (R34). -/
def decodeCtl (fn : Nat) (d a b : BitVec 6) : Except Reject Instr :=
  match fn with
  | 0 => mbz (d == 0 && b == 0) do let a ← pairOpd a; return .callr a
  | 1 => mbz (d == 0 && b == 0) do let a ← pairOpd a; return .jmpr a
  | 2 => mbz (d == 0 && a == 0 && b == 0) (.ok .ret)
  | 3 => mbz (d == 0 && a == 0 && b == 0) (.ok .reconv)
  | 4 => mbz (d == 0 && a == 0 && b == 0) (.ok .yield)
  | 5 => mbz (d == 0 && a == 0 && b == 0) (.ok .exitLane)
  | 6 => mbz (d == 0 && a == 0 && b == 0) (.ok .nop)
  | 7 => mbz (d == 0 && b == 0) do let a ← rdOpd a; return .trapInstr a
  | 8 => mbz (d == 0 && a == 0 && b == 0) (.ok .breakTrap)
  | 9 => mbz (d == 0 && b == 0) do let a ← rdOpd a; return .svc a
  | _ => .error .illegalInstr

/-- The tile or parameter number of a KLN field, whose bits [5:3] are must-be-zero (R34). -/
def tileBits (c : BitVec 6) : BitVec 3 := c.extractLsb' 0 3

/-- Bits [5:3] of a KLN field are zero (R34). -/
def tileField (c : BitVec 6) : Bool := c.extractLsb' 3 3 == 0

/-- The KLN functions (R313): fn7[4:0] the function, fn7[5] and fn7[6] the reuse hints. -/
def decodeKln (fn7 : BitVec 7) (d a b : BitVec 6) : Except Reject Instr :=
  let ra := fn7.getLsbD 5
  let rb := fn7.getLsbD 6
  let plain := !ra && !rb
  match (fn7.extractLsb' 0 5).toNat with
  | 0 => mbz (plain && tileField d && a == 0 && tileField b) (.ok (.tld (tileBits d) (tileBits b)))
  | 1 => mbz (plain && d == 0 && tileField a && tileField b) (.ok (.tst (tileBits a) (tileBits b)))
  | 2 => mbz (plain && tileField d && a == 0 && b == 0) (.ok (.tzero (tileBits d)))
  | 3 => mbz (tileField d && tileField a && tileField b)
      (if tileBits d == tileBits a || tileBits d == tileBits b then .error .illegalOperand
       else .ok (.tmma (tileBits d) (tileBits a) (tileBits b) ra rb))
  | 4 => mbz (tileField d && tileField a && tileField b)
      (if tileBits d == tileBits a || tileBits d == tileBits b then .error .illegalOperand
       else .ok (.tmmaq (tileBits d) (tileBits a) (tileBits b) ra rb))
  | 5 => mbz (plain && d == 0 && tileField a && tileField b)
      (if (tileBits b).getLsbD 0 then .error .illegalOperand else .ok (.tdrain (tileBits a) (tileBits b)))
  | 6 => mbz (plain && tileField d && tileField a && tileField b)
      (.ok (.tcvt (tileBits d) (tileBits a) (tileBits b)))
  | 7 => mbz (plain && tileField d && tileField a && b == 0) (.ok (.ttrans (tileBits d) (tileBits a)))
  | 8 => mbz (plain && tileField d && a == 0 && tileField b) (.ok (.tfill (tileBits d) (tileBits b)))
  | _ => .error .illegalInstr

/-- An operand check of an instruction that needs privileged mode: PRIV comes before it (R48). -/
def privFirst {α : Type} (k : Except Reject α) : Except Reject α :=
  match k with
  | .error .illegalOperand => .error .privOperand
  | .error .illegalOrder => .error .privOperand
  | .error r => .error r
  | .ok x => .ok x

/-- The SYS functions (R429). -/
def decodeSys (fn : Nat) (b a : BitVec 6) : Except Reject Instr :=
  match fn with
  | 0 => do let a ← rdOpd a; let b ← rdOpd b; return .eret a b
  | 1 => mbz (b == 0) do let a ← rdOpd a; return .tlbinv a
  | 2 => mbz (a == 0 && b == 0) (.ok .tlbgen)
  | 3 => do let a ← rdOpd a; let b ← wrOpd b; return .preempt a b
  | 4 => do let a ← rdOpd a; let b ← wrOpd b; return .resumew a b
  | 5 => do let a ← rdOpd a; let b ← wrOpd b; return .corerst a b
  | 6 => do let a ← rdOpd a; let b ← wrOpd b; return .engrst a b
  | _ => .error .illegalInstr

/-- An operand with the check of a load's destination or a store's source (R37). -/
def sizedOpd (ok : Size → Opd → Bool) (size : Size) (c : BitVec 6) : Except Reject Opd := opdWith (ok size) c

/-- LD and ST (R37, R143): reserved values and scopes first, then operands, then the order. -/
def decodeMem (load : Bool) (hint space : BitVec 2) (scope : BitVec 4) (sem : BitVec 2) (size : BitVec 3)
    (a v : BitVec 6) : Except Reject Instr :=
  match Size.ofCode size, Scope.ofCode scope with
  | some size, some scope =>
    let sem := Sem.ofCode sem
    let space := Space.ofCode space
    mbz (scopeOk sem scope) do
      let v ← sizedOpd (if load then loadDstOk else storeSrcOk) size v
      let a ← opdWith (spaceOk space) a
      if load then
        if sem == .relaxed || sem == .acquire then return .ld v a size sem scope space (Hint.ofCode hint)
        else throw .illegalOrder
      else
        if sem == .relaxed || sem == .release then return .st v a size sem scope space (Hint.ofCode hint)
        else throw .illegalOrder
  | _, _ => .error .illegalInstr

/-- LDO, STO, LDS and STS (R37, R145), by major. -/
def decodeMo (major : Nat) (off : BitVec 10) (size : BitVec 3) (a v : BitVec 6) : Except Reject Instr :=
  match Size.ofCode size with
  | none => .error .illegalInstr
  | some size =>
    match major with
    | 0x13 => do let v ← sizedOpd loadDstOk size v; let a ← pairOpd a; return .ldo v a size off
    | 0x14 => do let v ← sizedOpd storeSrcOk size v; let a ← pairOpd a; return .sto v a size off
    | 0x15 => do let v ← sizedOpd loadDstOk size v; let a ← rdOpd a; return .lds v a size off
    | _ => do let v ← sizedOpd storeSrcOk size v; let a ← rdOpd a; return .sts v a size off

/-- The kinds of MOVX (R36): the index of MOVM below 256, of MOVC assigned (R255). -/
def decodeIx (kind : Nat) (idx : BitVec 9) (v : BitVec 6) : Except Reject Instr :=
  let ctl (k : Except Reject Instr) : Except Reject Instr :=
    let checked := do
      let i ← k
      if ctlAssigned idx then return i else throw .illegalOperand
    if ctlPriv idx then privFirst checked else checked
  match kind with
  | 0 => do let v ← wrOpd v; if idx.toNat < 256 then return .movm v idx else throw .illegalOperand
  | 1 => do let v ← rdOpd v; if idx.toNat < 256 then return .movmw v idx else throw .illegalOperand
  | 2 => do let v ← wrOpd v; return .movg v idx
  | 3 => do let v ← rdOpd v; return .movgw v idx
  | 4 => ctl (do let v ← wrOpd v; return .movc v idx)
  | 5 => ctl (do let v ← rdOpd v; return .movtc v idx)
  | _ => .error .illegalInstr

/-- The prefix word's own checks (R41, R48): reserved codes, then the mask and fourth operands. -/
def decodePfx (w : Word) : Except Reject Instr :=
  match Rnd.ofCode (w.extractLsb' 20 3) with
  | none => .error .illegalInstr
  | some rnd =>
    mbz (w.extractLsb' 25 7 == 0) do
      let mask ← opdWith Opd.maskOk (w.extractLsb' 13 6)
      let fourth ← rdOpd (w.extractLsb' 7 6)
      return .pfx (PfxFields.mk (w.getLsbD 24) (w.getLsbD 23) rnd (w.getLsbD 19) mask fourth)

/-- LCP (R40). -/
def decodeLcp (w : Word) : Except Reject Instr :=
  match CopySize.ofCode (w.extractLsb' 19 2) with
  | none => .error .illegalInstr
  | some size =>
    mbz (w.extractLsb' 29 3 == 0) do
      let s ← rdOpd (w.extractLsb' 7 6)
      let g ← pairOpd (w.extractLsb' 13 6)
      return .lcp s g size (w.getLsbD 21) (w.extractLsb' 22 6) (w.getLsbD 28)

/-- FENCE (R34). -/
def decodeFence (w : Word) : Except Reject Instr :=
  match Scope.ofCode (w.extractLsb' 19 4) with
  | none => .error .illegalInstr
  | some scope =>
    mbz (w.extractLsb' 27 5 == 0 && w.extractLsb' 7 12 == 0)
      (.ok (.fence scope (FenceKind.ofCode (w.extractLsb' 23 2)) (FenceDomain.ofCode (w.extractLsb' 25 2))))

/-- SHI (R35): the kind in imm13[6:5], imm13[12:7] zero. -/
def decodeShi (imm : BitVec 13) (a d : BitVec 6) : Except Reject Instr :=
  let n : BitVec 5 := imm.extractLsb' 0 5
  mbz (imm.extractLsb' 7 6 == 0) do
    let d ← wrOpd d
    let a ← rdOpd a
    match (imm.extractLsb' 5 2).toNat with
    | 0 => return .shiShl d a n
    | 1 => return .shiShrl d a n
    | 2 => return .shiShra d a n
    | _ => return .shiRotl d a n

/-- ISETI (R35): the condition in imm13[12:10], of which 110 and 111 are reserved. -/
def decodeIseti (imm : BitVec 13) (a d : BitVec 6) : Except Reject Instr :=
  let v : BitVec 10 := imm.extractLsb' 0 10
  let cond := (imm.extractLsb' 10 3).toNat
  mbz (cond < 6) do
    let d ← wrOpd d
    let a ← rdOpd a
    match cond with
    | 0 => return .isetiEq d a v
    | 1 => return .isetiNe d a v
    | 2 => return .isetiLt d a v
    | 3 => return .isetiLe d a v
    | 4 => return .isetiLtu d a v
    | _ => return .isetiLeu d a v

/-- An I19 word with a destination (R35). -/
def decodeI19 (w : Word) (k : Opd → BitVec 19 → Instr) : Except Reject Instr := do
  let d ← wrOpd (w.extractLsb' 7 6)
  return k d (w.extractLsb' 13 19)

/-- An I13 word (R35). -/
def decodeI13 (w : Word) (k : Opd → Opd → BitVec 13 → Instr) : Except Reject Instr := do
  let d ← wrOpd (w.extractLsb' 7 6)
  let a ← rdOpd (w.extractLsb' 13 6)
  return k d a (w.extractLsb' 19 13)

/-- An atomic (R38, R148). -/
def decodeAtom (w : Word) (k : Opd → Opd → Opd → AtomOp → AScope → Instr) : Except Reject Instr := do
  let d ← wrOpd (w.extractLsb' 7 6)
  let a ← pairOpd (w.extractLsb' 13 6)
  let b ← rdOpd (w.extractLsb' 19 6)
  return k d a b (AtomOp.ofCode (w.extractLsb' 28 4)) (AScope.ofCode (w.extractLsb' 25 3))

/-- A 32-bit word, by its major opcode (R45). -/
def decodeWord (w : Word) : Except Reject Instr :=
  let fn := (w.extractLsb' 25 7).toNat
  let b := w.extractLsb' 19 6
  let a := w.extractLsb' 13 6
  let d := w.extractLsb' 7 6
  match (w.extractLsb' 1 6).toNat with
  | 0x01 => decodeInt fn d a b
  | 0x02 => decodeFlt fn d a b
  | 0x03 => decodeHpk fn d a b
  | 0x04 => decodeSfu fn d a b
  | 0x05 => decodeXln fn d a b
  | 0x06 => decodeI13 w .iaddi
  | 0x07 => decodeI13 w .andi
  | 0x08 => decodeI13 w .ori
  | 0x09 => decodeI13 w .xori
  | 0x0A => decodeShi (w.extractLsb' 19 13) a d
  | 0x0B => decodeIseti (w.extractLsb' 19 13) a d
  | 0x0C => decodeI19 w .movi
  | 0x0D => decodeI19 w .movhi
  | 0x0E => decodeI19 w .ldl
  | 0x0F => mbz (d == 0) (.ok (.region (w.extractLsb' 13 19)))
  | 0x10 => mbz (fn == 0) (decodeIx (w.extractLsb' 22 3).toNat (w.extractLsb' 13 9) d)
  | 0x11 => decodeMem true (w.extractLsb' 30 2) (w.extractLsb' 28 2) (w.extractLsb' 24 4)
      (w.extractLsb' 22 2) (w.extractLsb' 19 3) a d
  | 0x12 => decodeMem false (w.extractLsb' 30 2) (w.extractLsb' 28 2) (w.extractLsb' 24 4)
      (w.extractLsb' 22 2) (w.extractLsb' 19 3) a d
  | 0x13 => decodeMo 0x13 (w.extractLsb' 22 10) (w.extractLsb' 19 3) a d
  | 0x14 => decodeMo 0x14 (w.extractLsb' 22 10) (w.extractLsb' 19 3) a d
  | 0x15 => decodeMo 0x15 (w.extractLsb' 22 10) (w.extractLsb' 19 3) a d
  | 0x16 => decodeMo 0x16 (w.extractLsb' 22 10) (w.extractLsb' 19 3) a d
  | 0x17 => decodeAtom w .atom
  | 0x18 => decodeAtom w .atoma
  | 0x19 => decodeAtom w .atoml
  | 0x1A => decodeAtom w .atomal
  | 0x1B => decodeFence w
  | 0x1C => decodeMemx fn d a b
  | 0x1D => decodeLcp w
  | 0x1E => decodeTsync fn d a b
  | 0x1F => decodeStrm fn d a b
  | 0x20 => decodeKln (w.extractLsb' 25 7) d a b
  | 0x21 => decodeTask fn d a b
  | 0x22 => decodeKrn fn d a b
  | 0x23 => decodeBar fn d a b
  | 0x24 => do let c ← rdOpd d; return .bz c (w.extractLsb' 13 19)
  | 0x25 => do let c ← rdOpd d; return .bnz c (w.extractLsb' 13 19)
  | 0x26 => .ok (.bra (w.extractLsb' 7 25))
  | 0x27 => .ok (.call (w.extractLsb' 7 25))
  | 0x28 => decodeCtl fn d a b
  | 0x29 => privFirst (decodeSys (w.extractLsb' 19 13).toNat a d)
  | 0x3F => decodePfx w
  | _ => .error .illegalInstr

/-- A compact halfword (R30 to R32). -/
def decodeHalf (h : BitVec 16) : Except Reject Instr :=
  if h == 0 then .ok .nop16
  else do
    let s := h.extractLsb' 11 5
    let d ← wrOpd (h.extractLsb' 5 6)
    match (h.extractLsb' 1 4).toNat with
    | 0 => return .movC16 d s
    | 1 => return .iaddC16 d s
    | 2 => return .isubC16 d s
    | 3 => return .imulC16 d s
    | 4 => return .andC16 d s
    | 5 => return .orC16 d s
    | 6 => return .xorC16 d s
    | 7 => return .shlC16 d s
    | 8 => return .shrlC16 d s
    | 9 => return .shraC16 d s
    | 10 => return .faddC16 d s
    | 11 => return .fmulC16 d s
    | 12 => return .fmaxC16 d s
    | 13 => return .fminC16 d s
    | 14 => return .isetltC16 d s
    | _ => return .not d s

/-- The words of an instruction: a compact halfword or a 32-bit word (R25). -/
inductive Code where
  | half (h : BitVec 16)
  | word (w : BitVec 32)
  deriving DecidableEq, Repr

/-- One instruction word of either length. -/
def decode1 (c : Code) : Except Reject Instr :=
  match c with
  | .half h => decodeHalf h
  | .word w => decodeWord w

/-- The majors that accept a prefix (R43): INT, FLT, HPK, SFU, XLN and the I13 majors. A word of one of them whose function code is
no instruction (R46) fits too, and traps as the second word of its unit (R48). DESIGN CHOICE, log entry 103. -/
def prefixable (c : Code) : Bool :=
  match c with
  | .half _ => false
  | .word w =>
    let major := (w.extractLsb' 1 6).toNat
    1 ≤ major && major ≤ 0x0B

/-- The accumulate forms of R43: IMAD, BFI, SEL; FFMA; HFMA2.BF, HFMA2.H, HDOT2.BF, HDOT2.H. -/
def accumulates (c : Code) : Bool :=
  match c with
  | .half _ => false
  | .word w =>
    let fn := (w.extractLsb' 25 7).toNat
    match (w.extractLsb' 1 6).toNat with
    | 1 => fn == 5 || fn == 22 || fn == 23
    | 2 => fn == 3
    | 3 => fn == 2 || fn == 7 || fn == 10 || fn == 11
    | _ => false

/-- The word is an XLN instruction (R45). -/
def isXlnWord (c : Code) : Bool :=
  match c with
  | .half _ => false
  | .word w => (w.extractLsb' 1 6).toNat == 5

/-- Whether a prefix may stand before the word that follows it (R43). -/
def prefixFits (p : PfxFields) (c : Code) : Bool :=
  prefixable c && (p.fourth == .z || accumulates c) &&
    !(isXlnWord c && !(p.fourth == .z && p.zmask == false && p.rnd == .dyn && p.sat == false && p.ftz == false)) &&
    !(p.mask == .z && p.zmask)

/-- The value of a word for TRAPAUX: a halfword zero-extended (R48). -/
def Code.aux (c : Code) : Word :=
  match c with
  | .half h => h.zeroExtend 32
  | .word w => w

/-- The bytes a word takes. -/
def Code.size (c : Code) : Nat :=
  match c with
  | .half _ => 2
  | .word _ => 4

/-- What is fetched and decoded at one PC: the prefix with its word if there is one, and the instruction (R42). -/
structure Fetched where
  pfx : Option (PfxFields × Word)
  instr : Instr
  word : Word
  len : Nat
  deriving DecidableEq, Repr

/-- A failed decode: the trap and the word that TRAPAUX holds (R48). -/
structure Failed where
  why : Reject
  word : Word
  deriving DecidableEq, Repr

/-- A unit of R42 from its first word and, where that is a prefix, the word after it, in the order of R48. -/
def decodeUnit (first : Code) (second : Option Code) : Except Failed Fetched :=
  match decode1 first with
  | .error r => .error (Failed.mk r first.aux)
  | .ok (.pfx p) =>
    match second with
    | none => .error (Failed.mk .tooShort first.aux)
    | some c =>
      if prefixFits p c then
        match decode1 c with
        | .error r => .error (Failed.mk r c.aux)
        | .ok i => .ok (Fetched.mk (some (p, first.aux)) i c.aux (4 + c.size))
      else .error (Failed.mk .prefixForm first.aux)
  | .ok i => .ok (Fetched.mk none i first.aux first.size)

/-- The first instruction word of a byte list, little-endian (R3, R25), with the bytes after it. -/
def takeCode (bs : List Byte) : Option (Code × List Byte) :=
  match bs with
  | b0 :: b1 :: rest =>
    if b0.getLsbD 0 then
      match rest with
      | b2 :: b3 :: rest' => some (.word (b3 ++ b2 ++ b1 ++ b0), rest')
      | _ => none
    else some (.half (b1 ++ b0), rest)
  | _ => none

/-- The decoder, total on any bytes: one unit of R42 and the bytes that follow it. -/
def decode (bs : List Byte) : Except Failed (Fetched × List Byte) :=
  match takeCode bs with
  | none => .error (Failed.mk .tooShort 0)
  | some (c, rest) =>
    match takeCode rest with
    | none =>
      match decodeUnit c none with
      | .ok f => .ok (f, rest)
      | .error e => .error e
    | some (c', rest') =>
      match decodeUnit c (some c') with
      | .ok f => .ok (f, if f.pfx.isSome then rest' else rest)
      | .error e => .error e

/-- A C16 halfword (R30). -/
def c16 (s : BitVec 5) (d : BitVec 6) (op : BitVec 4) : Option Code :=
  some (.half (s ++ d ++ op ++ (0#1)))

/-- An A3 word (R34). -/
def a3 (fn : BitVec 7) (b a d major : BitVec 6) : Option Code :=
  some (.word (fn ++ b ++ a ++ d ++ major ++ (1#1)))

/-- A KLN word without reuse hints (R313). -/
def kln (fn : BitVec 7) (b a d : BitVec 6) : Option Code := a3 fn b a d 0x20

/-- A tile or parameter field of KLN (R34). -/
def tf (t : BitVec 3) : BitVec 6 := (0#3) ++ t

/-- A SYS word (R429): a at [12:7], b at [18:13]. -/
def sy (fn : BitVec 13) (b a : BitVec 6) : Option Code :=
  some (.word (fn ++ b ++ a ++ (0x29#6) ++ (1#1)))

/-- An I13 word (R35). -/
def i13 (imm : BitVec 13) (a d major : BitVec 6) : Option Code :=
  some (.word (imm ++ a ++ d ++ major ++ (1#1)))

/-- An I19 or BR word (R35, R39). -/
def i19 (imm : BitVec 19) (d major : BitVec 6) : Option Code :=
  some (.word (imm ++ d ++ major ++ (1#1)))

/-- An IX word (R36). -/
def ix (kind : BitVec 3) (idx : BitVec 9) (v : BitVec 6) : Option Code :=
  some (.word ((0#7) ++ kind ++ idx ++ v ++ (0x10#6) ++ (1#1)))

/-- The words of an instruction, from the layouts of R30 to R41; the steps of other agents have none. -/
def encode (i : Instr) : Option Code :=
  match i with
  | .packageReset => none
  | .bringupPhaseDone => none
  | .drvacceptWrite => none
  | .memsplitWrite => none
  | .registerWrite => none
  | .doorbell => none
  | .launchRead => none
  | .launchStart => none
  | .blockPlace => none
  | .runQueuePlace => none
  | .launchComplete => none
  | .compactorMove => none
  | .moveDone => none
  | .waveEnd => none
  | .waveSaved => none
  | .generationAdvance => none
  | .linkDegraded => none
  | .remoteTimeout => none
  | .holdNoticeSend => none
  | .holdNotice => none
  | .remoteRequest => none
  | .remoteReply => none
  | .multicastMemberWrite => none
  | .multicastAck => none
  | .mfreeExchange => none
  | .laneCopyComplete => none
  | .slipJobStart => none
  | .slipTileStart => none
  | .slipIteration => none
  | .slipJobComplete => none
  | .slipSignal => none
  | .wheelSlab => none
  | .taskDispatch => none
  | .taskTileDrain => none
  | .taskComplete => none
  | .messageArrival => none
  | .rendezvousLand => none
  | .postTimeout => none
  | .frameStall => none
  | .thruminoMessage => none
  | .srdReceive => none
  | .ptpMessage => none
  | .arpRequest => none
  | .kmsgDeliver => none
  | .belvedereBind => none
  | .belvedereLookup => none
  | .timerExpiry => none
  | .kwaitTimeout => none
  | .conePass => none
  | .reconvTimeout => none
  | .lkrateWrite => none
  | .linkTrainingDone => none
  | .laneFault => none
  | .replayWindow => none
  | .dieFlitReceive => none
  | .uncrst => none
  | .poiscrub => none
  | .flitGroupReceive => none
  | .portLost => none
  | .portTrained => none
  | .planeRemap => none
  | .planemapWrite => none
  | .fabrekey => none
  | .rekeyGroupCount => none
  | .loadConfirm => none
  | .receiverAck => none
  | .getVersion => none
  | .getCapabilities => none
  | .negotiateAlgorithms => none
  | .getDigests => none
  | .getCertificate => none
  | .keyExchange => none
  | .finish => none
  | .keyUpdate => none
  | .heartbeat => none
  | .endSession => none
  | .getMeasurements => none
  | .challenge => none
  | .grantPoolAdd => none
  | .hostMemAccess => none
  | .cxlTimeout => none
  | .cxlLinkDown => none
  | .cxlLinkUp => none
  | .droopStretch => none
  | .powerStretch => none
  | .nop16 => some (.half 0)
  | .movC16 d s => c16 s d.code 0
  | .iaddC16 d s => c16 s d.code 1
  | .isubC16 d s => c16 s d.code 2
  | .imulC16 d s => c16 s d.code 3
  | .andC16 d s => c16 s d.code 4
  | .orC16 d s => c16 s d.code 5
  | .xorC16 d s => c16 s d.code 6
  | .shlC16 d s => c16 s d.code 7
  | .shrlC16 d s => c16 s d.code 8
  | .shraC16 d s => c16 s d.code 9
  | .faddC16 d s => c16 s d.code 10
  | .fmulC16 d s => c16 s d.code 11
  | .fmaxC16 d s => c16 s d.code 12
  | .fminC16 d s => c16 s d.code 13
  | .isetltC16 d s => c16 s d.code 14
  | .not d s => c16 s d.code 15
  | .pfx p => some (.word ((0#7) ++ bit p.ftz ++ bit p.sat ++ p.rnd.code ++ bit p.zmask ++ p.mask.code ++ p.fourth.code ++ (0x3F#6) ++ (1#1)))
  | .iadd d a b => a3 0 b.code a.code d.code 0x1
  | .isub d a b => a3 1 b.code a.code d.code 0x1
  | .imul d a b => a3 2 b.code a.code d.code 0x1
  | .imulhi d a b => a3 3 b.code a.code d.code 0x1
  | .imulhu d a b => a3 4 b.code a.code d.code 0x1
  | .imad d a b => a3 5 b.code a.code d.code 0x1
  | .imin d a b => a3 6 b.code a.code d.code 0x1
  | .imax d a b => a3 7 b.code a.code d.code 0x1
  | .umin d a b => a3 8 b.code a.code d.code 0x1
  | .umax d a b => a3 9 b.code a.code d.code 0x1
  | .and d a b => a3 10 b.code a.code d.code 0x1
  | .or d a b => a3 11 b.code a.code d.code 0x1
  | .xor d a b => a3 12 b.code a.code d.code 0x1
  | .andn d a b => a3 13 b.code a.code d.code 0x1
  | .shl d a b => a3 14 b.code a.code d.code 0x1
  | .shrl d a b => a3 15 b.code a.code d.code 0x1
  | .shra d a b => a3 16 b.code a.code d.code 0x1
  | .rotl d a b => a3 17 b.code a.code d.code 0x1
  | .popc d a => a3 18 0 a.code d.code 0x1
  | .clz d a => a3 19 0 a.code d.code 0x1
  | .brev d a => a3 20 0 a.code d.code 0x1
  | .bfe d a b => a3 21 b.code a.code d.code 0x1
  | .bfi d a b => a3 22 b.code a.code d.code 0x1
  | .sel d a b => a3 23 b.code a.code d.code 0x1
  | .iseteq d a b => a3 24 b.code a.code d.code 0x1
  | .isetne d a b => a3 25 b.code a.code d.code 0x1
  | .isetlt d a b => a3 26 b.code a.code d.code 0x1
  | .isetle d a b => a3 27 b.code a.code d.code 0x1
  | .isetltu d a b => a3 28 b.code a.code d.code 0x1
  | .isetleu d a b => a3 29 b.code a.code d.code 0x1
  | .iabs d a => a3 30 0 a.code d.code 0x1
  | .iaddi d a imm => i13 imm a.code d.code 0x06
  | .andi d a imm => i13 imm a.code d.code 0x07
  | .ori d a imm => i13 imm a.code d.code 0x08
  | .xori d a imm => i13 imm a.code d.code 0x09
  | .shiShl d a n => i13 ((0#6) ++ (0#2) ++ n) a.code d.code 0x0A
  | .shiShrl d a n => i13 ((0#6) ++ (1#2) ++ n) a.code d.code 0x0A
  | .shiShra d a n => i13 ((0#6) ++ (2#2) ++ n) a.code d.code 0x0A
  | .shiRotl d a n => i13 ((0#6) ++ (3#2) ++ n) a.code d.code 0x0A
  | .isetiEq d a imm => i13 ((0#3) ++ imm) a.code d.code 0x0B
  | .isetiNe d a imm => i13 ((1#3) ++ imm) a.code d.code 0x0B
  | .isetiLt d a imm => i13 ((2#3) ++ imm) a.code d.code 0x0B
  | .isetiLe d a imm => i13 ((3#3) ++ imm) a.code d.code 0x0B
  | .isetiLtu d a imm => i13 ((4#3) ++ imm) a.code d.code 0x0B
  | .isetiLeu d a imm => i13 ((5#3) ++ imm) a.code d.code 0x0B
  | .movi d imm => i19 imm d.code 0x0C
  | .movhi d imm => i19 imm d.code 0x0D
  | .ldl d imm => i19 imm d.code 0x0E
  | .region imm => i19 imm 0 0x0F
  | .movm v idx => ix 0 idx v.code
  | .movmw v idx => ix 1 idx v.code
  | .movg v idx => ix 2 idx v.code
  | .movgw v idx => ix 3 idx v.code
  | .movc v idx => ix 4 idx v.code
  | .movtc v idx => ix 5 idx v.code
  | .ld v a size sem scope space hint => some (.word (hint.code ++ space.code ++ scope.code ++ sem.code ++ size.code ++ a.code ++ v.code ++ (0x11#6) ++ (1#1)))
  | .st v a size sem scope space hint => some (.word (hint.code ++ space.code ++ scope.code ++ sem.code ++ size.code ++ a.code ++ v.code ++ (0x12#6) ++ (1#1)))
  | .ldo v a size off => some (.word (off ++ size.code ++ a.code ++ v.code ++ (0x13#6) ++ (1#1)))
  | .sto v a size off => some (.word (off ++ size.code ++ a.code ++ v.code ++ (0x14#6) ++ (1#1)))
  | .lds v a size off => some (.word (off ++ size.code ++ a.code ++ v.code ++ (0x15#6) ++ (1#1)))
  | .sts v a size off => some (.word (off ++ size.code ++ a.code ++ v.code ++ (0x16#6) ++ (1#1)))
  | .atom d a b op scope => some (.word (op.code ++ scope.code ++ b.code ++ a.code ++ d.code ++ (0x17#6) ++ (1#1)))
  | .atoma d a b op scope => some (.word (op.code ++ scope.code ++ b.code ++ a.code ++ d.code ++ (0x18#6) ++ (1#1)))
  | .atoml d a b op scope => some (.word (op.code ++ scope.code ++ b.code ++ a.code ++ d.code ++ (0x19#6) ++ (1#1)))
  | .atomal d a b op scope => some (.word (op.code ++ scope.code ++ b.code ++ a.code ++ d.code ++ (0x1A#6) ++ (1#1)))
  | .fence scope kind dom => some (.word ((0#5) ++ dom.code ++ kind.code ++ scope.code ++ (0#6) ++ (0#6) ++ (0x1B#6) ++ (1#1)))
  | .stmc d a b => a3 0 b.code a.code d.code 0x1c
  | .malloc d a => a3 1 0 a.code d.code 0x1c
  | .mfree a => a3 2 0 a.code 0 0x1c
  | .cflush a b => a3 3 b.code a.code 0 0x1c
  | .cinv a b => a3 4 b.code a.code 0 0x1c
  | .pref a b => a3 5 b.code a.code 0 0x1c
  | .ldt d a b => a3 6 b.code a.code d.code 0x1c
  | .stt d a b => a3 7 b.code a.code d.code 0x1c
  | .lcp s g size out slot ordered => some (.word ((0#3) ++ bit ordered ++ slot ++ bit out ++ size.code ++ g.code ++ s.code ++ (0x1D#6) ++ (1#1)))
  | .tinit d a b => a3 0 b.code a.code d.code 0x1e
  | .twait d a => a3 1 0 a.code d.code 0x1e
  | .tstat d a => a3 2 0 a.code d.code 0x1e
  | .tready d a => a3 3 0 a.code d.code 0x1e
  | .tempty d a => a3 4 0 a.code d.code 0x1e
  | .scmd d a => a3 0 0 a.code d.code 0x1f
  | .sresume d a => a3 1 0 a.code d.code 0x1f
  | .shalo d a => a3 2 0 a.code d.code 0x1f
  | .spub d a => a3 3 0 a.code d.code 0x1f
  | .spoll d a b => a3 4 b.code a.code d.code 0x1f
  | .tdef d a b => a3 5 b.code a.code d.code 0x1f
  | .tundef d a => a3 6 0 a.code d.code 0x1f
  | .scancel d a => a3 7 0 a.code d.code 0x1f
  | .tld t p => kln 0 (tf p) 0 (tf t)
  | .tst t p => kln 1 (tf p) (tf t) 0
  | .tzero t => kln 2 0 0 (tf t)
  | .tmma c a b ra rb => some (.word (bit rb ++ bit ra ++ (3#5) ++ tf b ++ tf a ++ tf c ++ (0x20#6) ++ (1#1)))
  | .tmmaq c a b ra rb => some (.word (bit rb ++ bit ra ++ (4#5) ++ tf b ++ tf a ++ tf c ++ (0x20#6) ++ (1#1)))
  | .tdrain t p => kln 5 (tf p) (tf t) 0
  | .tcvt d a p => kln 6 (tf p) (tf a) (tf d)
  | .ttrans d a => kln 7 0 (tf a) (tf d)
  | .tfill d p => kln 8 (tf p) 0 (tf d)
  | .mtask d a b => a3 0 b.code a.code d.code 0x21
  | .mtwait d a => a3 1 0 a.code d.code 0x21
  | .mtstat d a => a3 2 0 a.code d.code 0x21
  | .mtcancel d a => a3 3 0 a.code d.code 0x21
  | .kcreate d a b => a3 0 b.code a.code d.code 0x22
  | .kclose d a b => a3 1 b.code a.code d.code 0x22
  | .kspawn d a => a3 2 0 a.code d.code 0x22
  | .ksend d a b => a3 3 b.code a.code d.code 0x22
  | .krecv d a b => a3 4 b.code a.code d.code 0x22
  | .ktryrecv d a b => a3 5 b.code a.code d.code 0x22
  | .kpost d a b => a3 6 b.code a.code d.code 0x22
  | .kwadd d a b => a3 7 b.code a.code d.code 0x22
  | .kwdel d a b => a3 8 b.code a.code d.code 0x22
  | .kwait d a b => a3 9 b.code a.code d.code 0x22
  | .karm d a b => a3 10 b.code a.code d.code 0x22
  | .kdisarm d a => a3 11 0 a.code d.code 0x22
  | .klookup d a => a3 12 0 a.code d.code 0x22
  | .kname d a b => a3 13 b.code a.code d.code 0x22
  | .kidle d a => a3 14 0 a.code d.code 0x22
  | .kwork d => a3 15 0 0 d.code 0x22
  | .ktime d => a3 16 0 0 d.code 0x22
  | .binit d a b => a3 0 b.code a.code d.code 0x23
  | .barrive d a => a3 1 0 a.code d.code 0x23
  | .bwait d a b => a3 2 b.code a.code d.code 0x23
  | .bsync d a => a3 3 0 a.code d.code 0x23
  | .binval d a => a3 4 0 a.code d.code 0x23
  | .bz c off => i19 off c.code 0x24
  | .bnz c off => i19 off c.code 0x25
  | .bra off => some (.word (off ++ (0x26#6) ++ (1#1)))
  | .call off => some (.word (off ++ (0x27#6) ++ (1#1)))
  | .callr a => a3 0 0 a.code 0 0x28
  | .jmpr a => a3 1 0 a.code 0 0x28
  | .ret => a3 2 0 0 0 0x28
  | .reconv => a3 3 0 0 0 0x28
  | .yield => a3 4 0 0 0 0x28
  | .exitLane => a3 5 0 0 0 0x28
  | .nop => a3 6 0 0 0 0x28
  | .trapInstr a => a3 7 0 a.code 0 0x28
  | .breakTrap => a3 8 0 0 0 0x28
  | .svc a => a3 9 0 a.code 0 0x28
  | .eret a b => sy 0 b.code a.code
  | .tlbinv a => sy 1 0 a.code
  | .tlbgen => sy 2 0 0
  | .preempt a b => sy 3 b.code a.code
  | .resumew a b => sy 4 b.code a.code
  | .corerst a b => sy 5 b.code a.code
  | .engrst a b => sy 6 b.code a.code
  | .fadd d a b => a3 0 b.code a.code d.code 0x2
  | .fsub d a b => a3 1 b.code a.code d.code 0x2
  | .fmul d a b => a3 2 b.code a.code d.code 0x2
  | .ffma d a b => a3 3 b.code a.code d.code 0x2
  | .fmin d a b => a3 4 b.code a.code d.code 0x2
  | .fmax d a b => a3 5 b.code a.code d.code 0x2
  | .fabs d a => a3 6 0 a.code d.code 0x2
  | .fneg d a => a3 7 0 a.code d.code 0x2
  | .fseteq d a b => a3 8 b.code a.code d.code 0x2
  | .fsetne d a b => a3 9 b.code a.code d.code 0x2
  | .fsetlt d a b => a3 10 b.code a.code d.code 0x2
  | .fsetle d a b => a3 11 b.code a.code d.code 0x2
  | .fsetun d a b => a3 12 b.code a.code d.code 0x2
  | .fclass d a => a3 13 0 a.code d.code 0x2
  | .frnd d a => a3 14 0 a.code d.code 0x2
  | .fcvti d a => a3 15 0 a.code d.code 0x2
  | .fcvtui d a => a3 16 0 a.code d.code 0x2
  | .icvtf d a => a3 17 0 a.code d.code 0x2
  | .ucvtf d a => a3 18 0 a.code d.code 0x2
  | .fpkbf d a b => a3 19 b.code a.code d.code 0x2
  | .fpkh d a b => a3 20 b.code a.code d.code 0x2
  | .fupbfl d a => a3 21 0 a.code d.code 0x2
  | .fupbfh d a => a3 22 0 a.code d.code 0x2
  | .fuphl d a => a3 23 0 a.code d.code 0x2
  | .fuphh d a => a3 24 0 a.code d.code 0x2
  | .hadd2Bf d a b => a3 0 b.code a.code d.code 0x3
  | .hmul2Bf d a b => a3 1 b.code a.code d.code 0x3
  | .hfma2Bf d a b => a3 2 b.code a.code d.code 0x3
  | .hmax2Bf d a b => a3 3 b.code a.code d.code 0x3
  | .hmin2Bf d a b => a3 4 b.code a.code d.code 0x3
  | .hadd2H d a b => a3 5 b.code a.code d.code 0x3
  | .hmul2H d a b => a3 6 b.code a.code d.code 0x3
  | .hfma2H d a b => a3 7 b.code a.code d.code 0x3
  | .hmax2H d a b => a3 8 b.code a.code d.code 0x3
  | .hmin2H d a b => a3 9 b.code a.code d.code 0x3
  | .hdot2Bf d a b => a3 10 b.code a.code d.code 0x3
  | .hdot2H d a b => a3 11 b.code a.code d.code 0x3
  | .frcp d a => a3 0 0 a.code d.code 0x4
  | .frsq d a => a3 1 0 a.code d.code 0x4
  | .fsqrt d a => a3 2 0 a.code d.code 0x4
  | .fex2 d a => a3 3 0 a.code d.code 0x4
  | .flg2 d a => a3 4 0 a.code d.code 0x4
  | .fsin d a => a3 5 0 a.code d.code 0x4
  | .fcos d a => a3 6 0 a.code d.code 0x4
  | .ftanh d a => a3 7 0 a.code d.code 0x4
  | .fdiv d a b => a3 8 b.code a.code d.code 0x4
  | .shfli d a b => a3 0 b.code a.code d.code 0x5
  | .shflu d a b => a3 1 b.code a.code d.code 0x5
  | .shfld d a b => a3 2 b.code a.code d.code 0x5
  | .shflx d a b => a3 3 b.code a.code d.code 0x5
  | .voteall d a => a3 4 0 a.code d.code 0x5
  | .voteany d a => a3 5 0 a.code d.code 0x5
  | .ballot d a => a3 6 0 a.code d.code 0x5
  | .redadd d a => a3 7 0 a.code d.code 0x5
  | .redmin d a => a3 8 0 a.code d.code 0x5
  | .redmax d a => a3 9 0 a.code d.code 0x5
  | .redand d a => a3 10 0 a.code d.code 0x5
  | .redor d a => a3 11 0 a.code d.code 0x5
  | .redxor d a => a3 12 0 a.code d.code 0x5
  | .fredadd d a => a3 13 0 a.code d.code 0x5
  | .fredmin d a => a3 14 0 a.code d.code 0x5
  | .fredmax d a => a3 15 0 a.code d.code 0x5
  | .scanadd d a => a3 16 0 a.code d.code 0x5
  | .matchLanes d a => a3 17 0 a.code d.code 0x5
  | .elect d => a3 18 0 0 d.code 0x5
  | .active d => a3 19 0 0 d.code 0x5
  | .ptpLockLoss => none
  | .kmsgReply => none
  | .nameTimeout => none
  | .kmsgRetransmission => none
  | .podBarrierMessage => none
  | .cxlCacheSnoop => none

/-- The bytes of a word in the order memory holds them (R3, R25). -/
def Code.bytes (c : Code) : List Byte :=
  match c with
  | .half h => [h.extractLsb' 0 8, h.extractLsb' 8 8]
  | .word w => [w.extractLsb' 0 8, w.extractLsb' 8 8, w.extractLsb' 16 8, w.extractLsb' 24 8]

/-- The instruction of a table row's word: 16 bits or 32, laid out as bytes and read back by the decoder. -/
def decodeTableWord (nbits w : Nat) : Option Instr :=
  let bytes :=
    if nbits ≤ 16 then (Code.half (BitVec.ofNat 16 w)).bytes ++ [0, 0] else (Code.word (BitVec.ofNat 32 w)).bytes
  if nbits = 0 then none
  else
    match takeCode bytes with
    | none => none
    | some (c, _) =>
      match decode1 c with
      | .ok i => some i
      | .error _ => none

end Sys2Proof
end

