-- ==== Sys2Proof/Config.lean ====
section
/-! DEFINITION. What the manual leaves open: free values without a body, so that no proof can see
what they are. Each is applied to a counter of State and a tag that says what is drawn
(DESIGN CHOICE, log entries 1, 8, 11, 91). -/

namespace Sys2Proof

/-- Which of two allowed outcomes the hardware takes: a stale copy or the present bytes (R109, R359,
R366), one entry of an uneven page group or another (R105). Log entry 1. -/
opaque Config.choice : Nat → Nat → Bool

/-- A byte the manual calls unspecified: private memory before its first write (R118). Log entry 8. -/
opaque Config.freeByte : Nat → Nat → Byte

/-- The nanoseconds that pass before device time is next read (R402). Log entry 1. -/
opaque Config.elapsed : Nat → Nat

/-- Which entry of a page group whose entries differ is used (R105). Log entry 1. -/
opaque Config.groupEntry : Nat → Nat → Nat

/-- Where the part places what it takes from HBM for itself and the manual gives no address:
nothing a program can address (R117, R381). Log entry 1. -/
opaque Config.freeNat : Nat → Nat → Nat

/-- The digest SHA3-512 of bytes (R448, R449), the bytes of which the manual does not fix. Log entry 11. -/
opaque Config.sha3 : List Byte → List Byte

/-- A signature ML-DSA-87 by the identity key over bytes (R449). Log entry 11. -/
opaque Config.sign : List Byte → List Byte

/-- The part's answer to an ML-KEM-1024 share (R196). Log entry 11. -/
opaque Config.kem : List Byte → List Byte

/-- Whether a signature ML-DSA-87 over a digest holds under a key (R448): key, digest, signature. Log entry 11. -/
opaque Config.verify : List Byte → List Byte → List Byte → Bool

/-- What the part's ROM and SPDM responder hold: ROM 0, certificate chain 3, versions, capabilities and algorithms 4 to 6
(R448, R449). Log entry 11. -/
opaque Config.image : Nat → List Byte

/-- The credits of a virtual channel at a hop of the die protocol (R163), by link and channel. Log entry 91. -/
opaque Config.credits : Nat → Nat → Nat

end Sys2Proof
end

