-- ==== Sys2Proof/Machine/Sparse.lean ====
section
/-! DEFINITION. Sparse data by key, as plain lists in rising key order: files of registers, lanes, waves,
objects, and the bytes of memories. -/

namespace Sys2Proof.Machine

/-- Values by natural key, keys rising. -/
abbrev Sparse (β : Type) := List (Nat × β)

/-- The value listed at a key. -/
def sget {β : Type} (m : Sparse β) (k : Nat) : Option β :=
  match m with
  | [] => none
  | (j, v) :: r => if k = j then some v else sget r k

/-- The value at a key, or what an unlisted key holds. -/
def sgetD {β : Type} (m : Sparse β) (k : Nat) (d : β) : β := (sget m k).getD d

/-- The list with a key set, its order kept. -/
def sput {β : Type} (m : Sparse β) (k : Nat) (v : β) : Sparse β :=
  match m with
  | [] => [(k, v)]
  | (j, w) :: r => if k < j then (k, v) :: (j, w) :: r else if k = j then (k, v) :: r else (j, w) :: sput r k v

/-- The list without a key. -/
def sdel {β : Type} (m : Sparse β) (k : Nat) : Sparse β := m.filter (fun e => e.1 != k)

/-- The value at a key changed, where it is listed. -/
def smod {β : Type} (m : Sparse β) (k : Nat) (f : β → β) : Sparse β :=
  match sget m k with
  | some v => sput m k (f v)
  | none => m

/-- The keys. -/
def skeys {β : Type} (m : Sparse β) : List Nat := m.map Prod.fst

/-- Keys strictly rising. -/
def rising (ks : List Nat) : Bool :=
  match ks with
  | [] => true
  | [_] => true
  | a :: b :: r => decide (a < b) && rising (b :: r)

/-- The canonical form: keys strictly rising. -/
def Sparse.wf {β : Type} (m : Sparse β) : Bool := rising (skeys m)

/-- The first number from lo, of n, that a list does not hold. -/
def firstFree (used : List Nat) (lo n : Nat) : Option Nat :=
  match n with
  | 0 => none
  | n + 1 => if used.contains lo then firstFree used (lo + 1) n else some lo

/-- A byte map in which an unlisted byte reads 0: the value 0 is not listed. -/
def zput (m : Sparse Byte) (k : Nat) (v : Byte) : Sparse Byte := if v = 0 then sdel m k else sput m k v

/-- The byte of such a map. -/
def zget (m : Sparse Byte) (k : Nat) : Byte := sgetD m k 0

/-- n bytes of such a map from an address. DESIGN CHOICE, log entry 2. -/
def zread (m : Sparse Byte) (a n : Nat) : List Byte := (List.range n).map (fun i => zget m (a + i))

/-- Bytes stored into such a map from an address. -/
def zwrite (m : Sparse Byte) (a : Nat) (bs : List Byte) : Sparse Byte :=
  match bs with
  | [] => m
  | b :: r => zwrite (zput m a b) (a + 1) r

/-- The canonical form of such a map: rising, no byte 0 listed. -/
def zwf (m : Sparse Byte) : Bool := m.wf && m.all (fun e => e.2 != 0)

/-- The canonical form of a memory: addresses strictly rising, and no entry equal to what an unlisted address reads as. -/
abbrev Memory.wf (m : List Host.Cell) : Bool := zwf m

/-- A little-endian number (R3). -/
def leNat (bs : List Byte) : Nat :=
  match bs with
  | [] => 0
  | b :: r => b.toNat + 256 * leNat r

/-- n bytes of a number, little-endian (R3). -/
def natLe (n v : Nat) : List Byte :=
  match n with
  | 0 => []
  | n + 1 => BitVec.ofNat 8 v :: natLe n (v / 256)

/-- A little-endian word of a byte list at an offset. -/
def wordAt (bs : List Byte) (o : Nat) : Word := BitVec.ofNat 32 (leNat ((bs.drop o).take 4))

/-- A little-endian 64-bit number of a byte list at an offset. -/
def quadAt (bs : List Byte) (o : Nat) : Nat := leNat ((bs.drop o).take 8)

/-- Bits [hi:lo] of a number. -/
def bitsOf (v hi lo : Nat) : Nat := v / 2 ^ lo % 2 ^ (hi + 1 - lo)

/-- One bit of a number. -/
def bitOf (v n : Nat) : Bool := v / 2 ^ n % 2 == 1

/-- Bits [hi:lo] of a word as a number. -/
def wbits (w : Word) (hi lo : Nat) : Nat := bitsOf w.toNat hi lo

/-- The low n bits of a word as a signed number. -/
def signed (n v : Nat) : Int := if v % 2 ^ n < 2 ^ (n - 1) then ((v % 2 ^ n : Nat) : Int) else ((v % 2 ^ n : Nat) : Int) - ((2 ^ n : Nat) : Int)

end Sys2Proof.Machine
end

