-- ==== Sys2Proof/Machine/Lane.lean ====
section
/-! DEFINITION. The state of lanes, waves and blocks (R245 to R258, R286 to R308, R368, R415, R419 to R421). -/

namespace Sys2Proof.Machine

/-- One bank of a lane (R419): its operand buffer, e-file and region state. A b register that is not listed
holds its marker (R82). -/
structure Bank where
  b : Sparse Word
  e0 : Word
  e1 : Word
  restartPc : VA
  curDesc : Option VA
  /-- Instructions of the tail issued so far, the one in flight included; 0 in a body (R253, R420). -/
  tail : Nat
  /-- The instruction at the PC is counted already: it waits, or a handler retries it (R425). -/
  counted : Bool
  /-- The next instruction is the REGION of a restart (R252). -/
  restart : Bool
  /-- A REGION is expected at the PC: 2 after a call, 3 after a return, 0 otherwise (R254). -/
  expect : Nat
  deriving DecidableEq, Repr

/-- What a lane waits for (R287, R127, R188, R254). -/
inductive WaitKind where
  /-- A cross-lane or KLN instance at its PC (R287, R314). -/
  | inst
  /-- The end of a barrier phase (R308): level, instance, index, phase. -/
  | barrier (level inst index : Nat) (phase : Word)
  /-- Lower lanes at its instruction, which store to the same bytes or reserve first (R137, R161). -/
  | turn
  /-- The release of a slot (R227). -/
  | slotRelease (core slot : Nat)
  /-- A slot that an instruction consumes: READY (R127). -/
  | slotReady (core slot : Nat)
  /-- A slot that an outbound copy reads: READY or DRAINING (R127). -/
  | slotDrain (core slot : Nat)
  /-- The reply to a pod-remote access (R188). -/
  | remote (req : Nat)
  /-- A line of another package for its fetch (R103). -/
  | fetch (req : Nat)
  /-- The acknowledgements of the lane's earlier remote stores: those of one logical plane, or all (R187). -/
  | acks (plane : Option Nat)
  /-- Room among its core's outstanding memory requests (R14). -/
  | requests
  /-- A die link on the way from one die to another (R164, R171): Pavilion is 6. -/
  | dieLink (src dst : Nat)
  /-- The lane's copies in flight (R154, R155). -/
  | copies
  /-- Accesses translated under an older generation of a context than this one, or under an older one of any context (R108). -/
  | advance (asid : Option Nat) (gen : Nat)
  /-- The acknowledgements of a multicast (R157). -/
  | multicast (req : Nat)
  /-- A host-homed access that CXL does not answer (R426). -/
  | cxl
  /-- A message on a port (R395). -/
  | port (obj : Nat)
  /-- Room at a port: in its queue, or in the unexpected queue (R394, R210). -/
  | room (obj : Nat)
  /-- A rendezvous that no post has matched yet (R210). -/
  | rendezvous (req : Nat)
  /-- A message sent to another package, its answer outstanding, or a payload that lands (R394, R210). -/
  | send (req : Nat)
  /-- A signalled slot of a wait set, until a device time (R401). -/
  | waitSet (obj : Nat) (deadline : Option Nat)
  /-- A signal or the end of a pipeline group (R378). -/
  | idle (obj group : Nat)
  /-- An answer of a name's home (R405, R406). -/
  | name (req : Nat)
  /-- A tile task's record leaving ARMED, READY and RUNNING (R347). -/
  | task (va : Nat)
  /-- The lanes split from it (R300). -/
  | reconv (lanes : List Nat)
  /-- A block reaching SAVED (R431). -/
  | saved (block : Nat)
  /-- The other waves of a TMMAQ (R330). -/
  | quad
  deriving DecidableEq, Repr

/-- A lane's wait: what for, its place in the order of waiters, and what released it. -/
structure Wait where
  kind : WaitKind
  ticket : Nat
  /-- The status or kind of answer that ended the wait. -/
  status : Option Nat
  /-- A word that came with it. -/
  value : Word
  /-- The bytes that came with it. -/
  bytes : List Byte
  /-- What came with each write or atomic that its instruction has had performed on another package, in order. -/
  acks : List Word := []
  deriving DecidableEq, Repr

/-- The failure of a store that a lane has gone on from (R187): where it stands, in a handler or not, and what it traps with before
the lane's next instruction there. -/
structure Late where
  pc : VA
  inTrap : Bool
  cause : Nat
  va : Nat
  aux : Word
  deriving DecidableEq, Repr

/-- A wait that a trap or a pre-emption has interrupted although what it waits for goes on (R254, R386): the instruction that is executed
again at its PC takes it up. -/
structure Parked where
  pc : VA
  inTrap : Bool
  wait : Wait
  deriving DecidableEq, Repr

/-- A unit issued for a lane: what was fetched, and the g registers and wave-scope control registers that it found (R247, R257). -/
structure Issued where
  unit : Fetched
  g : Sparse Word
  ctl : Sparse Word
  deriving DecidableEq, Repr

/-- A lane (R245, R255, R295, R420, R421). -/
structure Lane where
  pc : VA
  user : Bank
  trap : Bank
  /-- Main file; an index not listed holds its marker. -/
  m : Sparse Word
  fpmode : Word
  fpflags : Word
  homehint : Word
  stklim : Word
  /-- On-chip return-stack entries, newest first, at most four (R295). -/
  stack : List VA
  depth : Nat
  cause : Word
  trapPc : Word
  vaLo : Word
  vaHi : Word
  aux : Word
  trapRegion : Word
  privState : Word
  /-- Private memory written so far, by offset: the bytes of the wave's area that R117 gives the lane (R118). -/
  priv : Sparse Byte
  wait : Option Wait
  /-- The PC of a BSYNC at which the lane has arrived, and the phase it joined (R308). -/
  joined : Option (VA × Word)
  /-- When its group was last selected (R416). -/
  stamp : Nat
  /-- The lanes it was split from under R188, for RECONV (R300). -/
  split : List Nat
  /-- Of those, the ones that have reached a RECONV, with its PC. -/
  met : List (VA × Nat) := []
  late : Option Late := none
  parked : List Parked := []
  /-- What it waited for before it had to wait for a fetch. -/
  held : Option Wait := none
  /-- The unit last issued for it, while it waits: the one it waits in. -/
  issued : Option Issued := none
  deriving DecidableEq, Repr

/-- The wave states of R415. -/
inductive WaveState where | queued | resident | moving | saving | saved | ended | lost
  deriving DecidableEq, Repr

/-- A lane's arrival at an instance, with what it captured there (R257, R291). -/
structure Arrival where
  lane : Nat
  a : Word
  n : Word
  /-- It is a contributor: not masked off (R287). -/
  contributes : Bool
  ftz : Bool
  deriving DecidableEq, Repr

/-- An open instance (R287, R314). -/
structure XInst where
  pc : VA
  /-- It is a KLN instance (R314). -/
  kln : Bool
  set : List Nat
  arrived : List Arrival
  deriving DecidableEq, Repr

/-- A barrier (R305). -/
structure Barrier where
  on : Bool
  /-- EXPECTED is the number of non-exited lanes (R306). -/
  dynamic : Bool
  expected : Nat
  arrived : Nat
  phase : Word
  /-- The last phase that BINIT or BINVAL has ended; none has at the start. DESIGN CHOICE, log entry 95. -/
  resetPh : Option Word
  owner : Nat
  /-- Lanes of other packages that wait on the present phase of a pod barrier held here (R307). -/
  away : Nat
  deriving DecidableEq, Repr

/-- An issued instruction with a g destination, by its PC (R247, R248): the lanes whose part of it is outstanding, the lowest lane whose
part has been done, the registers it writes, and whether a group issued after it has written one of them. -/
structure GWait where
  pc : VA
  lanes : List Nat
  best : Option Nat
  regs : List Nat
  beaten : Bool
  deriving DecidableEq, Repr

/-- A wave (R27, R245, R255, R310, R413, R415). -/
structure Wave where
  block : Nat
  wv : Nat
  asid : Nat
  die : Nat
  core : Nat
  part : Nat
  st : WaveState
  /-- The lanes that have not exited. -/
  lanes : Sparse Lane
  g : Sparse Word
  /-- Wave-scope control registers c8 to c21, by index; unlisted ones read 0. -/
  ctl : Sparse Word
  launchId : Word
  prio : Nat
  depth : Nat
  /-- The pipeline group it belongs to (R375). -/
  group : Option Nat
  /-- Main-file registers a lane, private bytes a lane, tiles (R368). -/
  regs : Nat
  privBytes : Nat
  tileCount : Nat
  /-- Tile contents by tile number and byte, unlisted bytes 0 (R310). -/
  tiles : Sparse (Sparse Byte)
  tileLost : Bool
  insts : List XInst
  barrier : Barrier
  /-- First unit of its main-file range, and the physical tiles it holds (R413). -/
  mainBase : Nat
  tileSlots : List Nat
  /-- It was saved while each of its lanes waited in KIDLE (R375). -/
  idle : Bool
  /-- It has been placed once: a resumed wave keeps g4 and g5 (R371, R415). -/
  started : Bool
  /-- When it was placed on its core (R416). -/
  placed : Nat
  /-- The index of its WAVE object (R371). -/
  obj : Nat
  /-- Local address of its private area (R117), and the 16-byte sectors of it, by number, that L1 holds dirty (R115). -/
  area : Nat := 0
  privDirty : List Nat := []
  /-- Instructions with a g destination some lanes' parts of which are outstanding, the last issued first (R247, R248). -/
  gWait : List GWait := []
  /-- The core of the member of its group that has spawned it (R376). -/
  spawner : Option Nat := none
  deriving DecidableEq, Repr

/-- A block of waves (R368, R374, R427). A spawned wave is a block of one. -/
structure Block where
  asid : Nat
  die : Nat
  /-- The logical core of wave 0, which holds the scratch range (R120). -/
  core : Nat
  /-- First 4 KiB unit of the range and its size in bytes. -/
  scratchBase : Nat
  scratchBytes : Nat
  waves : List Nat
  /-- It holds its scratchpad range: its waves are on cores (R413). -/
  placed : Bool
  /-- The scratchpad bytes of a saved block (R427). -/
  image : Sparse Byte
  /-- The dies its waves may go to (R369, R391). -/
  dies : Nat
  prio : Nat
  /-- The launch it belongs to, and its index in it. -/
  launch : Option Nat
  index : Nat
  /-- KWORK: blocks b, tiles t, K steps k, and the cursor (R374). -/
  blocks : Nat
  workTiles : Nat
  workK : Nat
  cursor : Nat
  barriers : Sparse Barrier
  /-- Open TMMAQ instances by PC: waves arrived, by position (R330). -/
  quadInsts : Sparse (Sparse Nat)
  /-- The PC and the C tile of the TMMAQ that runs on the quad's Kilns (R330, R335). -/
  quadOn : Option (VA × Nat) := none
  deriving DecidableEq, Repr

/-- The marker of a register (R82): file 0 for m, 1 for g, 2 for b. DEDUCED, log entry 32. -/
def marker (file index : Nat) : Word := BitVec.ofNat 32 (0x7F804000 + 1024 * file + index)

/-- The e-file markers of R249. -/
def e0Marker : Word := 0x7F804820
/-- R249. -/
def e1Marker : Word := 0x7F804821

/-- A bank at a wave's start or a trap entry: markers, with a restart point and no descriptor (R249, R251,
R419). -/
def Bank.fresh (pc : VA) : Bank :=
  { b := [], e0 := e0Marker, e1 := e1Marker, restartPc := pc, curDesc := none, tail := 0, counted := false,
    restart := false, expect := 0 }

/-- A lane at a wave's start (R249, R255, R421). DESIGN CHOICE, log entry 3. -/
def Lane.start (pc : VA) (stklim : Word) (priv : Bool) : Lane :=
  { pc := pc, user := Bank.fresh pc, trap := Bank.fresh 0, m := [], fpmode := 0x10, fpflags := 0, homehint := 0,
    stklim := stklim, stack := [], depth := 0, cause := 0, trapPc := 0, vaLo := 0, vaHi := 0, aux := 0,
    trapRegion := 0, privState := if priv then 0x80000000 else 0, priv := [], wait := none, joined := none, stamp := 0, split := [] }

/-- A wave or block barrier at its start: ON, dynamic, phase 0 (R305). -/
def Barrier.start : Barrier :=
  { on := true, dynamic := true, expected := 0, arrived := 0, phase := 0, resetPh := none, owner := 0, away := 0 }

/-- A quad, die, package or pod barrier at package reset: OFF (R305). -/
def Barrier.off : Barrier :=
  { on := false, dynamic := false, expected := 0, arrived := 0, phase := 0, resetPh := none, owner := 0, away := 0 }

/-- PRIVSTATE.PRIV (R421). -/
def Lane.isPriv (ln : Lane) : Bool := ln.privState.getLsbD 31

/-- PRIVSTATE.INTRAP (R421). -/
def Lane.inTrap (ln : Lane) : Bool := ln.privState.getLsbD 29

/-- The bank in use (R419). -/
def Lane.bank (ln : Lane) : Bank := if ln.inTrap then ln.trap else ln.user

/-- The lane with its bank in use replaced. -/
def Lane.setBank (ln : Lane) (k : Bank) : Lane := if ln.inTrap then { ln with trap := k } else { ln with user := k }

/-- A b register of a bank. -/
def Bank.reg (k : Bank) (i : Nat) : Word := sgetD k.b i (marker 2 i)

/-- A main-file register (R245). -/
def Lane.mreg (ln : Lane) (i : Nat) : Word := sgetD ln.m i (marker 0 i)

/-- The instructions with a g destination that have been issued, once a group has written some registers (R247): what is outstanding of
those that write one of them too comes too late. -/
def overBy (W : Nat → Bool) (es : List GWait) : List GWait := es.map (fun e => { e with beaten := e.beaten || e.regs.any W })

/-- The wave as a lane's instruction found it at issue, which a lane that waits still reads (R247, R257). -/
def Wave.asSeen (w : Wave) (ln : Lane) : Wave :=
  match ln.wait, ln.issued with
  | some _, some i => { w with g := i.g, ctl := i.ctl }
  | _, _ => w

/-- A wave-shared register (R245). -/
def Wave.greg (w : Wave) (i : Nat) : Word := sgetD w.g i (marker 1 i)

end Sys2Proof.Machine
end

