-- ==== Sys2Proof/Machine/Devices.lean ====
section
/-! DEFINITION. The state of the die links (R166 to R175), the Ilpaip fabric (R183 to R202), the bring-up block
(R440) and the host link (R426, R438, R449). -/

namespace Sys2Proof.Machine

/-- A link register block (R166 to R169) and the state behind it (R174). -/
structure LinkRegs where
  busy : Bool
  status : Nat
  autofb : Bool
  cur : Nat
  target : Nat
  /-- The rate a retrain is trying, and whether it started below the rate software asked for (R174, R175). -/
  trying : Nat
  fellBack : Bool
  /-- Width code of each direction of each module, by 2·module + direction (R162, R168). -/
  widths : List Nat
  /-- Retired lanes of each module (R168). -/
  retired : List Nat
  /-- Redundant lanes in use, by module and direction (R173). -/
  spares : List Nat
  replay : Nat
  crcErr : Nat
  ber : Nat
  replayMax : Nat
  /-- Flits carried and replays counted in the window that runs (R169, R175). -/
  flits : Nat
  window : Nat
  /-- Flits received and not yet gone on, each with the agent at whose end it stands, which hold their channels' credits (R163). -/
  buffer : List (Nat × DieFlit)
  /-- It was DOWN or reset with its die and posts LINKUP when it first trains (R178). -/
  announce : Bool
  /-- It is DOWN (R174), and it retrains a module alone (R173). -/
  down : Bool := false
  repairing : Bool := false
  deriving DecidableEq, Repr

/-- A key bank's state (R197). -/
inductive KeyState where | idle | loaded | active | accept
  deriving DecidableEq, Repr

/-- One direction of a port (R195 to R197). -/
structure KeyDir where
  bank0 : KeyState
  bank1 : KeyState
  /-- The 64-bit group counter, and the flits of the group that is being filled (R195). -/
  groups : Nat
  filled : Nat
  /-- Consecutive discarded groups. -/
  discards : Nat
  rekey : Bool
  /-- A group has authenticated under the ACTIVE bank since it took over (R197). -/
  proven : Bool
  /-- The keys of the banks, 0 where there is none (R196). -/
  key0 : Nat := 0
  key1 : Nat := 0
  /-- The bank that seals the group being filled: the key-generation bit of its flits (R195, R197). -/
  gen : Bool := false
  /-- 2^32 more groups have been counted, and a bank has taken over since the rekey that is in progress began (R197). -/
  due : Bool := false
  switched : Bool := false
  deriving DecidableEq, Repr

/-- What has memory of another package accessed for it, other than a lane (R189, R232, R236, R338, R340, R211, R409): a lane copy
by its instruction and lane, a Slip channel or a Kiln by its core, the completion of a job by its core and the job's own number, a Setter's dispatch, a task's completion, a post by its port
and address, the command processor's packet by its queue and address, its completion by its queue and number. -/
inductive Client where
  | copy (issue lane : Nat)
  | slip (core : Nat)
  | slipRing (core serial : Nat)
  | kiln (core : Nat)
  | dispatch (setter : Nat)
  | task (asid va : Nat)
  | post (port post : Nat)
  | message (req : Nat)
  | packet (q pa : Nat)
  | completion (q seq : Nat)
  deriving DecidableEq, Repr

/-- The answers that an engine's step has had so far: bytes read, the words that came with writes and atomics in order, and how
its last access failed, if it did (R190). -/
structure Answers where
  bytes : List Byte
  acks : List Word
  failed : Option (Nat × Word)
  deriving DecidableEq, Repr

/-- A store of a lane that goes on before its acknowledgement (R187): where it stands, to be taken again if it fails (R139). -/
structure Posted where
  pc : VA
  inTrap : Bool
  deriving DecidableEq, Repr

/-- A remote access of a lane or an engine (R186 to R191): held at its source, or sent through a port. -/
structure OutReq where
  /-- The engine it serves; none where it serves lanes. -/
  client : Option Client
  /-- It brings a line into an instruction cache (R103). -/
  fetch : Bool := false
  wave : Nat
  /-- The lanes it serves, in increasing number, with the sum of the addends before each (R191). -/
  lanes : List (Nat × Word)
  posted : Option Posted
  va : Nat
  pa : Nat
  size : Nat
  data : List Byte
  expected : Word
  op : HomeOp
  /-- The context and its translation generation at issue (R108). -/
  asid : Nat
  tgen : Nat
  /-- Held at the source: it has not left (R190, R199, R200). -/
  held : Bool
  port : Nat
  plane : Nat
  seq : Nat
  /-- When it left, for how long its limit has been suspended, and until when the last notice suspends it, in ns (R190). -/
  sentAt : Nat
  suspended : Nat
  resumes : Nat
  deriving DecidableEq, Repr

/-- A member of a multicast that has not answered (R193): how long its limit has been suspended, and until when (R190). -/
structure CastMember where
  member : Nat
  pkg : Nat
  asid : Nat
  winVa : Nat
  winSize : Nat
  suspended : Nat
  resumes : Nat
  deriving DecidableEq, Repr

/-- A multicast that a lane waits for (R157, R193): members still to answer, and those that failed; its REQ flit, which leaves
by the port of its plane once that is free. -/
structure CastReq where
  wave : Nat
  lane : Nat
  priv : Bool
  offset : Nat
  data : Word
  waiting : List CastMember
  failed : List Nat
  held : Bool
  port : Nat
  plane : Nat
  seq : Nat
  sentAt : Nat
  deriving DecidableEq, Repr

/-- A remote request or multicast write performed here, kept with its reply (R189). -/
structure Performed where
  seq : Nat
  /-- The member of a multicast. -/
  member : Option Nat
  ok : Bool
  /-- The reply's bytes; of a member that failed, the reason (R193). -/
  data : List Byte
  deriving DecidableEq, Repr

/-- What a REQ flit asks of this package. -/
inductive Arrived where
  | request (r : FabricRequest)
  | member (w : MemberWrite)
  deriving DecidableEq, Repr

/-- What is held inside this package, and when its last hold notice left (R190). -/
structure HeldReq where
  what : Arrived
  noticed : Nat
  deriving DecidableEq, Repr

/-- The fabric registers and what stands behind them (R198). -/
structure Fabric where
  /-- Port states: 0 DOWN, 1 TRAINING, 2 UP. -/
  ports : List Nat
  planemap : Word
  /-- What software last wrote, in force only after the drain of R201. -/
  planeWant : Word
  timeout : Nat
  authErr : Nat
  /-- Key banks by 2·port + direction, 1 the sending one. -/
  keys : List KeyDir
  out : Sparse OutReq
  /-- What the engines' steps in progress have been answered. -/
  answers : List (Client × Answers)
  /-- Flits whose groups have authenticated and that have not been acted on (R195). -/
  released : List Flit
  casts : Sparse CastReq
  nextReq : Nat
  /-- Next sequence number of each port (R189). -/
  seqs : List Nat
  /-- Requests performed for other packages, by 16·package + port. -/
  windows : Sparse (List Performed)
  /-- Requests held here while a link on their path retrains (R190). -/
  heldIn : List HeldReq
  /-- Ports held DOWN until package reset by a refused announcement (R443). -/
  barred : List Nat
  /-- Ports whose announcement has been sent and that have carried no group since (R443). -/
  announcing : List Nat
  deriving DecidableEq, Repr

/-- A flow of the die protocol (R164, R165): of its destination the sequence number awaited and the flits that came early; of its
source the next number, the flits without an acknowledgement, its route, and those to be sent again before any later one. -/
structure Flow where
  awaited : Nat
  early : List DieFlit
  next : Nat := 0
  unacked : List DieFlit := []
  route : List Nat := []
  resend : List Nat := []
  deriving DecidableEq, Repr

/-- The MOESI states in which an L2 holds a line (R112); one that is not listed is invalid everywhere. -/
inductive Moesi where | m | o | e | s
  deriving DecidableEq, Repr

/-- A line in the L2s as the directory keeps it (R112): its state, the agent that holds it in M, O or E, the presence vector over
the eight agents (bits 0 to 5 the shader dies, 6 Pavilion, 7 the host), and, of a host-homed line in M or O, the bytes that its
home still has. -/
structure DirLine where
  st : Moesi
  owner : Nat
  present : Nat
  back : List Byte
  deriving DecidableEq, Repr

/-- The link control block (R179) and the event stream (R176, R178). -/
structure LinkCtl where
  evPort : Word
  evLost : Nat
  evSeq : Nat
  resetBusy : Bool
  /-- The wave that LINKTRAPW named when the earliest event raised and not yet taken was raised, with its TRAPAUX (R176). -/
  raised : List (Nat × Word)
  /-- The die whose uncore reset BUSY reports (R180). -/
  resetDie : Option Nat := none
  deriving DecidableEq, Repr

/-- A firmware image of the controller (R448). -/
structure Firmware where
  bytes : List Byte
  key : List Byte
  signature : List Byte
  /-- Its security version number. -/
  version : Nat
  deriving DecidableEq, Repr

/-- What is fused or stored for the management controller and outlives a package reset (R448): the digest of the signing key, the
least version number, the firmware images. -/
structure Controller where
  keyDigest : List Byte
  minVersion : Nat
  firmware : List Firmware
  deriving DecidableEq, Repr

/-- The bring-up block (R440). -/
structure Bringup where
  drvaccept : Nat
  done : Bool
  failed : Bool
  accepted : Bool
  /-- Results of HBM, die links, Ilpaip, Ethernet, host. -/
  phases : List Nat
  pwrLimit : Nat
  /-- The ROM has refused a firmware image (R448): no phase runs. -/
  refused : Bool
  deriving DecidableEq, Repr

/-- An SPDM exchange (R196, R449): the session's progress and the answers given, newest first. -/
structure Spdm where
  /-- 0 none, 1 versions, 2 capabilities, 3 algorithms, 4 keys exchanged, 5 established. -/
  stage : Nat
  answers : List (List Byte)
  deriving DecidableEq, Repr

/-- The host link (R426, R438): whether it is up, how the CXL home answers a line in error, what it sent. -/
structure HostLink where
  up : Bool
  /-- By host-homed line: 0 completer abort, 1 unsupported request, 2 poisoned data, 3 no answer (R426). -/
  answers : Sparse Nat
  /-- MSI-X vectors sent, newest first (R409). -/
  msix : List Nat
  spdm : Sparse Spdm
  deriving DecidableEq, Repr

/-- A link at reset (R166). -/
def LinkRegs.reset : LinkRegs :=
  { busy := false, status := 0, autofb := true, cur := 32, target := 32, trying := 32, fellBack := false,
    widths := List.replicate 16 0, retired := List.replicate 8 0, spares := List.replicate 16 0, replay := 0, crcErr := 0,
    ber := 0, replayMax := 16, flits := 0, window := 0, buffer := [], announce := false }

/-- A port direction at reset (R197). -/
def KeyDir.reset : KeyDir :=
  { bank0 := .idle, bank1 := .idle, groups := 0, filled := 0, discards := 0, rekey := false, proven := false }

/-- The fabric at package reset (R198). -/
def Fabric.reset : Fabric :=
  { ports := List.replicate 16 1, planemap := 0x76543210, planeWant := 0x76543210, timeout := 2000, authErr := 0,
    keys := List.replicate 32 KeyDir.reset, out := [], answers := [], released := [], casts := [], nextReq := 0,
    seqs := List.replicate 16 0, windows := [], heldIn := [], barred := [], announcing := [] }

/-- The link control block at reset (R179). DESIGN CHOICE, log entry 4. -/
def LinkCtl.reset : LinkCtl := { evPort := 0, evLost := 0, evSeq := 0, resetBusy := false, raised := [] }

/-- The bring-up block at package reset (R440). -/
def Bringup.reset : Bringup :=
  { drvaccept := 0, done := false, failed := false, accepted := false, phases := [0, 0, 0, 0, 0], pwrLimit := 2800,
    refused := false }

/-- The controller of a part that holds no firmware image. DESIGN CHOICE, log entry 102. -/
def Controller.reset : Controller := { keyDigest := [], minVersion := 0, firmware := [] }

/-- The host link before it trains. DESIGN CHOICE, log entry 6. -/
def HostLink.reset : HostLink := { up := false, answers := [], msix := [], spdm := [] }

end Sys2Proof.Machine
end

