-- ==== Sys2Proof/Machine/Units.lean ====
section
/-! DEFINITION. The state of the engines (lane copies R230, Slip jobs R234, tile tasks R336), of Logen's objects
(R379 to R406, R203, R218, R375), of the allocator (R132) and of the command processor (R407, R368). -/

namespace Sys2Proof.Machine

/-- A tensor entry (R130): its VA and its fields; dims and strides of dimensions 0 to 4, stride 0 being 1. -/
structure Tensor where
  va : Nat
  valid : Bool
  fmt : Nat
  ndim : Nat
  scale : Nat
  svdim : Bool
  sven : Bool
  /-- Byte addresses: live base, shadow base, scale vector, sherd list. -/
  live : Nat
  shadow : Nat
  scaleVec : Nat
  sherdBase : Nat
  sherdCap : Nat
  pubGen : Nat
  dims : List Nat
  strides : List Nat
  deriving DecidableEq, Repr

/-- A lane copy that has been issued (R231, R232). -/
structure LaneCopy where
  wave : Nat
  lane : Nat
  launch : Option Nat
  inbound : Bool
  va : Nat
  pa : Nat
  remote : Bool
  /-- The context and its translation generation at issue (R108). -/
  asid : Nat
  tgen : Nat
  /-- Physical scratchpad offset. -/
  scratch : Nat
  size : Nat
  slot : Nat
  gen : Nat
  ordered : Bool
  /-- The instruction that issued it (R233). -/
  issue : Nat
  /-- What an outbound copy read at issue. -/
  data : List Byte
  deriving DecidableEq, Repr

/-- Where a Slip job stands: queued, running, ended with its record to write, its signal to send, or FAULTED at
the head of its channel (R237 to R240). -/
inductive JobPhase where | queued | running | ending | signalling | faulted
  deriving DecidableEq, Repr

/-- A Slip job (R234 to R241). -/
structure SlipJob where
  record : List Byte
  asid : Nat
  priv : Bool
  phase : JobPhase
  status : Nat
  /-- The bases read when the job first started, with the spans of R141. -/
  bases : Option (Nat × Nat × Nat × Nat)
  /-- Iterations performed. -/
  iter : Nat
  bytes : Nat
  /-- The slot tile in progress: its number, slot and captured GEN. -/
  cur : Option (Nat × Nat × Nat)
  /-- The slots that its tiles have been counted for, each with the GEN captured, inbound or not (R125, R240). -/
  counted : List (Nat × Nat × Bool) := []
  faultCode : Nat
  faultVa : Nat
  faultReason : Nat
  /-- The completion record, kept for its signal. -/
  out : List Byte
  /-- Lost to a reset after it faulted, while its FAULTED record is being signalled (R240). -/
  lost : Bool := false
  /-- The message to another package that signals its completion (R238). -/
  sig : Option Nat := none
  /-- Its own number. -/
  serial : Nat := 0
  /-- SCANCEL has found it within an iteration: it ends CANCELLED at the boundary (R241). -/
  stopping : Bool := false
  deriving DecidableEq, Repr

/-- A submitted tile task (R341, R421, R474): its record and the privilege kept with it. -/
structure Task where
  asid : Nat
  va : Nat
  /-- Where the record stands (R336): its physical address, local for a record of this package. -/
  pa : Nat
  priv : Bool
  prio : Nat
  enqSeq : Nat
  /-- Submitted with RESUME: it goes on from ITER (R338). -/
  resume : Bool
  deriving DecidableEq, Repr

/-- A KILNOP task on a Kiln (R326, R338): the record and entries of the dispatch, the output tile, the K step,
the slab, and the working copy with its residue words. -/
structure KilnRun where
  task : Task
  record : List Byte
  a : Tensor
  b : Tensor
  c : Tensor
  /-- i1 to i4. -/
  tile : List Nat
  step : Nat
  slab : Nat
  acc : List Word
  residues : List Nat
  deriving DecidableEq, Repr

/-- A task that is RUNNING: on a core's Kiln, or as a wave, and how it ended, if it has. -/
structure Running where
  task : Task
  core : Option Nat
  wave : Option Nat
  /-- The record as its dispatch read it. -/
  record : List Byte
  /-- The state it ends in and, for FAULTED, cause, address and reason (R341). -/
  outcome : Option (Nat × Nat × Nat × Nat)
  /-- ITER0 to ITER4 of a fault. -/
  iters : List Nat
  /-- How far its completion has come (R340, R341), and the successors it has made READY, each with its Setter. -/
  stage : Nat := 0
  released : List (Nat × Task) := []
  deriving DecidableEq, Repr

/-- A Setter (R342). -/
structure Setter where
  ready : List Task
  armed : List Task
  running : List Running
  nextSeq : Nat
  deriving DecidableEq, Repr

/-- The frame of a granted page: its physical address and size code (R396). -/
structure Frame where
  pa : Nat
  size : Nat
  deriving DecidableEq, Repr

/-- A message in a port's queue (R393 to R395): grants as slots with the frames that go there. -/
structure Msg where
  source : Word
  tag : Nat
  bytes : List Byte
  grants : List (Nat × Frame)
  /-- The lane that takes it, while its buffer's writes to another package are on their way. -/
  taker : Option (Nat × Nat) := none
  deriving DecidableEq, Repr

/-- A slot of a grant window: reserved for a queued message, or mapped (R397). -/
structure GrantSlot where
  frame : Frame
  mapped : Bool
  deriving DecidableEq, Repr

/-- Who waits for a rendezvous payload to land (R210): a lane here, by wave, lane and number, with PAYVA, or the sender
of a message with an end-to-end number on another package. -/
inductive Sender where
  | lane (wave lane req payva : Nat)
  | away (pkg seq : Nat)
  deriving DecidableEq, Repr

/-- A message in the unexpected queue, or a rendezvous payload that has matched (R210). -/
structure Unexpected where
  /-- The index of its port. -/
  port : Nat
  source : Word
  tag : Nat
  /-- Payload bytes. -/
  len : Nat
  /-- The bytes held here: all of them, or those of a local rendezvous that stand on another package. -/
  bytes : List Byte
  sender : Option Sender
  /-- Ingress time; 0 for KSEND. -/
  time : Nat
  deriving DecidableEq, Repr

/-- A stream (R218 to R221): its record and the last completed frame. -/
structure StreamObj where
  port : Nat
  record : List Byte
  lastDone : Option Nat
  deriving DecidableEq, Repr

/-- What a completion record says (R212). -/
structure Completion where
  status : Nat
  source : Word
  tag : Nat
  bytes : Nat
  lines : Nat
  faultCode : Nat
  faultVa : Nat
  first : Nat
  last : Nat
  deriving DecidableEq, Repr

/-- A posted receive (R205, R221) and, for a frame post, what it has taken. -/
structure Post where
  /-- The context of its port, in which it lands. -/
  asid : Nat
  va : Nat
  record : List Byte
  priv : Bool
  /-- The tensor entry as its KPOST read it. -/
  entry : Tensor
  /-- Device time at which its KPOST completed, or at which its last SRD was taken (R214, R221). -/
  since : Nat
  /-- The timestamp and SOURCE it is latched to. -/
  latched : Option (Nat × Word)
  firstT : Nat
  lastT : Nat
  /-- SRDs taken as (line, offset, length). -/
  taken : List (Nat × Nat × Nat)
  /-- A message that it has taken and that has yet to land (R210, R211). -/
  landing : Option Unexpected
  /-- A number of the model's own for its accesses. -/
  uid : Nat := 0
  /-- The stream whose frame it holds, as its first SRD found it, and the SRDs that have yet to land, each with its own stream (R221). -/
  stream : Option StreamObj := none
  srds : List (StreamObj × SrdPacket) := []
  /-- It takes no more SRDs, and ends INCOMPLETE once those that it has taken have landed (R213, R221). -/
  closing : Bool := false
  /-- How it has ended, while its bitmap and its record are being written, and that the bitmap is (R212, R213). -/
  ending : Option Completion := none
  mapped : Bool := false
  deriving DecidableEq, Repr

/-- What is still to be written of a post that its port's closing has cancelled, in order (R212, R214). -/
structure Parted where
  uid : Nat
  asid : Nat
  priv : Bool
  writes : List (Nat × List Byte)
  deriving DecidableEq, Repr

/-- A port (R203, R389, R393 to R397, R405). -/
structure Port where
  matched : Bool
  eth : Bool
  capacity : Nat
  gwBase : Nat
  gwSlots : Nat
  slots : Sparse GrantSlot
  queue : List Msg
  posts : List Post
  /-- Live references, and whether there was ever one (R383, R395). -/
  senders : Nat
  hadSenders : Bool
  name : Option (List Byte)
  deriving DecidableEq, Repr

/-- A member of a multicast group (R389). -/
structure McMember where
  pkg : Nat
  asid : Nat
  winVa : Nat
  winSize : Nat
  deriving DecidableEq, Repr

/-- The cone of a pipeline group: the round's core order, the place it is held at, its colour (R377). -/
structure Cone where
  order : List Nat
  place : Nat
  black : Bool
  deriving DecidableEq, Repr

/-- What an object is (R380). -/
inductive Body where
  /-- A wave: ended, its handle given out, lost to a reset (R390, R432). -/
  | wave (uid : Nat) (ended : Bool) (shown : Bool) (lost : Bool := false)
  | port (p : Port)
  /-- A reference: the package, the handle and the mode of its port (R383). -/
  | ref (pkg : Nat) (port : Word) (matched : Bool)
  | waitset (slots : Sparse (Word × Word))
  | timer (period : Nat) (deadline : Option Nat) (pending : Nat)
  | space (asid ttab allocBase allocChunks : Nat)
  | mcgroup (members : List McMember)
  | stream (t : StreamObj)
  | taskq (base count pending : Nat)
  | pipegroup (ended : Bool) (cone : Option Cone) (blackCores : List Nat)
  deriving DecidableEq, Repr

/-- An entry of the object table (R381, R382): the generation outlives the object. -/
structure Obj where
  gen : Nat
  asid : Nat
  body : Option Body
  deriving DecidableEq, Repr

/-- A name bound at this package, its home (R404, R405). -/
structure Name where
  name : List Byte
  pkg : Nat
  port : Word
  /-- The mode of the port. -/
  matched : Bool
  deriving DecidableEq, Repr

/-- A context's allocator (R132 to R134): chunks taken, by index, with owner quad and class, and the free and
return lists by 8·quad + class. -/
structure Alloc where
  taken : Sparse (Nat × Nat)
  free : Sparse (List Nat)
  returned : Sparse (List Nat)
  deriving DecidableEq, Repr

/-- A host queue (R407, R408). bells holds its doorbells, oldest first: the QTAIL that each wrote, and when. -/
structure HostQueue where
  en : Bool
  irq : Bool
  privq : Bool
  log2 : Nat
  prio : Nat
  asid : Nat
  base : Nat
  comp : Nat
  tail : Nat
  head : Nat
  seq : Nat
  bells : List (Nat × Nat)
  deriving DecidableEq, Repr

/-- A launch that has been read (R363, R364, R369 to R372, R408). -/
structure Launch where
  q : Nat
  seq : Nat
  asid : Nat
  priv : Bool
  prio : Nat
  packet : List Byte
  bad : Bool
  started : Bool
  /-- Its order of starting, and device time then. -/
  order : Nat
  startT : Nat
  /-- Launches it waits for (R364). -/
  waitFor : List Nat
  /-- Next block to place; place in the round and whether the round placed any, while it deals (R372). -/
  next : Nat
  deal : Option (Nat × Bool)
  /-- Blocks all of whose waves have ended, and whether any wave was lost. -/
  ended : Nat
  lost : Bool
  deriving DecidableEq, Repr

/-- An entry of a quad run queue (R412): a block that waits for room. -/
structure QueueEntry where
  block : Nat
  /-- 16·die + quad. -/
  quad : Nat
  dies : Nat
  prio : Nat
  ticket : Nat
  deriving DecidableEq, Repr

/-- A request to another package's Logen that has no answer yet (R394, R405, R406). -/
structure Kmsg where
  wave : Nat
  lane : Nat
  asid : Nat
  dest : Nat
  seq : Nat
  body : KmsgBody
  /-- The pages it grants, by VA (R396). -/
  pages : List Nat
  /-- The index of the port that a bind names (R405). -/
  port : Nat
  sentAt : Nat
  /-- The privilege of its lane, and where its payload stands (R210, R474). -/
  priv : Bool := false
  payva : Nat := 0
  /-- The generation at which the pages that it grants were revoked (R396). -/
  revoked : Option Nat := none
  deriving DecidableEq, Repr

/-- A Setter at reset. -/
def Setter.reset : Setter := { ready := [], armed := [], running := [], nextSeq := 0 }

/-- A host queue at reset (R407). -/
def HostQueue.reset : HostQueue :=
  { en := false, irq := false, privq := false, log2 := 0, prio := 0, asid := 0, base := 0, comp := 0, tail := 0,
    head := 0, seq := 0, bells := [] }

/-- An allocator that has served nothing. -/
def Alloc.reset : Alloc := { taken := [], free := [], returned := [] }

/-- An object-table entry never used. -/
def Obj.reset : Obj := { gen := 0, asid := 0, body := none }

end Sys2Proof.Machine
end

