-- ==== Sys2Proof/Machine/State.lean ====
section
/-! DEFINITION. The state of one package, plain data: agents, memories, registers of the part, and the
model's own bookkeeping fields. -/

namespace Sys2Proof.Machine

/-- The states of a tile slot (R123). -/
inductive SlotState where | empty | filling | ready | draining | poisoned
  deriving DecidableEq, Repr

/-- A tile slot (R123). -/
structure Slot where
  st : SlotState
  base : Nat
  size : Nat
  expected : Nat
  arrived : Nat
  gen : Nat
  pcause : Nat
  asid : Nat
  deriving DecidableEq, Repr

/-- A core that is enabled (R114, R120, R123, R366): its scratchpad, slots and caches. -/
structure CoreState where
  /-- Scratchpad bytes by physical offset; unlisted bytes read 0. -/
  scratch : Sparse Byte
  slots : Sparse Slot
  /-- Shared-class L1 copies of 16-byte sectors, by sector number of the local address (R114, R115). -/
  l1 : Sparse (List Byte)
  /-- Instruction-cache copies of lines (R366). -/
  icache : Sparse (List Byte)
  /-- Lane copies in flight, in issue order (R230). -/
  copies : List LaneCopy
  /-- The job channel that serves the core, head first (R234 to R241). -/
  jobs : List SlipJob
  /-- The tile task on its Kiln (R343). -/
  kiln : Option KilnRun
  deriving DecidableEq, Repr

/-- What a page is (R102); info is the device information page of R20. -/
inductive PageKind where | hbm | host | remote | mmio | info
  deriving DecidableEq, Repr

/-- A translation of one page: what a leaf entry gives (R102, R104). -/
structure Page where
  kind : PageKind
  vbase : Nat
  size : Nat
  /-- The physical address of the page, package id included. -/
  pa : Nat
  level : Nat
  w : Bool
  x : Bool
  u : Bool
  deriving DecidableEq, Repr

/-- A cached translation (R108). -/
structure TlbEntry where
  asid : Nat
  page : Page
  deriving DecidableEq, Repr

/-- A non-leaf entry that has been cached (R108): it leads to the table of a level that reaches a range of addresses. -/
structure TableEntry where
  asid : Nat
  level : Nat
  /-- The address bits above what the table reaches. -/
  base : Nat
  frame : Nat
  deriving DecidableEq, Repr

/-- What each context has besides its tables: TRAPVEC and the translation generation (R108, R420). -/
structure Ctx where
  trapVec : Word
  gen : Nat
  deriving DecidableEq, Repr

/-- The memory configuration block (R97). -/
structure MemCfg where
  lock : Bool
  wingib : Nat
  ctxroot : Nat
  xlaten : Bool
  deriving DecidableEq, Repr

/-- The issue group whose instruction the current step runs, with its fetched unit (R294, R42). -/
structure Focus where
  wave : Nat
  lanes : List Nat
  pc : VA
  len : Nat
  word : Word
  pfx : Option PfxFields
  deriving DecidableEq, Repr

/-- What the engine that makes the current step brings (none for lanes, whose own words stand in their waits): the agent whose
L2 its accesses go through (R112), the words that came with its accesses to other packages, and how the last of them failed. -/
structure Runner where
  agent : Nat
  acks : List Word
  failed : Option (Nat × Word)
  /-- A write of it that covers a line is a full-line write (R182). -/
  full : Bool := false
  deriving DecidableEq, Repr

/-- No engine runs: accesses are Pavilion's. -/
def Runner.idle : Runner := { agent := 6, acks := [], failed := none }

/-- A step that is due before the part selects for itself: one of another agent, or the issue of a named
partition. -/
inductive Turn where
  | step (e : Event)
  | issue (die core part : Nat)
  deriving DecidableEq, Repr

/-- The classes of flits (R184). -/
inductive FlitClass where | req | rsp | kmsg | mgmt
  deriving DecidableEq, Repr

/-- What leaves the package for another one, newest first: the environment takes it from here. DESIGN CHOICE, log entry 82. -/
inductive Outgoing where
  /-- A flit that leaves by a port, with its class and key-generation bit (R184, R196), and what it carries. -/
  | flit (port : Nat) (cls : FlitClass) (gen : Bool) (what : Outgoing)
  /-- An operation on a pod barrier held elsewhere, or a phase end told to the pod (R304). -/
  | podBarrier (index : Nat) (m : PodBarrierMsg)
  /-- A REQ flit (R184, R189). -/
  | request (port seq pa size : Nat) (op : HomeOp) (data : List Byte) (expected : Word)
  /-- The reply to a request performed here (R189). -/
  | reply (pkg port seq : Nat) (ok : Bool) (data : List Byte)
  /-- A hold notice for a request held here (R190). -/
  | hold (pkg port seq : Nat)
  /-- A multicast write to a member on another package (R193): it leaves by a port, with that port's number. -/
  | multicast (port seq req member pkg asid winVa winSize offset : Nat) (priv : Bool) (data : Word)
  /-- The acknowledgement of a multicast write performed here, with the reason of a failure (R193): the cause of its trap. -/
  | multicastAck (pkg port seq member : Nat) (failure : Option Nat)
  /-- A hold notice for a multicast write held here (R190, R193). -/
  | holdMember (pkg port seq member : Nat)
  /-- The acknowledgement on MGMT of the first group that authenticates under a new bank (R197). -/
  | keyAck (port : Nat)
  /-- An SPDM answer (R196, R449). -/
  | spdm (session : Nat) (answer : List Byte)
  /-- A Logen message, by its number here and its end-to-end number (R394, R405, R406). -/
  | kmsg (req dest seq : Nat) (body : KmsgBody)
  /-- An answer to another package's message, by that one's number. -/
  | kmsgReply (pkg req status value : Nat)
  /-- An IGMPv3 join or leave of a stream's group (R218). -/
  | igmp (join : Bool) (ethMask : Nat) (group srcIp : Word)
  /-- An ARP reply (R215). -/
  | arp (sender target : Word)
  /-- A delay request of PTP (R215), with the device time it leaves at. -/
  | ptpDelay (time : Nat)
  /-- A CXL write-back of a host-homed line (R159, R426). -/
  | writeBack (line : Nat)
  /-- What a read of the host over CXL is answered: the bytes, or none of a poisoned line (R181, R439). -/
  | hostRead (addr : Nat) (data : Option (List Byte))
  /-- A port's announcement of PKGID and PODSIZE to its plane (R443). -/
  | announce (port pkgid podsize : Nat)
  deriving DecidableEq, Repr

/-- A message of another package for which a place in a queue, slots and frames have been reserved, and whose pages are to come
(R396). -/
structure Arriving where
  pkg : Nat
  seq : Nat
  /-- The index of its port. -/
  port : Nat
  msg : Msg
  deriving DecidableEq, Repr

/-- The state of the package. -/
structure State where
  /-- Waves by a number of the model. -/
  waves : Sparse Wave
  blocks : Sparse Block
  /-- Cores by 64·die + logical number; a core not listed is as at reset. -/
  cores : Sparse CoreState
  /-- HBM and host-homed memory by local address (R94); an unlisted byte reads 0. -/
  mem : List Host.Cell
  /-- Poisoned 128-byte lines by line number of the local address (R181). -/
  poison : List Nat
  /-- Lines whose HBM cells hold an uncorrectable error that no read has found yet (R98); the environment puts them here. DESIGN CHOICE,
  log entry 104. -/
  ecc : List Nat
  /-- Lines whose HBM cells hold an error of one symbol, and how many of those reads have found and corrected, which the management
  controller counts (R98). DESIGN CHOICE, log entry 104. -/
  softEcc : List Nat
  corrected : Nat
  /-- The lines that L2s hold, by line number of the local address (R112). -/
  dir : Sparse DirLine
  /-- The flows of the die protocol, by flowKey (R165). -/
  flows : Sparse Flow
  /-- Quad, die, package and pod barriers by barKey; one not listed is OFF (R305). -/
  bars : Sparse Barrier
  tlb : List TlbEntry
  tables : List TableEntry
  ctxs : Sparse Ctx
  cfg : MemCfg
  /-- The enable mask of each die's physical cores (R17, R22). -/
  harvest : List Nat
  /-- LINKTRAPW, c264 (R176). -/
  linkTrapW : Word
  links : List LinkRegs
  linkCtl : LinkCtl
  fabric : Fabric
  bringup : Bringup
  controller : Controller
  host : HostLink
  /-- The device information page once DRVACCEPT has taken effect (R21, R22). -/
  infoPage : Option (List Byte)
  /-- RXDROP, ETHMSGUDP, PTPLOCK, and whether PTP ever locked (R217, R402). -/
  rxDrop : Word
  ethMsgUdp : Nat
  ptpLock : Bool
  ptpEver : Bool
  unexpected : List Unexpected
  /-- Logen: the object table, names homed here, requests without an answer, end-to-end numbers (R379 to R406). -/
  objs : Sparse Obj
  names : List Name
  kmsgs : Sparse Kmsg
  /-- Next number toward each package, and the numbers taken from each with what was answered (R394, R435). -/
  kmsgNext : Sparse Nat
  kmsgSeen : Sparse (Sparse Nat)
  /-- Messages of other packages that have been taken and have no room yet, oldest first: package, number (R209, R394). -/
  kmsgHeld : List (Nat × Nat × KmsgBody)
  /-- Messages whose granted pages are on their way (R396). -/
  arriving : List Arriving
  /-- The grant pool and GPREJECT (R398). -/
  pool : List Frame
  gpReject : Word
  allocs : Sparse Alloc
  /-- MFREE exchanges on their way: context and block (R134). -/
  exchanges : List (Nat × Nat)
  /-- Posts of closed ports that are still being written (R214). -/
  parted : List Parted
  setters : List Setter
  queues : List HostQueue
  launches : Sparse Launch
  /-- The buffer-handle table by 2^30·ASID + handle: last writer, readers since (R364). -/
  handles : Sparse (Option Nat × List Nat)
  runQueue : List QueueEntry
  /-- Waves spawned so far (R410). -/
  spawned : Nat
  /-- KILN_CHECK events counted by the management controller (R327). -/
  kilnChecks : Nat
  /-- CLKSTRETCH, c265 (R446). -/
  clkStretch : Word
  pkgid : Nat
  podsize : Nat
  hostgib : Nat
  /-- Fatal traps the management controller has counted (R423). -/
  fatalTraps : Nat
  /-- Device time in ns (R402). -/
  time : Nat
  /-- Lanes that have ended by EXIT, newest first: wave, lane, and their trap registers c256 to c261 (R420). -/
  exited : List (Nat × Nat × List Word)
  /-- Flits that no port can carry yet, oldest first, each with the port it is for (R199). -/
  waiting : List (Nat × Outgoing)
  /-- What has left for outside. -/
  sent : List Outgoing
  focus : Option Focus
  run : Runner
  input : Option Event
  agenda : List Turn
  /-- The second issue slot of a clock (R416): the partition whose first slot has just issued, whether that took the
  vector pipe, and the stamp of its selection. -/
  slot2 : Option (Nat × Bool × Nat)
  freeCtr : Nat
  ticket : Nat
  deriving DecidableEq, Repr

/-- Why the machine stops with a fault: it never does, every event of the manual has an effect. -/
inductive Fault where
  /-- Not raised by any meaning: safe, kept so that the type is not empty. -/
  | never
  deriving DecidableEq, Repr

/-- Why an instruction has no meaning in this model. -/
inductive Refusal where
  /-- Raised by exec's arms for an instruction that is not modelled yet; safe. -/
  | notModelled (mnemonic : String)
  deriving DecidableEq, Repr

/-- A core at reset (R16). DESIGN CHOICE, log entry 9. -/
def CoreState.reset : CoreState := { scratch := [], slots := [], l1 := [], icache := [], copies := [], jobs := [], kiln := none }

/-- A slot at reset (R123). -/
def Slot.reset : Slot :=
  { st := .empty, base := 0, size := 0, expected := 0, arrived := 0, gen := 0, pcause := 0, asid := 0 }

/-- A context no field of which has been written. -/
def Ctx.reset : Ctx := { trapVec := 0, gen := 0 }

/-- The package right after a package reset (R16). -/
def State.reset : State :=
  { waves := [], blocks := [], cores := [], mem := [], poison := [], ecc := [], softEcc := [], corrected := 0, dir := [], flows := [], bars := [], tlb := [],
    tables := [], ctxs := [],
    cfg := { lock := false, wingib := 0, ctxroot := 0, xlaten := false },
    harvest := List.replicate 6 0xFFFFFFFFF, linkTrapW := 0,
    links := List.replicate 12 LinkRegs.reset, linkCtl := LinkCtl.reset, fabric := Fabric.reset, bringup := Bringup.reset,
    controller := Controller.reset, host := HostLink.reset, infoPage := none, rxDrop := 0, ethMsgUdp := 19842, ptpLock := false, ptpEver := false,
    unexpected := [], objs := [], names := [], kmsgs := [], kmsgNext := [], kmsgSeen := [], kmsgHeld := [], arriving := [], pool := [], gpReject := 0,
    allocs := [], exchanges := [], parted := [], setters := List.replicate 6 Setter.reset,
    queues := List.replicate 64 HostQueue.reset, launches := [], handles := [], runQueue := [], spawned := 0,
    kilnChecks := 0, clkStretch := 0, pkgid := 0, podsize := 1, hostgib := 0,
    fatalTraps := 0, time := 0, exited := [], waiting := [], sent := [], focus := none, run := Runner.idle, input := none, agenda := [], slot2 := none, freeCtr := 0, ticket := 0 }

end Sys2Proof.Machine
end

