-- ==== Sys2Proof/Machine/Access.lean ====
section
/-! DEFINITION. Reading and replacing the parts of State by name. -/

namespace Sys2Proof.Machine

/-- A wave. -/
def State.wave (s : State) (u : Nat) : Option Wave := sget s.waves u

/-- The state with a wave replaced. -/
def State.setWave (s : State) (u : Nat) (w : Wave) : State := { s with waves := sput s.waves u w }

/-- The state with a wave changed, where there is one. -/
def State.modWave (s : State) (u : Nat) (f : Wave → Wave) : State := { s with waves := smod s.waves u f }

/-- A lane of a wave. -/
def Wave.lane (w : Wave) (l : Nat) : Option Lane := sget w.lanes l

/-- The wave with a lane replaced. -/
def Wave.setLane (w : Wave) (l : Nat) (ln : Lane) : Wave := { w with lanes := sput w.lanes l ln }

/-- A lane. -/
def State.lane (s : State) (u l : Nat) : Option Lane :=
  match s.wave u with
  | some w => w.lane l
  | none => none

/-- The state with a lane changed, where there is one. -/
def State.modLane (s : State) (u l : Nat) (f : Lane → Lane) : State :=
  s.modWave u (fun w => { w with lanes := smod w.lanes l f })

/-- The state with a block changed, where there is one. -/
def State.modBlock (s : State) (k : Nat) (f : Block → Block) : State := { s with blocks := smod s.blocks k f }

/-- The key of a core in State.cores. -/
def coreKey (die core : Nat) : Nat := 64 * die + core

/-- A core; one that is not listed is as at reset. -/
def State.core (s : State) (k : Nat) : CoreState := sgetD s.cores k CoreState.reset

/-- The state with a core changed. -/
def State.modCore (s : State) (k : Nat) (f : CoreState → CoreState) : State :=
  { s with cores := sput s.cores k (f (s.core k)) }

/-- A context. -/
def State.ctx (s : State) (asid : Nat) : Ctx := sgetD s.ctxs asid Ctx.reset

/-- The state with a context changed. -/
def State.modCtx (s : State) (asid : Nat) (f : Ctx → Ctx) : State :=
  { s with ctxs := sput s.ctxs asid (f (s.ctx asid)) }

/-- The core a wave stands on. -/
def Wave.coreKey (w : Wave) : Nat := Machine.coreKey w.die w.core

/-- A wave holds its slot, range and tiles (R415). -/
def Wave.onCore (w : Wave) : Bool := w.st == .resident || w.st == .moving || w.st == .saving

/-- The next number of the model's own order of events. -/
def State.tick (s : State) : State := { s with ticket := s.ticket + 1 }

/-- A feature that has been accepted (R442, R444). -/
def State.accepted (s : State) (bit : Nat) : Bool := s.bringup.accepted && bitOf s.bringup.drvaccept bit

end Sys2Proof.Machine
end

