-- ==== Sys2Proof/Machine/Flits.lean ====
section
/-! DEFINITION. Flits that leave by an Ilpaip port (R184, R195 to R197): their class, the key bank that seals their group, and the
port that each takes. -/

namespace Sys2Proof.Machine

/-- One direction's keys. -/
def Fabric.dir (f : Fabric) (port : Nat) (tx : Bool) : KeyDir := (f.keys[2 * port + (if tx then 1 else 0)]?).getD KeyDir.reset

/-- REKEYk (R198). -/
def Fabric.rekeying (f : Fabric) (port : Nat) : Bool := (f.dir port false).rekey || (f.dir port true).rekey

/-- TXGENk (R198): the bank that seals the group being filled. -/
def Fabric.txGen (f : Fabric) (port : Nat) : Bool := (f.dir port true).gen

/-- A key that the sending direction of a port can use (R197). -/
def Fabric.keyed (f : Fabric) (port : Nat) : Bool :=
  match f.keys[2 * port + 1]? with
  | some k => k.bank0 == .active || k.bank1 == .active
  | none => false

/-- A direction's keys changed. -/
def State.modKeys (s : State) (port : Nat) (tx : Bool) (f : KeyDir → KeyDir) : State :=
  { s with fabric := { s.fabric with keys := s.fabric.keys.modify (2 * port + (if tx then 1 else 0)) f } }

/-- A group ends: the next one is sealed under the bank that is ACTIVE (R197). -/
def KeyDir.endGroup (k : KeyDir) : KeyDir :=
  let n := (k.groups + 1) % 2 ^ 64
  { k with groups := n, filled := 0, gen := k.bank1 == .active, due := k.due || n % 2 ^ 32 == 0 }

/-- A group of a direction counted; at every 2^32 groups a rekey is due (R195, R197). -/
def State.countGroup (s : State) (port : Nat) (tx : Bool) : State :=
  let s1 := s.modKeys port tx KeyDir.endGroup
  if (s1.fabric.dir port tx).due then { s1 with agenda := s1.agenda ++ [.step (.rekeyGroupCount port tx)] } else s1

/-- The class that carries what leaves (R184). The manual names none for the messages of pod barriers. DESIGN CHOICE, log entry 107. -/
def Outgoing.class (o : Outgoing) : FlitClass :=
  match o with
  | .request .. | .multicast .. => .req
  | .reply .. | .hold .. | .multicastAck .. | .holdMember .. => .rsp
  | .kmsg .. | .kmsgReply .. => .kmsg
  | .podBarrier .. | .keyAck .. | .spdm .. | .announce .. => .mgmt
  | .igmp .. | .arp .. | .ptpDelay .. | .writeBack .. | .hostRead .. | .flit .. => .mgmt

/-- What a port carries before it has a key (R196, R197, R443): its session and its announcement. -/
def Outgoing.keyless (o : Outgoing) : Bool :=
  match o with
  | .spdm .. | .announce .. => true
  | _ => false

/-- A port that can carry a flit (R197, R199, R444). -/
def State.portOpen (s : State) (o : Outgoing) (port : Nat) : Bool :=
  s.fabric.ports.getD port 0 == 2 && (o.keyless || (s.accepted 1 && s.fabric.keyed port))

/-- The port that a flit takes (R185, R199): the one given; for RSP its sibling or another where that carries nothing; none while it
waits. What has no port of its own takes the lowest that carries flits. DESIGN CHOICE, log entry 107. -/
def State.exitPort (s : State) (port : Nat) (o : Outgoing) : Option Nat :=
  let sibling := port + 1 - 2 * (port % 2)
  let tried :=
    match o.class with
    | .rsp => [port, sibling] ++ List.range 16
    | .kmsg => List.range 16
    | .req => [port]
    | .mgmt => if (match o with | .podBarrier .. => true | _ => false) then List.range 16 else [port]
  tried.find? (s.portOpen o)

/-- A flit leaves by a port: with its class and the key-generation bit of its group (R184, R195, R196), which is of 16 consecutive
flits. What a port carries without a key belongs to no group. -/
def State.leave (s : State) (port : Nat) (o : Outgoing) : State :=
  let s1 := { s with sent := .flit port o.class (s.fabric.txGen port) o :: s.sent }
  if !s.fabric.keyed port then s1
  else if 15 ≤ (s.fabric.dir port true).filled then s1.countGroup port true
  else s1.modKeys port true (fun k => { k with filled := k.filled + 1 })

/-- A flit for a port: it leaves, or waits at the package until a port can carry it. -/
def State.sendFlit (s : State) (port : Nat) (o : Outgoing) : State :=
  match s.exitPort port o with
  | some q => s.leave q o
  | none => { s with waiting := s.waiting ++ [(port, o)] }

/-- The flits that wait for a port, sent in their order as far as one carries them. -/
def State.sendWaiting (s : State) : State :=
  s.waiting.foldl (fun t x => t.sendFlit x.1 x.2) { s with waiting := [] }

/-- A message about a pod barrier to the rest of the pod, where there is any. -/
def State.tellPod (s : State) (index : Nat) (m : PodBarrierMsg) : State :=
  if s.podsize ≤ 1 then s else s.sendFlit 0 (.podBarrier index m)

end Sys2Proof.Machine
end

