-- ==== Sys2Proof/Machine/FloatCore.lean ====
section
/-! DEFINITION. The arithmetic of the three floating formats (R70 to R81): values are exact integers times
powers of two, every operation is exact and rounds once, under a mode, flush and saturation. -/

namespace Sys2Proof.Machine

/-- A binary format of R70: exponent and fraction widths. -/
structure Fmt where
  ebits : Nat
  fbits : Nat
  deriving DecidableEq, Repr

/-- FP32 (R70). -/
def fp32 : Fmt := Fmt.mk 8 23

/-- BF16 (R70). -/
def bf16 : Fmt := Fmt.mk 8 7

/-- FP16 (R70). -/
def fp16 : Fmt := Fmt.mk 5 10

/-- The exponent bias. -/
def Fmt.bias (f : Fmt) : Nat := 2 ^ (f.ebits - 1) - 1

/-- The exponent field of infinities and NaNs. -/
def Fmt.eMax (f : Fmt) : Nat := 2 ^ f.ebits - 1

/-- The exponent of the smallest normal. -/
def Fmt.eMin (f : Fmt) : Int := 1 - (f.bias : Int)

/-- The sign bit as a number. -/
def Fmt.signBit (f : Fmt) : Nat := 2 ^ (f.ebits + f.fbits)

/-- The canonical NaN (R70, R71). -/
def Fmt.nan (f : Fmt) : Nat := f.eMax * 2 ^ f.fbits + 2 ^ (f.fbits - 1)

/-- An infinity of a sign. -/
def Fmt.inf (f : Fmt) (neg : Bool) : Nat := f.eMax * 2 ^ f.fbits + (if neg then f.signBit else 0)

/-- The largest finite value of a sign. -/
def Fmt.maxFinite (f : Fmt) (neg : Bool) : Nat := f.eMax * 2 ^ f.fbits - 1 + (if neg then f.signBit else 0)

/-- A zero of a sign. -/
def Fmt.zero (f : Fmt) (neg : Bool) : Nat := if neg then f.signBit else 0

/-- A floating value: a NaN, an infinity, or mag · 2^exp with a sign. -/
inductive FVal where
  | nan (signalling : Bool)
  | inf (neg : Bool)
  | fin (neg : Bool) (mag : Nat) (exp : Int)
  deriving DecidableEq, Repr

/-- The value of a bit pattern of a format (R70). -/
def Fmt.value (f : Fmt) (x : Nat) : FVal :=
  let frac := x % 2 ^ f.fbits
  let e := x / 2 ^ f.fbits % 2 ^ f.ebits
  let neg := x / f.signBit % 2 == 1
  if e = f.eMax then
    if frac = 0 then .inf neg else .nan (frac / 2 ^ (f.fbits - 1) % 2 == 0)
  else if e = 0 then .fin neg frac (f.eMin - (f.fbits : Int))
  else .fin neg (2 ^ f.fbits + frac) ((e : Int) - (f.bias : Int) - (f.fbits : Int))

/-- A non-zero fraction under a zero exponent field (R70). -/
def Fmt.isSub (f : Fmt) (x : Nat) : Bool :=
  x / 2 ^ f.fbits % 2 ^ f.ebits == 0 && x % 2 ^ f.fbits != 0

/-- An operand, read as a zero of its sign when flushing applies and it is subnormal (R74). -/
def Fmt.read (f : Fmt) (ftz : Bool) (x : Nat) : FVal :=
  match f.value x with
  | .fin neg mag exp => if ftz && f.isSub x then .fin neg 0 exp else .fin neg mag exp
  | v => v

/-- The rounding modes of R72. -/
inductive RMode where | rne | rtz | rup | rdn | rna
  deriving DecidableEq, Repr

/-- The mode of FPMODE[2:0]: 101, 110 and 111 round as RNE (R72). -/
def RMode.ofCode (c : Nat) : RMode :=
  match c with
  | 1 => .rtz
  | 2 => .rup
  | 3 => .rdn
  | 4 => .rna
  | _ => .rne

/-- The flags of R77 in the FPFLAGS bit order. -/
abbrev Flags := BitVec 6

/-- R77 bit 0. -/
def Flags.invalid : Flags := 1
/-- R77 bit 1. -/
def Flags.divZero : Flags := 2
/-- R77 bit 2. -/
def Flags.overflow : Flags := 4
/-- R77 bit 3. -/
def Flags.underflow : Flags := 8
/-- R77 bit 4. -/
def Flags.inexact : Flags := 16
/-- R77 bit 5. -/
def Flags.saturated : Flags := 32

/-- A result: the bits of a format and the flags it raises. -/
structure FRes where
  bits : Nat
  flags : Flags
  deriving DecidableEq, Repr

/-- How an instruction rounds: the captured mode, flushing (R74) and the prefix's sat where honoured; late says that flushing takes
the rounded result, where that is subnormal (R75, R89), and not what is tiny before it (R74). -/
structure FpCtx where raw ::
  mode : RMode
  ftz : Bool
  sat : Bool
  late : Bool
  deriving DecidableEq, Repr

/-- The vector path's rounding. -/
abbrev FpCtx.mk (mode : RMode) (ftz sat : Bool) : FpCtx := FpCtx.raw mode ftz sat false

/-- The matrix path: RNE, subnormal inputs and results flushed, never saturating (R72, R75). -/
def FpCtx.matrix : FpCtx := FpCtx.raw .rne true false true

/-- Whether a magnitude between two neighbours rounds away from zero: the lower neighbour's parity, and how
the discarded part stands to a half (R72). -/
def roundsAway (mode : RMode) (neg odd : Bool) (half : Ordering) (exact : Bool) : Bool :=
  if exact then false
  else
    match mode with
    | .rne => half == .gt || (half == .eq && odd)
    | .rna => half == .gt || half == .eq
    | .rtz => false
    | .rup => !neg
    | .rdn => neg

/-- The magnitude (mag, and a little more when sticky) · 2^exp as a whole number of 2^q, with whether that
is inexact. -/
def roundAt (mode : RMode) (neg : Bool) (mag : Nat) (exp : Int) (sticky : Bool) (q : Int) : Nat × Bool :=
  if q ≤ exp then
    let n := mag * 2 ^ (exp - q).toNat
    (if roundsAway mode neg (n % 2 == 1) .lt (!sticky) then n + 1 else n, sticky)
  else
    let sh := (q - exp).toNat
    let n := mag / 2 ^ sh
    let r := mag % 2 ^ sh
    let h := 2 ^ (sh - 1)
    let half := if r < h then Ordering.lt else if r = h && !sticky then Ordering.eq else Ordering.gt
    let exact := r == 0 && !sticky
    (if roundsAway mode neg (n % 2 == 1) half exact then n + 1 else n, !exact)

/-- An infinite result, by overflow or from an operand: sat replaces it (R73). -/
def infinite (f : Fmt) (c : FpCtx) (neg : Bool) (flags : Flags) : FRes :=
  if c.sat then FRes.mk (f.maxFinite neg) (flags ||| Flags.saturated) else FRes.mk (f.inf neg) flags

/-- What overflow delivers (R73). -/
def overflowed (f : Fmt) (c : FpCtx) (neg : Bool) : FRes :=
  let fl := Flags.overflow ||| Flags.inexact
  let toInf : Bool :=
    match c.mode with
    | .rne | .rna => true
    | .rtz => false
    | .rup => !neg
    | .rdn => neg
  if toInf then infinite f c neg fl else FRes.mk (f.maxFinite neg) fl

/-- Rounds a non-zero magnitude once to a format: overflow by R73, tininess after rounding (R78), flushing by R74 on the vector
path and by R75 on the matrix path. -/
def roundTo (f : Fmt) (c : FpCtx) (neg : Bool) (mag : Nat) (exp : Int) (sticky : Bool) : FRes :=
  let top : Int := (Nat.log2 mag : Int) + exp
  let q1 : Int := top - (f.fbits : Int)
  let free := roundAt c.mode neg mag exp sticky q1
  let top' : Int := if free.1 = 2 ^ (f.fbits + 1) then top + 1 else top
  if (f.bias : Int) < top' then overflowed f c neg
  else
    let tiny : Bool := top' < f.eMin
    if tiny && c.ftz && !c.late then FRes.mk (f.zero neg) (Flags.underflow ||| Flags.inexact)
    else
      let q0 : Int := f.eMin - (f.fbits : Int)
      let q : Int := if q1 < q0 then q0 else q1
      let r := roundAt c.mode neg mag exp sticky q
      let bits := (q - q0).toNat * 2 ^ f.fbits + r.1
      let fl : Flags := (if r.2 then Flags.inexact else 0) ||| (if r.2 && tiny then Flags.underflow else 0)
      FRes.mk ((if c.late && f.isSub bits then 0 else bits) + (if neg then f.signBit else 0)) fl

/-- The canonical NaN with flags (R71). -/
def nanRes (f : Fmt) (flags : Flags) : FRes := FRes.mk f.nan flags

/-- Whether a value is a signalling NaN. -/
def FVal.isSNaN (v : FVal) : Bool := match v with | .nan s => s | .inf _ => false | .fin _ _ _ => false

/-- Whether a value is a NaN. -/
def FVal.isNaN (v : FVal) : Bool := match v with | .nan _ => true | .inf _ => false | .fin _ _ _ => false

/-- Invalid when an operand is a signalling NaN (R71). -/
def snanFlags (vs : List FVal) : Flags := if vs.any FVal.isSNaN then Flags.invalid else 0

/-- The opposite sign. -/
def FVal.negate (v : FVal) : FVal :=
  match v with
  | .nan s => .nan s
  | .inf n => .inf (!n)
  | .fin n m e => .fin (!n) m e

/-- The exact product; none for 0 · ∞ (R81). A NaN factor gives a quiet NaN. -/
def FVal.mul (a b : FVal) : Option FVal :=
  match a, b with
  | .nan _, _ => some (.nan false)
  | _, .nan _ => some (.nan false)
  | .inf s, .inf t => some (.inf (s != t))
  | .inf s, .fin t m _ => if m = 0 then none else some (.inf (s != t))
  | .fin s m _, .inf t => if m = 0 then none else some (.inf (s != t))
  | .fin s m e, .fin t n e' => some (.fin (s != t) (m * n) (e + e'))

/-- A finite value as a whole number of 2^q, q at most its exponent. -/
def FVal.units (q : Int) (v : FVal) : Int :=
  match v with
  | .fin neg m e => let n : Int := ((m * 2 ^ (e - q).toNat : Nat) : Int); if neg then -n else n
  | .nan _ => 0
  | .inf _ => 0

/-- The exponent of a finite value. -/
def FVal.expo (v : FVal) : Int := match v with | .fin _ _ e => e | .nan _ => 0 | .inf _ => 0

/-- The sign of an infinity. -/
def FVal.infSign (v : FVal) : Option Bool := match v with | .inf n => some n | .nan _ => none | .fin _ _ _ => none

/-- Whether a value is a zero of a sign. -/
def FVal.isZeroOf (neg : Bool) (v : FVal) : Bool :=
  match v with
  | .fin n m _ => n == neg && m == 0
  | .nan _ => false
  | .inf _ => false

/-- The exact sum of terms, rounded once (R81, R273): NaN, infinities, the sign of an exact zero. The flags
that the operands raised come in; an invalid product is given as none. -/
def sumTerms (f : Fmt) (c : FpCtx) (flags : Flags) (terms : List (Option FVal)) : FRes :=
  if terms.any Option.isNone then nanRes f (flags ||| Flags.invalid)
  else
    let ts := terms.filterMap id
    if ts.any FVal.isNaN then nanRes f flags
    else
      let infs := ts.filterMap FVal.infSign
      match infs with
      | s :: rest =>
        if rest.all (fun t => t == s) then infinite f c s flags else nanRes f (flags ||| Flags.invalid)
      | [] =>
        let q := ts.foldl (fun acc t => if t.expo < acc then t.expo else acc) (0 : Int)
        let sum := ts.foldl (fun acc t => acc + t.units q) (0 : Int)
        if sum = 0 then
          let neg := ts.all (FVal.isZeroOf true) || (!ts.all (FVal.isZeroOf false) && c.mode == .rdn)
          FRes.mk (f.zero neg) flags
        else
          let r := roundTo f c (sum < 0) sum.natAbs q false
          FRes.mk r.bits (flags ||| r.flags)

/-- a + b (R273). -/
def fpAdd (f : Fmt) (c : FpCtx) (a b : Nat) : FRes :=
  let x := f.read c.ftz a
  let y := f.read c.ftz b
  sumTerms f c (snanFlags [x, y]) [some x, some y]

/-- a − b (R273). -/
def fpSub (f : Fmt) (c : FpCtx) (a b : Nat) : FRes :=
  let x := f.read c.ftz a
  let y := f.read c.ftz b
  sumTerms f c (snanFlags [x, y]) [some x, some y.negate]

/-- a · b (R273). -/
def fpMul (f : Fmt) (c : FpCtx) (a b : Nat) : FRes :=
  let x := f.read c.ftz a
  let y := f.read c.ftz b
  sumTerms f c (snanFlags [x, y]) [x.mul y]

/-- a · b + c, rounded once (R81). -/
def fpFma (f : Fmt) (c : FpCtx) (a b acc : Nat) : FRes :=
  let x := f.read c.ftz a
  let y := f.read c.ftz b
  let z := f.read c.ftz acc
  sumTerms f c (snanFlags [x, y, z]) [x.mul y, some z]

/-- a0·b0 + a1·b1 + c, exact, rounded once to FP32 (R81, R284). -/
def fpDot2 (f : Fmt) (c : FpCtx) (a0 b0 a1 b1 acc : Nat) : FRes :=
  let x0 := f.read c.ftz a0
  let y0 := f.read c.ftz b0
  let x1 := f.read c.ftz a1
  let y1 := f.read c.ftz b1
  let z := fp32.read c.ftz acc
  sumTerms fp32 c (snanFlags [x0, y0, x1, y1, z]) [x0.mul y0, x1.mul y1, some z]

/-- Compares two values that are no NaN; −0 equals +0. -/
def FVal.compare (a b : FVal) : Ordering :=
  match a, b with
  | .inf s, .inf t => if s == t then .eq else if s then .lt else .gt
  | .inf s, _ => if s then .lt else .gt
  | _, .inf t => if t then .gt else .lt
  | x, y =>
    let q := if x.expo < y.expo then x.expo else y.expo
    let m := x.units q
    let n := y.units q
    if m < n then .lt else if m = n then .eq else .gt

/-- The bits of an operand after flushing (R74). -/
def Fmt.flush (f : Fmt) (ftz : Bool) (x : Nat) : Nat :=
  if ftz && f.isSub x then (if x / f.signBit % 2 == 1 then f.signBit else 0) else x

/-- Minimum and maximum (R80): −0 below +0, a number beats a NaN. -/
def fpMinMax (f : Fmt) (c : FpCtx) (max : Bool) (a b : Nat) : FRes :=
  let x := f.read c.ftz a
  let y := f.read c.ftz b
  let fl := snanFlags [x, y]
  if x.isNaN && y.isNaN then nanRes f fl
  else if x.isNaN then FRes.mk (f.flush c.ftz b) fl
  else if y.isNaN then FRes.mk (f.flush c.ftz a) fl
  else
    let aNeg := a / f.signBit % 2 == 1
    let takeA : Bool :=
      match FVal.compare x y with
      | .lt => !max
      | .gt => max
      | .eq => if max then !aNeg else aNeg
    FRes.mk (f.flush c.ftz (if takeA then a else b)) fl

/-- FRND (R276): to an integral value of the same sign, never inexact. -/
def fpRound (c : FpCtx) (a : Nat) : FRes :=
  match fp32.read c.ftz a with
  | .nan s => nanRes fp32 (if s then Flags.invalid else 0)
  | .inf _ => FRes.mk a 0
  | .fin neg m e =>
    if m = 0 then FRes.mk (fp32.zero neg) 0
    else if 0 ≤ e then FRes.mk a 0
    else
      let r := (roundAt c.mode neg m e false 0).1
      if r = 0 then FRes.mk (fp32.zero neg) 0
      else FRes.mk (roundTo fp32 (FpCtx.mk .rne false false) neg r 0 false).bits 0

/-- ICVTF and UCVTF (R277): an integer rounded to FP32. -/
def fpOfInt (mode : RMode) (v : Int) : FRes :=
  if v = 0 then FRes.mk 0 0 else roundTo fp32 (FpCtx.mk mode false false) (v < 0) v.natAbs 0 false

/-- FCVTI and FCVTUI (R278, R279). -/
def fpToInt (c : FpCtx) (lo hi : Int) (a : Nat) : Int × Flags :=
  let bad : Flags := if c.sat then Flags.saturated else Flags.invalid
  match fp32.read c.ftz a with
  | .nan _ => (0, bad)
  | .inf neg => (if neg then lo else hi, bad)
  | .fin neg m e =>
    let r := roundAt c.mode neg m e false 0
    let q : Int := if neg then -(r.1 : Int) else (r.1 : Int)
    if q < lo then (lo, bad)
    else if hi < q then (hi, bad)
    else (q, if r.2 then Flags.inexact else 0)

/-- A value of one format rounded to another (R280). -/
def fpConvert (src dst : Fmt) (c : FpCtx) (a : Nat) : FRes :=
  match src.read c.ftz a with
  | .nan s => nanRes dst (if s then Flags.invalid else 0)
  | .inf neg => infinite dst c neg 0
  | .fin neg m e => if m = 0 then FRes.mk (dst.zero neg) 0 else roundTo dst c neg m e false

/-- Unpacking (R280): exact, flushed first under FTZ, invalid for a signalling NaN only. -/
def fpWiden (src : Fmt) (ftz : Bool) (a : Nat) : FRes :=
  match src.read ftz a with
  | .nan s => nanRes fp32 (if s then Flags.invalid else 0)
  | .inf neg => FRes.mk (fp32.inf neg) 0
  | .fin neg m e =>
    if m = 0 then FRes.mk (fp32.zero neg) 0
    else FRes.mk (roundTo fp32 (FpCtx.mk .rne false false) neg m e false).bits 0

/-- FCLASS (R275). -/
def fpClass (a : Nat) : Nat :=
  let neg := a / fp32.signBit % 2 == 1
  match fp32.value a with
  | .nan s => if s then 2 ^ 8 else 2 ^ 9
  | .inf n => if n then 1 else 2 ^ 7
  | .fin _ m _ =>
    if m = 0 then (if neg then 2 ^ 3 else 2 ^ 4)
    else if fp32.isSub a then (if neg then 2 ^ 2 else 2 ^ 5)
    else (if neg then 2 else 2 ^ 6)

/-- A comparison (R274): the result of comparing two numbers, the result for a NaN, and whether a quiet NaN
is invalid. -/
def fpSet (ftz : Bool) (test : Ordering → Bool) (onNaN quietInvalid : Bool) (a b : Nat) : Bool × Flags :=
  let x := fp32.read ftz a
  let y := fp32.read ftz b
  if x.isNaN || y.isNaN then (onNaN, if quietInvalid then Flags.invalid else snanFlags [x, y])
  else (test (FVal.compare x y), 0)

end Sys2Proof.Machine
end

