-- ==== Sys2Proof/Machine/Translate.lean ====
section
/-! DEFINITION. Physical addresses (R93 to R96), the lines that L2s hold (R112), the walk (R99 to R107), cached translations
(R108, R109), and the bytes of memory at their homes. -/

namespace Sys2Proof.Machine

/-- What an access needs that is no state of this package: a die link on its way that carries flits (R171), or an operation that
another package performs at the home (R186). -/
inductive Need where
  | link (src dst : Nat)
  | access (pa n : Nat) (op : HomeOp) (data : List Byte) (expected : Word)
  deriving DecidableEq, Repr

/-- What a trap records (R418): cause, TRAPVA, TRAPAUX. Cause 0 is no trap of the part: a step that cannot go on yet, with what it
needs if that is an access. bad is the line in which an access of the part has found an error (R98). -/
structure Trap where
  raw ::
  cause : Nat
  va : Nat
  aux : Word
  need : Option Need
  bad : Option Nat
  deriving DecidableEq, Repr

/-- A trap. -/
abbrev Trap.mk (cause va : Nat) (aux : Word) : Trap := Trap.raw cause va aux none none

/-- A step that needs something first. -/
abbrev Trap.ask (va : Nat) (n : Need) : Trap := Trap.raw 0 va 0 (some n) none

/-- A step that cannot go on yet. -/
def notYet : Trap := Trap.mk 0 0 0

/-- One access, as the walk sees it (R106, R474). -/
structure Acc where
  asid : Nat
  priv : Bool
  write : Bool
  fetch : Bool
  eng : Bool
  deriving DecidableEq, Repr

/-- REASON codes of R106. -/
def reasonNotPresent : Nat := 0
/-- R106. -/
def reasonAddrForm : Nat := 1
/-- R106. -/
def reasonUnbacked : Nat := 2
/-- R106. -/
def reasonMalformed : Nat := 3
/-- R142. -/
def reasonNoAtom : Nat := 5
/-- R142. -/
def reasonNoTensor : Nat := 6
/-- R142. -/
def reasonTensorRange : Nat := 7
/-- R106. -/
def reasonNoW : Nat := 8
/-- R106. -/
def reasonNoX : Nat := 9
/-- R106. -/
def reasonNoU : Nat := 10
/-- R106. -/
def reasonInfoPage : Nat := 11
/-- R106. -/
def reasonRevoked : Nat := 12

/-- TRAPAUX of a translation fault (R106). -/
def faultAux (a : Acc) (level reason : Nat) : Word :=
  BitVec.ofNat 32 (reason + 32 * level + (if a.write then 256 else 0) + (if a.fetch then 512 else 0) +
    (if a.eng then 1024 else 0))

/-- PAGE_FAULT (R106). -/
def pageFault (a : Acc) (va level reason : Nat) : Trap := Trap.mk 0x10 va (faultAux a level reason)

/-- PROT (R106). -/
def protFault (a : Acc) (va level reason : Nat) : Trap := Trap.mk 0x11 va (faultAux a level reason)

/-- POISON (R418). -/
def poisonTrap (va : Nat) : Trap := Trap.mk 0x14 va 0

/-- POISON of an access whose first poisoned line has a number. -/
def poisonAt (va line : Nat) : Trap := Trap.raw 0x14 va 0 none (some line)

/-- The trap of an access that a table gives as a store's or as a load's: WRITE of TRAPAUX (R106). -/
def Trap.withWrite (t : Trap) (write : Bool) : Trap :=
  if t.cause == 0x10 || t.cause == 0x11 || t.cause == 0x13 then
    { t with aux := if write then t.aux ||| 0x100 else t.aux &&& 0xFFFFFEFF }
  else t

/-- The end of HBM in the local map (R94). -/
def hbmEnd : Nat := 0xC000000000

/-- The base of MMIO in the local map (R94). -/
def mmioBase : Nat := 0x200000000000

/-- The base of host-homed memory in the local map (R94). -/
def hostBase : Nat := 0x400000000000

/-- The local address of a physical address (R93). -/
def localOf (pa : Nat) : Nat := pa % 2 ^ 47

/-- The package id of a physical address (R93). -/
def pkgOf (pa : Nat) : Nat := pa / 2 ^ 47 % 512

/-- Local HBM of this package (R94). -/
def State.inHbm (s : State) (pa : Nat) : Bool := pkgOf pa == s.pkgid && localOf pa < hbmEnd

/-- The line number of a local address (R112). -/
def lineOf (la : Nat) : Nat := la / 128

/-- P of R96: the end of the interleaved pool. -/
def State.poolEnd (s : State) : Nat := (768 - 6 * s.cfg.wingib) * 2 ^ 30

/-- The home die of a local HBM address (R96). -/
def State.homeDie (s : State) (la : Nat) : Nat :=
  if la < s.poolEnd then la / 4096 % 6 else (la - s.poolEnd) / (s.cfg.wingib * 2 ^ 30)

/-- The die offset of a local HBM address at its home die (R96). -/
def State.dieOffset (s : State) (la : Nat) : Nat :=
  if la < s.poolEnd then la / 4096 / 6 * 4096 + la % 4096
  else s.poolEnd / 6 + (la - s.poolEnd - s.homeDie la * (s.cfg.wingib * 2 ^ 30))

/-- The stack that holds a local HBM address (R95): the die's two stacks alternate every 256 bytes. -/
def State.stackOf (s : State) (la : Nat) : Nat := 2 * s.homeDie la + bitsOf (s.dieOffset la) 8 8

/-- The agent that is the home of a line (R112): a die, or the host. -/
def State.lineHome (s : State) (line : Nat) : Nat := if 128 * line < hbmEnd then s.homeDie (128 * line) else 7

/-- n bytes at their home, whatever caches hold (R112). -/
def State.home (s : State) (la n : Nat) : List Byte := zread s.mem la n

/-- An L2 holds a line in M or O (R112). -/
def DirLine.dirty (d : DirLine) : Bool := d.st == .m || d.st == .o

/-- An L2 holds a line in M or O. -/
def State.dirtyLine (s : State) (line : Nat) : Bool := match sget s.dir line with | some d => d.dirty | none => false

/-- A line whose next read from HBM finds an uncorrectable error (R98): no L2 holds it. -/
def State.latent (s : State) (line : Nat) : Bool := s.ecc.contains line && (sget s.dir line).isNone

/-- A line that a read, a partial store or an atomic finds POISON, or finds uncorrectable (R98, R182). -/
def State.badLine (s : State) (line : Nat) : Bool := s.poison.contains line || s.latent line

/-- POISON of an access of the part to n bytes: of the first of its lines that is poisoned. -/
def State.poisonIn (s : State) (va la n : Nat) : Trap := poisonAt va (if s.badLine (lineOf la) then lineOf la else lineOf (la + n - 1))

/-- Whether a line of the range is such a line (R98, R181). -/
def State.poisoned (s : State) (la n : Nat) : Bool := s.badLine (lineOf la) || s.badLine (lineOf (la + n - 1))

/-- A line marked POISON (R98, R181). -/
def State.addPoison (s : State) (line : Nat) : State :=
  if s.poison.contains line then s else { s with poison := line :: s.poison }

/-- The access that finds an uncorrectable error marks its line (R98). -/
def State.found (s : State) (la : Nat) : State := if s.latent (lineOf la) then s.addPoison (lineOf la) else s

/-- The line that a trap has found in error is marked (R98). -/
def State.noteBad (s : State) (t : Trap) : State :=
  match t.bad with
  | some line => if s.latent line then s.addPoison line else s
  | none => s

/-- The agent whose L2 the accesses of this step go through (R112): the die of the lane that runs, or the engine's. -/
def State.agent (s : State) : Nat :=
  match s.focus with
  | some fo => match s.wave fo.wave with | some w => w.die | none => 6
  | none => s.run.agent

/-- The 128-byte lines that the 64 MiB of an L2 hold (R13). -/
def l2Lines : Nat := 524288

/-- An agent gives a line up: a dirty one is written back first (R112), to the host over CXL, which waits while that link is down
(R426). -/
def State.evict (s : State) (a line : Nat) : State :=
  match sget s.dir line with
  | none => s
  | some d =>
    if !bitOf d.present a then s
    else if d.dirty && d.owner == a then
      if s.lineHome line = 7 then
        if s.host.up then { s with dir := sdel s.dir line, sent := .writeBack line :: s.sent } else s
      else if d.present = 2 ^ a then { s with dir := sdel s.dir line }
      else { s with dir := sput s.dir line { d with st := .s, present := d.present - 2 ^ a, back := [] } }
    else if d.present = 2 ^ a then { s with dir := sdel s.dir line }
    else { s with dir := sput s.dir line { d with present := d.present - 2 ^ a } }

/-- An L2 that is full gives up a line, which one the manual leaves open. -/
def State.makeRoom (s : State) (a : Nat) : State :=
  let held := s.dir.filter (fun e => bitOf e.2.present a)
  if held.length < l2Lines then s
  else match held[Config.freeNat s.freeCtr 5 % held.length]? with
    | some e => s.evict a e.1
    | none => s

/-- A line listed for an agent. -/
def State.listLine (s : State) (a line : Nat) (d : DirLine) : State :=
  let s1 := if (match sget s.dir line with | some old => bitOf old.present a | none => false) then s else s.makeRoom a
  { s1 with dir := sput s1.dir line d }

/-- HBM is read for a line that no L2 holds: an error of a single symbol is corrected and counted (R98). -/
def State.readCells (s : State) (line : Nat) : State := if s.softEcc.contains line then { s with corrected := s.corrected + 1 } else s

/-- An agent receives a line to read (R112): a line that another agent than its home holds dirty is written back first; the home's
own dirty line becomes O. A host-homed line stays dirty with its owner (R113). -/
def State.receiveBy (s : State) (a line : Nat) : State :=
  match sget s.dir line with
  | none => (s.readCells line).listLine a line { st := .e, owner := a, present := 2 ^ a, back := [] }
  | some d =>
    if bitOf d.present a then s
    else if d.dirty && (d.owner == s.lineHome line || s.lineHome line == 7) then s.listLine a line { d with st := .o, present := d.present + 2 ^ a }
    else s.listLine a line { d with st := .s, present := d.present + 2 ^ a, back := [] }

/-- An agent receives a line to write (R112): every other copy goes, and it holds the line in M. Of a host-homed line the bytes
that its home still has are kept (R426). -/
def State.ownBy (s : State) (a line : Nat) : State :=
  let back :=
    if s.lineHome line = 7 then
      match sget s.dir line with
      | some d => if d.dirty then d.back else zread s.mem (128 * line) 128
      | none => zread s.mem (128 * line) 128
    else []
  s.listLine a line { st := .m, owner := a, present := 2 ^ a, back := back }

/-- An L2's line copied for a reader of the step's agent. -/
def State.receive (s : State) (la : Nat) : State := s.receiveBy s.agent (lineOf la)

/-- The frame of a leaf agrees with its KIND (R103); the host-homed window needs CXLHOST (R444). -/
def State.frameOk (s : State) (kind pa size : Nat) : Bool :=
  match kind with
  | 0 => pkgOf pa == s.pkgid && localOf pa + size ≤ hbmEnd
  | 1 => bitOf s.bringup.drvaccept 4 && pkgOf pa == s.pkgid && hostBase ≤ localOf pa && localOf pa + size ≤ hostBase + s.hostgib * 2 ^ 30
  | 2 => pkgOf pa != s.pkgid && pkgOf pa < s.podsize
  | _ => pkgOf pa == s.pkgid && mmioBase ≤ localOf pa && localOf pa + size ≤ mmioBase + 2 ^ 32

/-- The page kind of a KIND field (R102). -/
def pageKind (k : Nat) : PageKind :=
  match k with
  | 0 => .hbm
  | 1 => .host
  | 2 => .remote
  | _ => .mmio

/-- The number of entries of a page at a level (R104); none is malformed. -/
def groupSize (level size : Nat) : Option Nat :=
  match level, size with
  | 1, 0 => some 1
  | 1, 1 => some 4
  | 1, 2 => some 16
  | 1, 3 => some 64
  | 2, 0 => some 1
  | 2, 1 => some 4
  | 2, 2 => some 16
  | 2, 3 => some 64
  | 2, 4 => some 256
  | 3, 0 => some 1
  | _, _ => none

/-- The bytes one entry of a level reaches (R101). -/
def levelReach (level : Nat) : Nat := 2 ^ (12 + 9 * (level - 1))

/-- A leaf entry as a page, or the reason it is none: malformation, then KIND against FRAME (R103, R107). -/
def State.leafPage (s : State) (va level pte : Nat) : Except Nat Page :=
  match groupSize level (bitsOf pte 10 8) with
  | none => .error reasonMalformed
  | some n =>
    let size := n * levelReach level
    let pa := bitsOf pte 55 12 * 4096
    if pa % size != 0 || (bitOf pte 7 && level != 1) then .error reasonMalformed
    else if s.frameOk (bitsOf pte 5 4) pa size then
      .ok (Page.mk (pageKind (bitsOf pte 5 4)) (va / size * size) size pa level (bitOf pte 1) (bitOf pte 2) (bitOf pte 3))
    else .error reasonUnbacked

/-- The die links between two agents in one direction of the ring, from a die on, over k hops (R164): SRLi joins SDi and SD(i+1). -/
def ringUp (i k : Nat) : List Nat := (List.range k).map (fun j => 6 + (i + j) % 6)

/-- The same in the direction of decreasing die number. -/
def ringDown (i k : Nat) : List Nat := (List.range k).map (fun j => 6 + (i + 5 - j) % 6)

/-- The ways from one die to another in the order of R164: fewer hops, at three hops the direction of increasing number; the other
direction; through Pavilion. -/
def diePaths (src dst : Nat) : List (List Nat) :=
  let up := (dst + 6 - src) % 6
  let first := if up ≤ 3 then ringUp src up else ringDown src (6 - up)
  let second := if up ≤ 3 then ringDown src (6 - up) else ringUp src up
  [first, second, [src, dst]]

/-- The ways between two agents, dies 0 to 5 and Pavilion 6 (R164). -/
def paths (src dst : Nat) : List (List Nat) :=
  if src = dst then [[]]
  else if 6 ≤ src then [[dst]]
  else if 6 ≤ dst then [[src]]
  else diePaths src dst

/-- A link. -/
def State.link (s : State) (i : Nat) : LinkRegs := (s.links[i]?).getD LinkRegs.reset

/-- The way that traffic takes between two agents (R164): the first on which no link is DOWN. -/
def State.way (s : State) (src dst : Nat) : Option (List Nat) :=
  (paths src dst).find? (fun p => p.all (fun i => !(s.link i).down))

/-- An access can cross to its home now (R171): its way has no link that retrains. Where there is no way at all it waits.
DESIGN CHOICE, log entry 89. -/
def State.reach (s : State) (src dst : Nat) : Bool :=
  match s.way src dst with
  | some p => p.all (fun i => !(s.link i).busy)
  | none => false

/-- The walk from a level down (R101, R107), over the levels still to read; a table behind a die link that retrains is waited for (R171).
Of a page group any one entry may be the one that is used (R105), with all the checks of an entry. SIZE of a non-leaf entry is ignored.
DESIGN CHOICE, log entry 86. -/
def State.walkFrom (s : State) (a : Acc) (va : Nat) (levels : List Nat) (frame : Nat) : Except Trap Page :=
  match levels with
  | [] => .error (pageFault a va 0 reasonMalformed)
  | level :: rest =>
    let idx := va / levelReach level % 512
    let table := localOf (frame * 4096)
    let read (i : Nat) : Nat := leNat (s.home (table + 8 * i) 8)
    let first := read idx
    let n := if bitOf first 0 && bitOf first 6 then (groupSize level (bitsOf first 10 8)).getD 1 else 1
    let used := if n ≤ 1 then idx else idx / n * n + Config.groupEntry s.freeCtr va % n
    let pte := read used
    if !s.reach s.agent (s.homeDie table) then .error (Trap.ask va (.link s.agent (s.homeDie table)))
    else if s.poisoned (table + 8 * idx) 8 then .error (s.poisonIn va (table + 8 * idx) 8)
    else if s.poisoned (table + 8 * used) 8 then .error (s.poisonIn va (table + 8 * used) 8)
    else if !bitOf pte 0 then
      if bitOf pte 6 && bitOf pte 7 then .error (Trap.mk 0x13 va (faultAux a level reasonRevoked))
      else .error (pageFault a va level reasonNotPresent)
    else if bitOf pte 6 then
      match s.leafPage va level pte with
      | .ok p => .ok p
      | .error r => .error (pageFault a va level r)
    else if level = 1 || !s.inHbm (bitsOf pte 55 12 * 4096) then .error (pageFault a va level reasonMalformed)
    else s.walkFrom a va rest (bitsOf pte 55 12)

/-- XLATEN, the context-table entry, and the walk (R97, R100, R107). Of CTXROOT the local address counts. DESIGN CHOICE, log
entry 87. -/
def State.walk (s : State) (a : Acc) (va : Nat) : Except Trap Page :=
  if !s.cfg.xlaten then .error (pageFault a va 0 reasonNotPresent)
  else
    let entry := localOf (s.cfg.ctxroot * 4096 + 16 * a.asid)
    if !s.reach s.agent (s.homeDie entry) then .error (Trap.ask va (.link s.agent (s.homeDie entry)))
    else if s.poisoned entry 16 then .error (s.poisonIn va entry 16)
    else
      let e := leNat (s.home entry 16)
      if !bitOf e 0 then .error (pageFault a va 0 reasonNotPresent)
      else if !s.inHbm (bitsOf e 55 12 * 4096) then .error (pageFault a va 0 reasonMalformed)
      else s.walkFrom a va [5, 4, 3, 2, 1] (bitsOf e 55 12)

/-- U, then W or X, at the leaf (R107, R474). -/
def Page.check (p : Page) (a : Acc) (va : Nat) : Option Trap :=
  if !a.priv && !p.u then some (protFault a va p.level reasonNoU)
  else if a.write && !p.w then some (protFault a va p.level reasonNoW)
  else if a.fetch && !p.x then some (protFault a va p.level reasonNoX)
  else none

/-- The walk with its leaf checks. -/
def State.fresh (s : State) (a : Acc) (va : Nat) : Except Trap Page :=
  match s.walk a va with
  | .error t => .error t
  | .ok p =>
    match p.check a va with
    | some t => .error t
    | none => .ok p

/-- Where a translated access goes: the page, and the physical address of the byte. -/
structure Target where
  kind : PageKind
  pa : Nat
  page : Option Page
  deriving DecidableEq, Repr

/-- LEVEL of the leaf that a target was found by (R106). -/
def Target.level (t : Target) : Nat := match t.page with | some p => p.level | none => 0

/-- The virtual address of the device information page (R20). -/
def infoVa : Nat := 0x10000

/-- The levels of a walk from one down. -/
def levelsFrom (n : Nat) : List Nat := (List.range n).reverse.map (fun i => i + 1)

/-- The tables that a walk of an address reads, from a level down (R101, R108). -/
def State.tablesFrom (s : State) (asid va : Nat) (levels : List Nat) (frame : Nat) : List TableEntry :=
  match levels with
  | [] => []
  | level :: rest =>
    let pte := leNat (s.home (localOf (frame * 4096) + 8 * (va / levelReach level % 512)) 8)
    { asid := asid, level := level, base := va / levelReach (level + 1), frame := frame } ::
      (if bitOf pte 0 && !bitOf pte 6 then s.tablesFrom asid va rest (bitsOf pte 55 12) else [])

/-- The tables of a walk of an address in its context. -/
def State.tablesOf (s : State) (asid va : Nat) : List TableEntry :=
  let e := leNat (s.home (localOf (s.cfg.ctxroot * 4096 + 16 * asid)) 16)
  if bitOf e 0 then s.tablesFrom asid va (levelsFrom 5) (bitsOf e 55 12) else []

/-- The pages to which non-leaf entries left cached by an older generation lead (R108, R109). -/
def State.staleTables (s : State) (a : Acc) (va : Nat) : List Page :=
  match s.tables.filter (fun c => c.asid == a.asid && c.base == va / levelReach (c.level + 1)) with
  | [] => []
  | c :: cs =>
    let path := s.tablesOf a.asid va
    ((c :: cs).filter (fun c => !path.contains c)).filterMap (fun c =>
      match s.walkFrom a va (levelsFrom c.level) c.frame with
      | .ok p => some p
      | .error _ => none)

/-- The translations of an address that an older generation left cached, or that lie behind a non-leaf entry left so, and that differ
from the tables (R108, R109), of those that permit the access (R107); none while XLATEN is 0 (R97). -/
def State.staleFor (s : State) (a : Acc) (va : Nat) (now : Option Page) : List Page :=
  if !s.cfg.xlaten then []
  else
    let cached := (s.tlb.filter (fun e => e.asid == a.asid && e.page.vbase ≤ va && va < e.page.vbase + e.page.size)).map TlbEntry.page
    (cached ++ s.staleTables a va).filter (fun p => (some p != now) && (p.check a va).isNone)

/-- The target of a page. -/
def Page.target (p : Page) (va : Nat) : Target := Target.mk p.kind (p.pa + va % p.size) (some p)

/-- Translation in the order of R107: form, information page, then the walk; while a stale cached translation
is left, the part may use it instead (R109), and a cached one serves while a walk waits for a die link. DESIGN CHOICE, log entry 20. -/
def State.translate (s : State) (a : Acc) (va : Nat) : Except Trap Target :=
  if va / 2 ^ 57 != 0 then .error (pageFault a va 0 reasonAddrForm)
  else if infoVa ≤ va && va < infoVa + 4096 then
    if a.write || a.fetch then .error (protFault a va 0 reasonInfoPage)
    else .ok (Target.mk .info (va - infoVa) none)
  else
    let fresh := s.fresh a va
    let now := match fresh with | .ok p => some p | .error _ => none
    match s.staleFor a va now with
    | [] =>
      match fresh with
      | .ok p => .ok (p.target va)
      | .error t => .error t
    | p :: _ =>
      let held := match fresh with | .error t => t.cause == 0 | .ok _ => false
      if Config.choice s.freeCtr va || held then .ok (p.target va)
      else
        match fresh with
        | .ok p => .ok (p.target va)
        | .error t => .error t

/-- The lines that a walk of an address reads (R100, R101). -/
def State.walkLines (s : State) (asid va : Nat) : List Nat :=
  lineOf (localOf (s.cfg.ctxroot * 4096 + 16 * asid)) ::
    (s.tablesOf asid va).map (fun c => lineOf (localOf (c.frame * 4096) + 8 * (va / levelReach c.level % 512)))

/-- A translation that was used is cached, with the non-leaf entries on its way (R108), whose lines the walker has read through the
memory system (R101, R112). -/
def State.noteTlb (s : State) (asid : Nat) (t : Target) : State :=
  match t.page with
  | none => s
  | some p =>
    if s.tlb.contains (TlbEntry.mk asid p) then s
    else
      let path := (s.tablesOf asid p.vbase).filter (fun c => !s.tables.contains c)
      (s.walkLines asid p.vbase).foldl (fun u n => u.receiveBy s.agent n) { s with tlb := TlbEntry.mk asid p :: s.tlb, tables := path ++ s.tables }

/-- The state as the L2 of a die sees its step. -/
def State.atDie (s : State) (die : Nat) : State := { s with focus := none, run := { s.run with agent := die } }

/-- A translation used by an agent of a die cached. -/
def State.noteAt (s : State) (die asid : Nat) (t : Target) : State :=
  { ((s.atDie die).noteTlb asid t) with focus := s.focus, run := s.run }

/-- Advances a context's generation: no older translation, and no older non-leaf entry, remains (R108). -/
def State.advanceGen (s : State) (asid : Nat) : State :=
  { (s.modCtx asid (fun c => { c with gen := c.gen + 1 })) with tlb := s.tlb.filter (fun e => e.asid != asid),
                                                                tables := s.tables.filter (fun c => c.asid != asid) }

/-- The generation under which an access that CXL has yet to answer was translated, where a lane waits for one (R108, R426). -/
def Lane.hostGen (ln : Lane) : Option Nat :=
  match ln.wait with
  | some wt => if wt.kind == .cxl && wt.status.isNone then some (leNat ((wt.bytes.drop 8).take 8)) else none
  | none => none

/-- An access translated under an older generation of a context, or of any, has yet to be performed (R108): a lane copy, a request
to another package, or an access to the host. -/
def State.olderAccess (s : State) (asid : Option Nat) (gen : Nat) : Bool :=
  let older (a g : Nat) : Bool := match asid with | some x => a == x && decide (g < gen) | none => decide (g < (s.ctx a).gen)
  s.cores.any (fun e => e.2.copies.any (fun c => older c.asid c.tgen)) || s.fabric.out.any (fun e => older e.2.asid e.2.tgen) ||
    s.waves.any (fun e => e.2.lanes.any (fun x => match x.2.hostGen with | some g => older e.2.asid g | none => false))

/-- The bytes of a line as a cache copies them. -/
def State.lineBytes (s : State) (line : Nat) : List Byte := s.home (line * 128) 128

/-- n bytes of a line copy. -/
def sliceOf (copy : List Byte) (la n : Nat) : List Byte := (copy.drop (la % 128)).take n

/-- Bytes fetched through a core's instruction cache: where its copy of the line is stale, old or new (R366);
the line is then cached. DEDUCED, log entry 21. -/
def State.fetchBytes (s : State) (core la n : Nat) : List Byte × State :=
  let now := s.lineBytes (lineOf la)
  let fill (t : State) : State :=
    (t.receiveBy (core / 64) (lineOf la)).modCore core (fun c => { c with icache := sput c.icache (lineOf la) now })
  match sget (s.core core).icache (lineOf la) with
  | some old =>
    if old = now then (sliceOf now la n, s)
    else if Config.choice s.freeCtr la then (sliceOf old la n, s)
    else (sliceOf now la n, fill s)
  | none => (sliceOf now la n, fill s)

/-- Why a host-homed access fails (R426): the KIND of its HOST_FAULT. A line an L2 holds dirty is answered there.
DESIGN CHOICE, log entry 70. -/
def State.hostFault (s : State) (la : Nat) : Option Nat :=
  if la < hostBase || s.dirtyLine (lineOf la) then none
  else if !s.host.up then some 4
  else sget s.host.answers (lineOf la)

/-- HOST_FAULT (R426). -/
def hostTrap (va kind : Nat) : Trap := Trap.mk 0x15 va (BitVec.ofNat 32 kind)

/-- A fetch that the instruction cache serves without its home: a copy that is up to date, or a stale one that is used (R366).
DEDUCED, log entry 22. -/
def State.fetchCached (s : State) (core la : Nat) : Bool :=
  match sget (s.core core).icache (lineOf la) with
  | some old => old == s.lineBytes (lineOf la) || Config.choice s.freeCtr la
  | none => false

/-- The page kinds whose lines caches may hold (R113). -/
def PageKind.cached (k : PageKind) : Bool :=
  match k with
  | .hbm | .host => true
  | .remote | .mmio | .info => false

/-- The agent to which an access of a page kind goes from its die: the home die, or Pavilion. -/
def State.homeOf (s : State) (k : PageKind) (pa : Nat) : Nat :=
  match k with
  | .hbm => s.homeDie (localOf pa)
  | .host | .remote | .mmio | .info => 6

/-- The number of a line of another package in an instruction cache. -/
def remoteLine (pa : Nat) : Nat := 2 ^ 49 + pa / 128

/-- A fetch of n bytes within one line at a target (R26, R147, R250): what has to cross a die link that retrains waits (R171); poisoned
lines trap, whatever the instruction cache holds (DESIGN CHOICE, log entry 88), and a host-homed line that its home does not give
(R426). A line of another package is asked for whole, and kept in the instruction cache. DEDUCED, log entry 105. Of an MMIO page no
fetch is aligned to a w or 2w access (R103). -/
def State.fetchFrom (s : State) (core : Nat) (a : Acc) (va n : Nat) (t : Target) : Except Trap (List Byte × State) :=
  let die := core / 64
  let la := localOf t.pa
  match t.kind with
  | .hbm | .host =>
    if !s.fetchCached core la && !s.reach die (s.homeOf t.kind t.pa) then .error (Trap.ask va (.link die (s.homeOf t.kind t.pa)))
    else if s.poisoned la n then .error (s.poisonIn va la n)
    else
      match if s.fetchCached core la then none else s.hostFault la with
      | some k => .error (hostTrap va k)
      | none => .ok ((s.fetchBytes core la n).1, (s.fetchBytes core la n).2.noteAt die a.asid t)
  | .remote =>
    match sget (s.core core).icache (remoteLine t.pa) with
    | some copy => .ok (sliceOf copy t.pa n, s.noteAt die a.asid t)
    | none =>
      if s.reach die 6 then .error (Trap.ask va (.access (t.pa / 128 * 128) 128 .load [] 0)) else .error (Trap.ask va (.link die 6))
  | .mmio => .error (Trap.mk 0x12 va 0)
  | .info => .error (pageFault a va 0 reasonUnbacked)

/-- The access of a fetch. -/
def fetchAcc (asid : Nat) (priv : Bool) : Acc := Acc.mk asid priv false true false

/-- A fetch, LDL or descriptor read of n bytes within one line, translated with the X permission. -/
def State.fetchAt (s : State) (core asid : Nat) (priv : Bool) (va n : Nat) : Except Trap (List Byte × State) :=
  match (s.atDie (core / 64)).translate (fetchAcc asid priv) va with
  | .error t => .error t
  | .ok t => s.fetchFrom core (fetchAcc asid priv) va n t

/-- A target is within reach of the step's agent; the device information page is in every die. -/
def State.reachable (s : State) (t : Target) : Bool := t.kind == .info || s.reach s.agent (s.homeOf t.kind t.pa)

/-- An access that waits for a die link (R171). -/
def State.linkTrap (s : State) (t : Target) : Trap := Trap.ask 0 (.link s.agent (s.homeOf t.kind t.pa))

/-- What an engine's access to another package is, before its answer: the failure that has come instead (R103, R182, R190), or
the operation it needs. DESIGN CHOICE, log entry 85. -/
def State.needs (s : State) (a : Acc) (va : Nat) (t : Target) (n : Nat) (op : HomeOp) (data : List Byte) (expected : Word) : Trap :=
  match s.run.failed with
  | some (cause, aux) =>
    if cause = 0x10 then pageFault a va t.level reasonUnbacked else Trap.mk cause va aux
  | none =>
    if s.reachable t then Trap.ask va (.access t.pa n op data expected) else s.linkTrap t

end Sys2Proof.Machine
end

