-- ==== Sys2Proof/Machine/Ops.lean ====
section
/-! DEFINITION. The shared operations over lanes: operands and results (R27, R246, R247), the end of an
instruction, barriers (R304 to R307), the end of a lane (R302), taking a trap (R419 to R423) and the return
from one (R425), and running an issue group lane by lane. -/

namespace Sys2Proof.Machine

/-- An operand as a lane reads it (R27). -/
def readOpd (w : Wave) (l : Nat) (ln : Lane) (o : Opd) : Word :=
  match o with
  | .b r => ln.bank.reg r.toNat
  | .e0 => ln.bank.e0
  | .e1 => ln.bank.e1
  | .z => 0
  | .ln => BitVec.ofNat 32 l
  | .wv => BitVec.ofNat 32 w.wv
  | .g r => w.greg r.toNat

/-- The k-th register after an operand, for pairs and groups (R28, R29). -/
def opdPlus (o : Opd) (k : Nat) : Opd :=
  match o with
  | .b r => .b (r + BitVec.ofNat 5 k)
  | .g r => .g (r + BitVec.ofNat 4 k)
  | .e0 => .e0
  | .e1 => .e1
  | .z => .z
  | .ln => .ln
  | .wv => .wv

/-- A 64-bit pair, the even register low (R28). -/
def readPair (w : Wave) (l : Nat) (ln : Lane) (o : Opd) : BitVec 64 :=
  readOpd w l ln (opdPlus o 1) ++ readOpd w l ln o

/-- Words into consecutive b registers of a bank. -/
def Bank.setRegs (k : Bank) (r : Nat) (ws : List Word) : Bank :=
  match ws with
  | [] => k
  | v :: rest => ({ k with b := sput k.b r v }).setRegs (r + 1) rest

/-- The e-file after a result: e0 takes the word of the lowest-numbered destination, e1 the previous e0
(R49, R246). -/
def Bank.record (k : Bank) (v : Word) : Bank := { k with e0 := v, e1 := k.e0 }

/-- A bank with a result written to a destination: b registers, and the e-file for every destination. -/
def Bank.result (k : Bank) (d : Opd) (ws : List Word) : Bank :=
  let k' :=
    match d with
    | .b r => k.setRegs r.toNat ws
    | .e0 | .e1 | .z | .ln | .wv | .g _ => k
  k'.record (ws.headD 0)

/-- Words into consecutive g registers (R247). -/
def Wave.setG (w : Wave) (r : Nat) (ws : List Word) : Wave :=
  match ws with
  | [] => w
  | v :: rest => ({ w with g := sput w.g r v, gWait := overBy (fun q => q == r) w.gWait }).setG (r + 1) rest

/-- The bank when its instruction is over: the next one is not counted yet, and no REGION is expected. -/
def Bank.over (k : Bank) : Bank := { k with counted := false, expect := 0 }

/-- A lane whose instruction is complete: at the next PC, waiting for nothing. -/
def Lane.advance (ln : Lane) (pc : VA) : Lane :=
  { ln with pc := pc, wait := none, user := if ln.inTrap then ln.user else ln.user.over,
            trap := if ln.inTrap then ln.trap.over else ln.trap, parked := ln.parked.filter (fun q => q.inTrap != ln.inTrap) }

/-- How one lane's part of an instruction ends. -/
inductive Out where
  /-- Complete, with a result for a destination if there is one, and flags for FPFLAGS. -/
  | done (dst : Option Opd) (ws : List Word) (flags : Flags)
  /-- Complete as a masked-off lane: the word it keeps or clears (R44). -/
  | masked (dst : Opd) (v : Word)
  /-- Complete, at another PC, with what the region rules expect there (R254). -/
  | jump (pc : VA) (expect : Nat)
  /-- A trap; next when its default resume is NEXT whatever the cause says (R150). -/
  | trap (t : Trap) (next : Bool)
  /-- The lane waits. -/
  | wait (k : WaitKind)
  /-- The lane goes on waiting as it is. -/
  | hold
  /-- The lane ends (R302). -/
  | exit
  /-- Complete, with a word for a g register (false) or a wave-scope control register (true) by index, which
  the lowest-numbered lane stores; no result (R247, R257, R258). -/
  | shared (ctl : Bool) (idx : Nat) (v : Word)
  /-- The instruction has set the lane itself. -/
  | set
  deriving DecidableEq, Repr

/-- FPFLAGS with flags raised (R78). -/
def Lane.raise (ln : Lane) (fl : Flags) : Lane := { ln with fpflags := ln.fpflags ||| BitVec.zeroExtend 32 fl }

/-- Private bytes as they read: those not written yet are unspecified (R118). DESIGN CHOICE, log entry 8. -/
def State.privRead (s : State) (l : Nat) (ln : Lane) (o n : Nat) : List Byte :=
  (List.range n).map (fun i => sgetD ln.priv (o + i) (Config.freeByte s.freeCtr (64 * (o + i) + l)))

/-- Private bytes written. -/
def Lane.privWrite (ln : Lane) (o : Nat) (bs : List Byte) : Lane :=
  match bs with
  | [] => ln
  | v :: r => ({ ln with priv := sput ln.priv o v }).privWrite (o + 1) r

/-- The key of a quad, die, package or pod barrier in State.bars. -/
def barKey (level inst index : Nat) : Nat := level * 65536 + inst * 16 + index

/-- The physical core of a logical one (R18): the enabled physical cores in increasing order. DESIGN CHOICE, log entry 5. -/
def physCore (mask core : Nat) : Nat := ((List.range 36).filter (fun p => bitOf mask p)).getD core 36

/-- A barrier: level 0 of a wave, 1 of a block, the others of the package (R304). -/
def State.barrier (s : State) (level inst index : Nat) : Barrier :=
  match level with
  | 0 => match s.wave inst with | some w => w.barrier | none => Barrier.off
  | 1 => match sget s.blocks inst with | some k => sgetD k.barriers index Barrier.start | none => Barrier.off
  | _ => sgetD s.bars (barKey level inst index) Barrier.off

/-- The state with a barrier replaced. -/
def State.setBarrier (s : State) (level inst index : Nat) (b : Barrier) : State :=
  match level with
  | 0 => s.modWave inst (fun w => { w with barrier := b })
  | 1 => s.modBlock inst (fun k => { k with barriers := sput k.barriers index b })
  | _ => { s with bars := sput s.bars (barKey level inst index) b }

/-- The non-exited lanes of a block. -/
def State.blockLanes (s : State) (k : Nat) : Nat :=
  s.waves.foldl (fun n e => if e.2.block = k then n + e.2.lanes.length else n) 0

/-- EXPECTED of a barrier: the non-exited lanes when dynamic (R306). -/
def State.expectedOf (s : State) (level inst : Nat) (b : Barrier) : Nat :=
  if b.dynamic then
    match level with
    | 0 => match s.wave inst with | some w => w.lanes.length | none => 0
    | _ => s.blockLanes inst
  else b.expected

/-- A wait that an event ends with a status. -/
def Wait.release (w : Wait) (p : WaitKind → Bool) (status : Nat) (value : Word) (bytes : List Byte) : Wait :=
  if p w.kind && w.status.isNone then { w with status := some status, value := value, bytes := bytes } else w

/-- Every waiting lane whose wait meets a condition gets a status; it goes on when it is next selected. -/
def State.release (s : State) (p : WaitKind → Bool) (status : Nat) (value : Word) (bytes : List Byte) : State :=
  { s with waves := s.waves.map (fun e =>
      (e.1, { e.2 with lanes := e.2.lanes.map (fun x =>
        (x.1, { x.2 with wait := x.2.wait.map (fun w => w.release p status value bytes),
                         parked := x.2.parked.map (fun q => { q with wait := q.wait.release p status value bytes }) })) })) }

/-- A pod barrier held on another package (R304): its state here follows that package's messages. -/
def State.heldElsewhere (s : State) (level index : Nat) : Bool := level == 5 && index % s.podsize != s.pkgid

/-- The end of a phase: PHASE + 1, ARRIVED 0, the waiters of the phase released with a status (R307). -/
def State.endPhase (s : State) (level inst index : Nat) (status : Nat) : State :=
  let b := s.barrier level inst index
  let s0 := if level = 5 && !s.heldElsewhere level index then s.tellPod index (.phaseEnd b.phase status) else s
  let s1 := s0.setBarrier level inst index { b with phase := b.phase + 1, arrived := 0, away := 0 }
  s1.release (fun k => k == .barrier level inst index b.phase) status 0 []

/-- One arrival at a barrier that is ON (R307). -/
def State.arrive (s : State) (level inst index : Nat) : State :=
  let b := s.barrier level inst index
  if s.heldElsewhere level index then s.tellPod index (.arrive b.owner 1)
  else if b.arrived + 1 < s.expectedOf level inst b then
    s.setBarrier level inst index { b with arrived := b.arrived + 1 }
  else s.endPhase level inst index 0

/-- A dynamic barrier whose count an exit has met ends its phase (R306, R307). -/
def State.recheck (s : State) (level inst index : Nat) : State :=
  let b := s.barrier level inst index
  if b.on && b.dynamic && b.arrived != 0 && decide (s.expectedOf level inst b ≤ b.arrived) then
    s.endPhase level inst index 0
  else s

/-- The open instance at a PC (R287). -/
def instAt (w : Wave) (pc : VA) : Option XInst := w.insts.find? (fun x => x.pc == pc)

/-- The wave with the instance at its PC put in, or taken out when none. -/
def Wave.setInst (w : Wave) (pc : VA) (x : Option XInst) : Wave :=
  let others := w.insts.filter (fun y => y.pc != pc)
  { w with insts := match x with | some x => x :: others | none => others }

/-- Whether every remaining lane of an instance's set has arrived. -/
def XInst.complete (x : XInst) : Bool := x.set.all (fun l => x.arrived.any (fun a => a.lane == l))

/-- An instance without a lane that has gone (R287). -/
def XInst.leave (x : XInst) (l : Nat) : XInst :=
  { x with set := x.set.filter (fun j => j != l), arrived := x.arrived.filter (fun a => a.lane != l) }

/-- The end of a lane (R302): it leaves its wave, every instance and every dynamic barrier count; an instance none of whose lanes
remains is closed (R287). The end of the wave itself is a later step (R365). -/
def State.endLane (s : State) (u l : Nat) : State :=
  match s.wave u with
  | none => s
  | some w =>
    let w' := { w with lanes := sdel w.lanes l, insts := (w.insts.map (fun x => x.leave l)).filter (fun x => !x.set.isEmpty) }
    let s1 := (s.setWave u w').recheck 0 u 0
    (List.range 16).foldl (fun t i => t.recheck 1 w.block i) s1

/-- The trap registers c256 to c261 (R420). -/
def Lane.trapRegs (ln : Lane) : List Word := [ln.cause, ln.trapPc, ln.vaLo, ln.vaHi, ln.aux, ln.trapRegion]

/-- EXIT (R302): the lane's registers are dropped (R254), but its trap registers hold their values (R420). DESIGN CHOICE, log entry 108. -/
def State.exitLane (s : State) (u l : Nat) : State :=
  match s.lane u l with
  | none => s
  | some ln => { s with exited := (u, l, ln.trapRegs) :: s.exited }.endLane u l

/-- A halfword fetched for a lane (R26). -/
def State.fetchHalf (s : State) (w : Wave) (priv : Bool) (va : Nat) : Except Trap (BitVec 16 × State) :=
  match s.fetchAt w.coreKey w.asid priv va 2 with
  | .error t => .error t
  | .ok (bs, s') => .ok (BitVec.ofNat 16 (leNat bs), s')

/-- A word of code at an even address: two halfwords, the first one's fault first (R26). -/
def State.fetchWord (s : State) (w : Wave) (priv : Bool) (va : Nat) : Except Trap (Word × State) :=
  match s.fetchHalf w priv va with
  | .error t => .error t
  | .ok (lo, s1) =>
    match s1.fetchHalf w priv (va + 2) with
    | .error t => .error t
    | .ok (hi, s2) => .ok (hi ++ lo, s2)

/-- A word is a REGION. -/
def isRegionWord (v : Word) : Bool :=
  match decodeWord v with
  | .ok (.region _) => v.getLsbD 0
  | _ => false

/-- Whether the instruction at an address decodes to REGION: the word that its fetch brings, once the die links on its way are
free (R171). Of a word that another package has to give the handler's first fetch tells. -/
def State.regionAt (s : State) (w : Wave) (va : Nat) : Bool :=
  match ({ s with links := [] } : State).fetchWord w true va with
  | .ok (v, _) => isRegionWord v
  | .error t => t.cause == 0

/-- A class R cause of R418. -/
def restartable (cause : Nat) : Bool :=
  (0x10 ≤ cause && cause ≤ 0x15) || cause == 0x20 || cause == 0x29

/-- The default resume of a cause (R418): 0 RETRY, 1 NEXT, 2 RESTART. -/
def defaultResume (cause : Nat) (inTail next : Bool) : Nat :=
  if next then 1
  else if restartable cause then (if inTail then 0 else 2)
  else if cause == 0x28 || cause == 0x3D || cause == 0x3E || cause == 0x3F then 1
  else 0

/-- LEN of PRIVSTATE (R421). -/
def lenCode (len : Nat) : Nat := if len = 2 then 0 else if len = 4 then 1 else 2

/-- The length that LEN stands for. -/
def lenOf (code : Nat) : Nat := if code = 0 then 2 else if code = 1 then 4 else 8

/-- PRIVSTATE as trap entry writes it (R419, R421). -/
def entryState (pcPriv : Bool) (resume len : Nat) (pc : VA) : Word :=
  (1#1) ++ BitVec.ofBool pcPriv ++ (1#1) ++ BitVec.ofNat 2 resume ++ BitVec.ofNat 2 (lenCode len) ++ pc.extractLsb' 32 25

/-- TRAPREGION (R420). -/
def regionWord (k : Bank) : Word :=
  BitVec.ofBool (k.tail != 0) ++ BitVec.ofNat 5 k.tail ++ (0#26)

/-- The handler's address in TRAPVEC (R420). -/
def handlerPc (vec : Word) : VA := ((vec &&& 0xFFFFFFFE).zeroExtend 64)

/-- A lane at the entry of its handler (R419 to R421): the trap registers recorded, the user bank frozen, the
trap bank fresh, with a REGION to come. -/
def Lane.enter (ln : Lane) (t : Trap) (next : Bool) (len : Nat) (vec : Word) : Lane :=
  { ln with
    cause := BitVec.ofNat 32 t.cause
    trapPc := ln.pc.extractLsb' 0 32
    vaLo := BitVec.ofNat 32 t.va
    vaHi := BitVec.ofNat 32 (t.va / 2 ^ 32)
    aux := t.aux
    trapRegion := regionWord ln.user
    privState := entryState ln.isPriv (defaultResume t.cause (ln.user.tail != 0) next) len ln.pc
    trap := { Bank.fresh (handlerPc vec) with expect := 1 }
    pc := handlerPc vec
    wait := none
    held := none }

/-- A fatal trap (R423): counted, and the lane ends as EXIT does, its banks and trap registers dropped. -/
def State.fatal (s : State) (u l : Nat) : State := ({ s with fatalTraps := s.fatalTraps + 1 }).endLane u l

/-- A lane that stops for a pre-emption, which a restartable fault in a body does not delay (R424). -/
def stopsFirst (w : Wave) (ln : Lane) (t : Trap) : Bool := w.st == .saving && restartable t.cause && ln.bank.tail == 0

/-- Taking a trap (R419): none where the lane stops for a pre-emption; fatal in a handler, without TRAPVEC, or where the
instruction at TRAPVEC is not REGION. DEDUCED, log entry 18. DEDUCED, log entry 80. A line that the access has found in error is marked
first (R98). -/
def takeTrap (s0 : State) (u l : Nat) (t : Trap) (next : Bool) (len : Nat) : State :=
  let s := s0.noteBad t
  match s.wave u with
  | none => s
  | some w =>
    match w.lane l with
    | none => s
    | some ln =>
      let vec := (s.ctx w.asid).trapVec
      if stopsFirst w ln t then s.setWave u (w.setLane l { ln with wait := none, held := none })
      else if ln.inTrap || vec == 0 || !s.regionAt w (handlerPc vec).toNat then s.fatal u l
      else s.setWave u (w.setLane l (ln.enter t next len vec))

/-- What an interrupted instruction of the user bank has done so far counts only where that instruction is executed again (R254, R308,
R386). -/
def Lane.resumeAt (ln : Lane) (pc : VA) : Lane :=
  { ln with pc := pc, joined := ln.joined.filter (fun j => j.1 == pc), parked := ln.parked.filter (fun q => !q.inTrap && q.pc == pc) }

/-- The return from a trap (R425), once its control word is checked: the user bank selected, PRIV restored, the
value written to a user b register if WRITE is 1, and the resume of PRIVSTATE. -/
def Lane.leaveTrap (ln : Lane) (v c : Word) : Lane :=
  let resume := wbits ln.privState 28 27
  let pcfull : VA := (0#7) ++ ln.privState.extractLsb' 0 25 ++ ln.trapPc
  let user := if c.getLsbD 31 then (ln.user.setRegs (wbits c 4 0) [v]).record v else ln.user
  let ps := (ln.privState &&& 0x5FFFFFFF) ||| (if ln.privState.getLsbD 30 then 0x80000000 else 0)
  if resume = 1 then
    { ln with user := user.over, privState := ps, wait := none,
              pc := pcfull + BitVec.ofNat 64 (lenOf (wbits ln.privState 26 25)), joined := none, parked := [] }
  else if resume = 2 then
    { ln with user := { user with restart := true, expect := 0 }, privState := ps, wait := none, pc := user.restartPc, joined := none,
              parked := [] }
  else { ln with user := user, privState := ps, wait := none }.resumeAt pcfull

/-- A lane that begins to wait, with a word and bytes of the wait's own; what has been answered to its instruction so far stays. -/
def State.waitWith (s : State) (u l : Nat) (k : WaitKind) (v : Word) (bytes : List Byte) : State :=
  ({ s with ticket := s.ticket + 1 } : State).modLane u l (fun ln =>
    { ln with wait := some { kind := k, ticket := s.ticket, status := none, value := v, bytes := bytes, acks := match ln.wait with | some wt => wt.acks | none => [] } })

/-- One lane's end of an instruction put into the state; gDone says that a lower lane has stored the
instruction's g destination (R247). -/
def applyOut (s : State) (fo : Focus) (l : Nat) (gDone : Bool) (o : Out) : State × Bool :=
  let nextPc := fo.pc + BitVec.ofNat 64 fo.len
  match o with
  | .done none _ fl => (s.modLane fo.wave l (fun ln => (ln.advance nextPc).raise fl), gDone)
  | .done (some d) ws fl =>
    let s1 := s.modLane fo.wave l (fun ln => ((ln.setBank (ln.bank.result d ws)).advance nextPc).raise fl)
    match d with
    | .g r => (if gDone then s1 else s1.modWave fo.wave (fun w => w.setG r.toNat ws), true)
    | .b _ | .e0 | .e1 | .z | .ln | .wv => (s1, gDone)
  | .masked d v =>
    (s.modLane fo.wave l (fun ln => (ln.setBank (ln.bank.result d [v])).advance nextPc), gDone)
  | .jump pc expect =>
    (s.modLane fo.wave l (fun ln =>
      let ln' := ln.advance pc
      ln'.setBank { ln'.bank with expect := expect }), gDone)
  | .trap t next => (takeTrap s fo.wave l t next fo.len, gDone)
  | .wait k =>
    (({ s with ticket := s.ticket + 1 }).modLane fo.wave l (fun ln =>
      { ln with wait := some { kind := k, ticket := s.ticket, status := none, value := 0, bytes := [] } }), gDone)
  | .hold => (s, gDone)
  | .exit => (s.exitLane fo.wave l, gDone)
  | .shared ctl idx v =>
    let s1 := s.modLane fo.wave l (fun ln => ln.advance nextPc)
    (if gDone then s1
     else if ctl then s1.modWave fo.wave (fun w => { w with ctl := sput w.ctl idx v })
     else s1.modWave fo.wave (fun w => w.setG idx [v]), true)
  | .set => (s, gDone)

/-- One lane of a group: its part is computed from the registers as they stood before the instruction (R49),
on the state its lower lanes have left. -/
def runLane (f : State → Wave → Nat → Lane → State × Out) (fo : Focus) (w : Wave) (acc : State × Bool) (l : Nat) :
    State × Bool :=
  match w.lane l with
  | none => acc
  | some ln =>
    let r := f acc.1 w l ln
    applyOut r.1 fo l acc.2 r.2

/-- The issue group runs an instruction, its lanes in increasing order (R137, R247). -/
def runLanes (s : State) (f : State → Wave → Nat → Lane → State × Out) : State :=
  match s.focus with
  | none => s
  | some fo =>
    match s.wave fo.wave with
    | none => s
    | some w => (fo.lanes.foldl (runLane f fo w) (s, false)).1

/-- The issue group runs an instruction in which lanes may wait: one that waits still reads what the instruction found when it was issued
(R247, R257). -/
def runSeen (s : State) (f : State → Wave → Nat → Lane → State × Out) : State := runLanes s (fun s' w l ln => f s' (w.asSeen ln) l ln)

/-- The registers of a g destination of n words (R28). -/
def gRegs (d : Opd) (n : Nat) : List Nat :=
  match d with
  | .g r => (List.range n).map (fun k => r.toNat + k)
  | .b _ | .e0 | .e1 | .z | .ln | .wv => []

/-- A lane of the wave waits. -/
def Wave.stands (w : Wave) (l : Nat) : Bool := match w.lane l with | some ln => ln.wait.isSome | none => false

/-- The instruction at the group's PC with a g destination of which a part is outstanding, where all lanes of the group wait in it. -/
def Wave.gPart (w : Wave) (fo : Focus) : Option GWait :=
  w.gWait.find? (fun e => e.pc == fo.pc && fo.lanes.all (fun l => e.lanes.contains l && w.stands l))

/-- Instructions issued before one that writes registers now (R247): the list has the last issued first. -/
def settleList (part e : GWait) (wrote : Bool) (es : List GWait) : List GWait :=
  let newer := es.takeWhile (fun x => x != part)
  let older := (es.dropWhile (fun x => x != part)).drop 1
  newer ++ (if e.lanes.isEmpty then [] else [e]) ++ (if wrote then overBy part.regs.contains older else older)

/-- An instruction with a g destination of n words whose lanes' parts may be outstanding (R247, R248): the lanes still waiting and the
lowest one done are kept from step to step; a part that a lower lane's or a later-issued group's write has preceded leaves g alone. -/
def State.settleG (s0 s1 : State) (fo : Focus) (d : Opd) (n : Nat) : State :=
  match gRegs d n, s0.wave fo.wave, s1.wave fo.wave with
  | _ :: _, some w0, some w1 =>
    let still (l : Nat) : Bool := w1.stands l && (match w1.lane l with | some ln => ln.pc == fo.pc | none => false)
    let through (l : Nat) : Bool := match w1.lane l with | some ln => ln.wait.isNone && ln.pc == fo.pc + BitVec.ofNat 64 fo.len | none => false
    let late := fo.lanes.filter still
    let first := (fo.lanes.filter through).head?
    match w0.gPart fo with
    | none =>
      if late.isEmpty then s1
      else s1.setWave fo.wave { w1 with gWait := { pc := fo.pc, lanes := late, best := first, regs := gRegs d n, beaten := false } :: w1.gWait }
    | some part =>
      let beaten := part.beaten || (match part.best, first with | some j, some l => decide (j < l) | _, _ => false)
      let e := { part with lanes := part.lanes.filter (fun l => !fo.lanes.contains l) ++ late,
                           best := if beaten then part.best else first.or part.best }
      s1.setWave fo.wave { w1 with g := if beaten then w0.g else w1.g,
                                   gWait := settleList part e (first.isSome && !beaten) w0.gWait }
  | _, _, _ => s1

/-- What an instruction with a result of n words for d has left, its lanes' parts settled. -/
def State.settled (s s1 : State) (d : Opd) (n : Nat) : State :=
  match s.focus with
  | none => s1
  | some fo => s.settleG s1 fo d n

/-- An instruction by the issue group, each lane's part with a result for d that may be outstanding (R247, R248). -/
def runInto (s : State) (d : Opd) (f : State → Focus → Wave → Nat → Lane → State × Out) : State :=
  match s.focus with
  | none => s
  | some fo => s.settled (runSeen s (fun s' w l ln => f s' fo w l ln)) d 1

/-- The issue group runs an instruction that reads and writes registers only. -/
def runPure (s : State) (f : Wave → Nat → Lane → Out) : State := runLanes s (fun s w l ln => (s, f w l ln))

end Sys2Proof.Machine
end

