-- ==== Sys2Proof/Machine/Flags.lean ====
section
/-! DEFINITION. Flags and the traps decided by them: saturation (R69), FPFLAGS and FP_EXC (R76 to R79), and
UNINIT (R82, R83). -/

namespace Sys2Proof.Machine

/-- A word read as signed (R68). -/
def sint (w : Word) : Int := w.toInt

/-- An exact integer result, clamped under sat with SATURATED when that changes it, else wrapped (R69, R264). -/
def intResult (sat : Bool) (v : Int) : Word × Flags :=
  let lo : Int := -2147483648
  let hi : Int := 2147483647
  if sat then
    if v < lo then (BitVec.ofInt 32 lo, Flags.saturated)
    else if hi < v then (BitVec.ofInt 32 hi, Flags.saturated)
    else (BitVec.ofInt 32 v, 0)
  else (BitVec.ofInt 32 v, 0)

/-- A word is a marker (R82). -/
def isMarker (w : Word) : Bool := wbits w 31 12 == 0x7F804 && wbits w 11 10 != 3

/-- UNINIT (R83): the first marked operand, when UNINITEN is 1. -/
def uninit (ln : Lane) (ws : List Word) : Option Trap :=
  if ln.fpmode.getLsbD 4 then
    match ws.find? isMarker with
    | some w => some (Trap.mk 0x08 0 w)
    | none => none
  else none

/-- FP_EXC (R79): a raised flag whose enable in FPMODE[9:5] is 1. -/
def fpTraps (ln : Lane) (fl : Flags) : Bool := wbits ln.fpmode 9 5 &&& fl.toNat % 32 != 0

/-- The FP_EXC trap with every flag it would have raised (R79). -/
def fpTrap (fl : Flags) : Trap := Trap.mk 0x09 0 (BitVec.zeroExtend 32 fl)

/-- A floating result written with its flags, or FP_EXC (R79). -/
def fpOutcome (ln : Lane) (v : Word) (fl : Flags) : Except Trap (Word × Flags) :=
  if fpTraps ln fl then .error (fpTrap fl) else .ok (v, fl)

/-- The mode, flushing and saturation an instruction captures (R72, R74): the prefix's rnd over FPMODE, FTZ
from either, sat from the prefix. -/
def fpCtx (ln : Lane) (p : Option PfxFields) : FpCtx :=
  let dyn := RMode.ofCode (wbits ln.fpmode 2 0)
  match p with
  | none => FpCtx.mk dyn (ln.fpmode.getLsbD 3) false
  | some q =>
    let mode :=
      match q.rnd with
      | .rne => RMode.rne
      | .rtz => .rtz
      | .rup => .rup
      | .rdn => .rdn
      | .rna => .rna
      | .dyn => dyn
    FpCtx.mk mode (ln.fpmode.getLsbD 3 || q.ftz) q.sat

end Sys2Proof.Machine
end

