-- ==== Sys2Proof/Machine/Operands.lean ====
section
/-! DEFINITION. The operand forms: prefix masks (R44, R261), the accumulator (R260), immediates (R35), and
result-writing instructions over registers. -/

namespace Sys2Proof.Machine

/-- Whether the prefix masks a lane off (R44). -/
def maskedOff (p : Option PfxFields) (w : Wave) (l : Nat) (ln : Lane) : Bool :=
  match p with
  | none => false
  | some q =>
    match q.mask with
    | .b r => !(ln.bank.reg r.toNat).getLsbD 0
    | .g r => !(w.greg r.toNat).getLsbD l
    | .e0 | .e1 | .z | .ln | .wv => false

/-- The prefix zeroes what it masks off (R41). -/
def zeroing (p : Option PfxFields) : Bool := match p with | some q => q.zmask | none => false

/-- The prefix's sat bit (R41). -/
def satBit (p : Option PfxFields) : Bool := match p with | some q => q.sat | none => false

/-- The accumulator: the fourth operand where the prefix gives one, else the destination (R43, R260). -/
def accOpd (p : Option PfxFields) (d : Opd) : Opd :=
  match p with
  | some q => if q.fourth = .z then d else q.fourth
  | none => d

/-- What a masked-off lane's destination takes (R44). -/
def keptWord (p : Option PfxFields) (w : Wave) (l : Nat) (ln : Lane) (d : Opd) : Word :=
  if zeroing p then 0 else readOpd w l ln d

/-- One lane's part of a result-writing register instruction. -/
def resultOut (d : Opd) (p : Option PfxFields)
    (f : Option PfxFields → Wave → Nat → Lane → Except Trap (Word × Flags)) (w : Wave) (l : Nat) (ln : Lane) : Out :=
  if maskedOff p w l ln then .masked d (keptWord p w l ln d)
  else
    match f p w l ln with
    | .ok (v, fl) => .done (some d) [v] fl
    | .error t => .trap t false

/-- Whether a lane by number is masked off; one that is not there counts as such. -/
def laneMasked (p : Option PfxFields) (w : Wave) (l : Nat) : Bool :=
  match w.lane l with
  | some ln => maskedOff p w l ln
  | none => true

/-- A g destination all of whose lanes are masked off becomes 0 under zeroing (R261). -/
def clearMaskedG (s : State) (d : Opd) : State :=
  match s.focus with
  | none => s
  | some fo =>
    match d, s.wave fo.wave with
    | .g r, some w =>
      if zeroing fo.pfx && fo.lanes.all (laneMasked fo.pfx w)
      then s.modWave fo.wave (fun w => w.setG r.toNat [0])
      else s
    | _, _ => s

/-- A result-writing instruction over registers, with its mask (R44, R246, R261). -/
def resultInstr (s : State) (d : Opd)
    (f : Option PfxFields → Wave → Nat → Lane → Except Trap (Word × Flags)) : State :=
  match s.focus with
  | none => s
  | some fo => runPure (clearMaskedG s d) (resultOut d fo.pfx f)

/-- An instruction of two sources that neither saturates nor traps. -/
def op2 (s : State) (d a b : Opd) (f : Word → Word → Word) : State :=
  resultInstr s d (fun _ w l ln => .ok (f (readOpd w l ln a) (readOpd w l ln b), 0))

/-- An instruction of one source that neither saturates nor traps. -/
def op1 (s : State) (d a : Opd) (f : Word → Word) : State :=
  resultInstr s d (fun _ w l ln => .ok (f (readOpd w l ln a), 0))

/-- An instruction of one source and an immediate. -/
def opImm (s : State) (d a : Opd) (k : Word) (f : Word → Word → Word) : State :=
  resultInstr s d (fun _ w l ln => .ok (f (readOpd w l ln a) k, 0))

/-- An instruction whose exact integer result honours sat (R69). -/
def opSat (s : State) (d : Opd) (f : Option PfxFields → Wave → Nat → Lane → Int) : State :=
  resultInstr s d (fun p w l ln => .ok (intResult (satBit p) (f p w l ln)))

/-- A 64-bit address and an offset (R135). -/
def addrPlus (a : BitVec 64) (o : Int) : Nat := (a + BitVec.ofInt 64 o).toNat

end Sys2Proof.Machine
end

