-- ==== Sys2Proof/Machine/SfuCore.lean ====
section
/-! DEFINITION. The special functions of R281 and R282, correctly rounded: algebraic ones from exact integer
roots and quotients, the others from fixed-point bounds whose precision grows until both bounds round alike. -/

namespace Sys2Proof.Machine

/-- The largest r with r·r ≤ n, by bits from the top. -/
def isqrtGo (n : Nat) (k : Nat) (r : Nat) : Nat :=
  match k with
  | 0 => r
  | k + 1 =>
    let t := r + 2 ^ k
    isqrtGo n k (if t * t ≤ n then t else r)

/-- The integer square root. -/
def isqrt (n : Nat) : Nat := isqrtGo n (Nat.log2 n / 2 + 1) 0

/-- An exact quotient of two magnitudes, rounded (R282). -/
def quotRes (c : FpCtx) (neg : Bool) (m : Nat) (e : Int) (n : Nat) (e' : Int) : FRes :=
  let k := Nat.log2 n + 32
  let q := m * 2 ^ k / n
  roundTo fp32 c neg q (e - e' - (k : Int)) (m * 2 ^ k % n != 0)

/-- FRCP (R282). -/
def fpRcp (c : FpCtx) (a : Nat) : FRes :=
  match fp32.read c.ftz a with
  | .nan s => nanRes fp32 (if s then Flags.invalid else 0)
  | .inf neg => FRes.mk (fp32.zero neg) 0
  | .fin neg m e => if m = 0 then infinite fp32 c neg Flags.divZero else quotRes c neg 1 0 m e

/-- FDIV (R282). -/
def fpDiv (c : FpCtx) (a b : Nat) : FRes :=
  let x := fp32.read c.ftz a
  let y := fp32.read c.ftz b
  match x, y with
  | .nan _, _ => nanRes fp32 (snanFlags [x, y])
  | _, .nan _ => nanRes fp32 (snanFlags [x, y])
  | .inf _, .inf _ => nanRes fp32 Flags.invalid
  | .inf s, .fin t _ _ => infinite fp32 c (s != t) 0
  | .fin s _ _, .inf t => FRes.mk (fp32.zero (s != t)) 0
  | .fin s m e, .fin t n e' =>
    if n = 0 then
      if m = 0 then nanRes fp32 Flags.invalid else infinite fp32 c (s != t) Flags.divZero
    else if m = 0 then FRes.mk (fp32.zero (s != t)) 0
    else quotRes c (s != t) m e n e'

/-- FSQRT (R282). -/
def fpSqrt (c : FpCtx) (a : Nat) : FRes :=
  match fp32.read c.ftz a with
  | .nan s => nanRes fp32 (if s then Flags.invalid else 0)
  | .inf neg => if neg then nanRes fp32 Flags.invalid else infinite fp32 c false 0
  | .fin neg m e =>
    if m = 0 then FRes.mk (fp32.zero neg) 0
    else if neg then nanRes fp32 Flags.invalid
    else
      let odd := e % 2 == 1
      let m' := (if odd then 2 * m else m) * 2 ^ 64
      let e2 : Int := ((if odd then e - 1 else e) - 64) / 2
      let r := isqrt m'
      roundTo fp32 c false r e2 (r * r != m')

/-- FRSQ (R282). -/
def fpRsqrt (c : FpCtx) (a : Nat) : FRes :=
  match fp32.read c.ftz a with
  | .nan s => nanRes fp32 (if s then Flags.invalid else 0)
  | .inf neg => if neg then nanRes fp32 Flags.invalid else FRes.mk 0 0
  | .fin neg m e =>
    if m = 0 then infinite fp32 c neg Flags.divZero
    else if neg then nanRes fp32 Flags.invalid
    else
      let odd := e % 2 == 1
      let m' := if odd then 2 * m else m
      let e2 : Int := (if odd then e - 1 else e) / 2
      let r := isqrt (2 ^ 128 / m')
      roundTo fp32 c false r (-64 - e2) (r * r * m' != 2 ^ 128)

/-- x / 2^p, rounded down: fixed-point numbers with p fraction bits are integers. -/
def fxMul (p : Nat) (x y : Int) : Int := (x * y) / ((2 ^ p : Nat) : Int)

/-- Σ z^(2i+1)/(2i+1), with the sign of z² carried in step: atanh for step = z², atan for step = −z². -/
def oddSeries (p : Nat) (step : Int) (fuel : Nat) (i : Nat) (term : Int) (acc : Int) : Int :=
  match fuel with
  | 0 => acc
  | fuel + 1 =>
    if term = 0 then acc
    else oddSeries p step fuel (i + 1) (fxMul p term step) (acc + term / ((2 * i + 1 : Nat) : Int))

/-- ln 2 = 2·atanh(1/3). -/
def fxLn2 (p : Nat) : Int :=
  let one : Int := ((2 ^ p : Nat) : Int)
  2 * oddSeries p (one / 9) p 0 (one / 3) 0

/-- π = 16·atan(1/5) − 4·atan(1/239). -/
def fxPi (p : Nat) : Int :=
  let one : Int := ((2 ^ p : Nat) : Int)
  16 * oddSeries p (-(one / 25)) p 0 (one / 5) 0 - 4 * oddSeries p (-(one / 57121)) p 0 (one / 239) 0

/-- Σ of terms whose ratio from the i-th to the next is step divided by div i: exp, sin and cos. -/
def ratioSeries (p : Nat) (step : Int) (div : Nat → Nat) (fuel : Nat) (i : Nat) (term acc : Int) : Int :=
  match fuel with
  | 0 => acc
  | fuel + 1 =>
    if term = 0 then acc
    else ratioSeries p step div fuel (i + 1) (fxMul p term step / ((div i : Nat) : Int)) (acc + term)

/-- exp of a fixed-point number of magnitude below 1. -/
def fxExp (p : Nat) (x : Int) : Int :=
  let one : Int := ((2 ^ p : Nat) : Int)
  ratioSeries p x (fun i => i + 1) p 0 one 0

/-- sin of a fixed-point number of magnitude below 1. -/
def fxSin (p : Nat) (x : Int) : Int :=
  ratioSeries p (-(fxMul p x x)) (fun i => (2 * i + 2) * (2 * i + 3)) p 0 x 0

/-- cos of a fixed-point number of magnitude below 1. -/
def fxCos (p : Nat) (x : Int) : Int :=
  let one : Int := ((2 ^ p : Nat) : Int)
  ratioSeries p (-(fxMul p x x)) (fun i => (2 * i + 1) * (2 * i + 2)) p 0 one 0

/-- An irrational value bounded by (v ± err)·2^exp at growing precisions: the first precision at which both
bounds round alike decides. -/
def zivGo (c : FpCtx) (approx : Nat → Int × Int) (ps : List Nat) : FRes :=
  match ps with
  | [] => FRes.mk 0 Flags.inexact
  | p :: ps =>
    let (v, exp) := approx p
    let err : Int := 65536
    let lo := if v < 0 then -v - err else v - err
    let hi := lo + 2 * err
    if lo ≤ 0 then zivGo c approx ps
    else
      let a := roundTo fp32 c (v < 0) lo.toNat exp true
      let b := roundTo fp32 c (v < 0) hi.toNat exp true
      if a = b || ps.isEmpty then a else zivGo c approx ps

/-- The precisions tried, in fraction bits. -/
def zivSteps : List Nat := [160, 320, 640]

/-- A magnitude just below m·2^e by less than any rounding can see (R281). -/
def justBelow (c : FpCtx) (neg : Bool) (m : Nat) (e : Int) : FRes :=
  roundTo fp32 c neg (m * 2 ^ 40 - 1) (e - 40) true

/-- A magnitude just above m·2^e. -/
def justAbove (c : FpCtx) (neg : Bool) (m : Nat) (e : Int) : FRes :=
  roundTo fp32 c neg (m * 2 ^ 40) (e - 40) true

/-- ±m·2^e as a fixed-point number with p fraction bits; exact when e + p ≥ 0. -/
def fxOf (p : Nat) (neg : Bool) (m : Nat) (e : Int) : Int :=
  let n : Int := ((if 0 ≤ e + (p : Int) then m * 2 ^ (e + (p : Int)).toNat else m / 2 ^ (-(e + (p : Int))).toNat : Nat) : Int)
  if neg then -n else n

/-- The exponent of the leading bit. -/
def topExp (m : Nat) (e : Int) : Int := (Nat.log2 m : Int) + e

/-- FEX2 (R282): exact for integers; the magnitude of a far exponent cannot change the result. -/
def fpExp2 (c : FpCtx) (a : Nat) : FRes :=
  match fp32.read c.ftz a with
  | .nan s => nanRes fp32 (if s then Flags.invalid else 0)
  | .inf neg => if neg then FRes.mk 0 0 else infinite fp32 c false 0
  | .fin neg m e =>
    if m = 0 then FRes.mk (roundTo fp32 c false 1 0 false).bits 0
    else if 10 ≤ topExp m e then roundTo fp32 c false 1 (if neg then -1000 else 1000) false
    else if topExp m e < -30 then (if neg then justBelow c false 1 0 else justAbove c false 1 0)
    else
      let whole := roundAt .rdn neg m e false 0
      let k : Int := if neg then -(whole.1 : Int) else (whole.1 : Int)
      if whole.2 = false then roundTo fp32 c false 1 k false
      else
        zivGo c (fun p =>
          let frac := fxOf p neg m e - k * ((2 ^ p : Nat) : Int)
          (fxExp p (fxMul p frac (fxLn2 p)), k - (p : Int))) zivSteps

/-- FLG2 (R282): exact at powers of two. -/
def fpLog2 (c : FpCtx) (a : Nat) : FRes :=
  match fp32.read c.ftz a with
  | .nan s => nanRes fp32 (if s then Flags.invalid else 0)
  | .inf neg => if neg then nanRes fp32 Flags.invalid else infinite fp32 c false 0
  | .fin neg m e =>
    if m = 0 then infinite fp32 c true Flags.divZero
    else if neg then nanRes fp32 Flags.invalid
    else
      let k : Int := topExp m e
      if m = 2 ^ Nat.log2 m then
        (if k = 0 then FRes.mk 0 0 else roundTo fp32 c (k < 0) k.natAbs 0 false)
      else
        zivGo c (fun p =>
          let one : Int := ((2 ^ p : Nat) : Int)
          let y : Int := ((m * 2 ^ p / 2 ^ Nat.log2 m : Nat) : Int)
          let z := (y - one) * one / (y + one)
          let ln := 2 * oddSeries p (fxMul p z z) p 0 z 0
          (k * one + ln * one / fxLn2 p, -(p : Int))) zivSteps

/-- sin or cos of a non-zero finite value: reduced exactly by quarter turns (R282). -/
def trigRes (c : FpCtx) (cosine neg : Bool) (m : Nat) (e : Int) : FRes :=
  zivGo c (fun p =>
    let wide := p + 160
    let x := fxOf wide false m e
    let halfPi := fxPi wide / 2
    let k := (x + halfPi / 2) / halfPi
    let r := (x - k * halfPi) / ((2 ^ 160 : Nat) : Int)
    let quad := (k + (if cosine then 1 else 0)) % 4
    let v := if quad % 2 = 0 then fxSin p r else fxCos p r
    let v := if quad = 2 || quad = 3 then -v else v
    (if neg && !cosine then -v else v, -(p : Int))) zivSteps

/-- FSIN (R282). -/
def fpSin (c : FpCtx) (a : Nat) : FRes :=
  match fp32.read c.ftz a with
  | .nan s => nanRes fp32 (if s then Flags.invalid else 0)
  | .inf _ => nanRes fp32 Flags.invalid
  | .fin neg m e =>
    if m = 0 then FRes.mk (fp32.zero neg) 0
    else if topExp m e < -14 then justBelow c neg m e
    else trigRes c false neg m e

/-- FCOS (R282). -/
def fpCos (c : FpCtx) (a : Nat) : FRes :=
  match fp32.read c.ftz a with
  | .nan s => nanRes fp32 (if s then Flags.invalid else 0)
  | .inf _ => nanRes fp32 Flags.invalid
  | .fin neg m e =>
    if m = 0 then FRes.mk (roundTo fp32 c false 1 0 false).bits 0
    else if topExp m e < -14 then justBelow c false 1 0
    else trigRes c true neg m e

/-- FTANH (R282): 1 − 2/(exp(2|a|) + 1) with the sign of a. -/
def fpTanh (c : FpCtx) (a : Nat) : FRes :=
  match fp32.read c.ftz a with
  | .nan s => nanRes fp32 (if s then Flags.invalid else 0)
  | .inf neg => FRes.mk (roundTo fp32 c neg 1 0 false).bits 0
  | .fin neg m e =>
    if m = 0 then FRes.mk (fp32.zero neg) 0
    else if topExp m e < -14 then justBelow c neg m e
    else if 4 ≤ topExp m e then justBelow c neg 1 0
    else
      zivGo c (fun p =>
        let one : Int := ((2 ^ p : Nat) : Int)
        let x := 2 * fxOf p false m e
        let ln2 := fxLn2 p
        let k := x / ln2
        let ex := fxExp p (x - k * ln2) * ((2 ^ k.toNat : Nat) : Int)
        let t := (ex - one) * one / (ex + one)
        (if neg then -t else t, -(p : Int))) zivSteps

end Sys2Proof.Machine
end

