-- ==== Sys2Proof/Machine/Float.lean ====
section
/-! DEFINITION. The floating instructions: FLT (R273 to R280), SFU (R282), HPK (R283, R284) and the floating
compact forms (R285). UNINIT is checked first, then FP_EXC over all elements (R269, R271). -/

namespace Sys2Proof.Machine

/-- A result of the float core as a register word with its flags. -/
def FRes.word (r : FRes) : Word × Flags := (BitVec.ofNat 32 r.bits, r.flags)

/-- One lane of a floating instruction: UNINIT over its sources in order, the operation, then FP_EXC. -/
def fpLane (ln : Lane) (p : Option PfxFields) (srcs : List Word) (f : FpCtx → Word × Flags) :
    Except Trap (Word × Flags) :=
  match uninit ln srcs with
  | some t => .error t
  | none =>
    let r := f (fpCtx ln p)
    fpOutcome ln r.1 r.2

/-- A floating instruction of two sources (R268). -/
def fpOp2 (s : State) (d a b : Opd) (f : FpCtx → Nat → Nat → Word × Flags) : State :=
  resultInstr s d (fun p w l ln =>
    let x := readOpd w l ln a
    let y := readOpd w l ln b
    fpLane ln p [x, y] (fun c => f c x.toNat y.toNat))

/-- A floating instruction of one source (R268). -/
def fpOp1 (s : State) (d a : Opd) (f : FpCtx → Nat → Word × Flags) : State :=
  resultInstr s d (fun p w l ln =>
    let x := readOpd w l ln a
    fpLane ln p [x] (fun c => f c x.toNat))

/-- A floating instruction with an accumulator, d or the fourth operand (R81). -/
def fpOp3 (s : State) (d a b : Opd) (f : FpCtx → Nat → Nat → Nat → Word × Flags) : State :=
  resultInstr s d (fun p w l ln =>
    let x := readOpd w l ln a
    let y := readOpd w l ln b
    let z := readOpd w l ln (accOpd p d)
    fpLane ln p [x, y, z] (fun c => f c x.toNat y.toNat z.toNat))

/-- An instruction whose source is no floating-point operand but which may raise flags (R269). -/
def fpBits1 (s : State) (d a : Opd) (f : FpCtx → Word → Word × Flags) : State :=
  resultInstr s d (fun p w l ln =>
    let r := f (fpCtx ln p) (readOpd w l ln a)
    fpOutcome ln r.1 r.2)

/-- The low half of a packed word (R70). -/
def lowHalf (x : Nat) : Nat := x % 65536

/-- The high half of a packed word (R70). -/
def highHalf (x : Nat) : Nat := x / 65536 % 65536

/-- Two half results packed, their flags ORed (R283). -/
def packRes (lo hi : FRes) : Word × Flags := (BitVec.ofNat 32 (lo.bits + 65536 * hi.bits), lo.flags ||| hi.flags)

/-- A two-source operation on both elements. -/
def packed2 (f : Nat → Nat → FRes) (x y : Nat) : Word × Flags :=
  packRes (f (lowHalf x) (lowHalf y)) (f (highHalf x) (highHalf y))

/-- HFMA2 (R283). -/
def packedFma (fm : Fmt) (c : FpCtx) (x y z : Nat) : Word × Flags :=
  packRes (fpFma fm c (lowHalf x) (lowHalf y) (lowHalf z)) (fpFma fm c (highHalf x) (highHalf y) (highHalf z))

/-- HDOT2 (R284). -/
def packedDot (fm : Fmt) (c : FpCtx) (x y z : Nat) : Word × Flags :=
  (fpDot2 fm c (lowHalf x) (lowHalf y) (highHalf x) (highHalf y) z).word

/-- A comparison's word (R274). -/
def setWord (r : Bool × Flags) : Word × Flags := (Word.ofBool r.1, r.2)

/-- FADD (R273). -/
def execFadd (d a b : Opd) (s : State) : Host.Outcome State Fault Refusal :=
  .next (fpOp2 s d a b (fun c x y => (fpAdd fp32 c x y).word))

/-- FSUB (R273). -/
def execFsub (d a b : Opd) (s : State) : Host.Outcome State Fault Refusal :=
  .next (fpOp2 s d a b (fun c x y => (fpSub fp32 c x y).word))

/-- FMUL (R273). -/
def execFmul (d a b : Opd) (s : State) : Host.Outcome State Fault Refusal :=
  .next (fpOp2 s d a b (fun c x y => (fpMul fp32 c x y).word))

/-- FFMA (R273): rounded once (R81). -/
def execFfma (d a b : Opd) (s : State) : Host.Outcome State Fault Refusal :=
  .next (fpOp3 s d a b (fun c x y z => (fpFma fp32 c x y z).word))

/-- FMIN (R80). -/
def execFmin (d a b : Opd) (s : State) : Host.Outcome State Fault Refusal :=
  .next (fpOp2 s d a b (fun c x y => (fpMinMax fp32 c false x y).word))

/-- FMAX (R80). -/
def execFmax (d a b : Opd) (s : State) : Host.Outcome State Fault Refusal :=
  .next (fpOp2 s d a b (fun c x y => (fpMinMax fp32 c true x y).word))

/-- FABS (R273): bit 31 cleared. -/
def execFabs (d a : Opd) (s : State) : Host.Outcome State Fault Refusal :=
  .next (op1 s d a (fun x => x &&& 0x7FFFFFFF))

/-- FNEG (R273): bit 31 inverted. -/
def execFneg (d a : Opd) (s : State) : Host.Outcome State Fault Refusal :=
  .next (op1 s d a (fun x => x ^^^ 0x80000000))

/-- FSETEQ (R274). -/
def execFseteq (d a b : Opd) (s : State) : Host.Outcome State Fault Refusal :=
  .next (fpOp2 s d a b (fun c x y => setWord (fpSet c.ftz (fun o => o == .eq) false false x y)))

/-- FSETNE (R274). -/
def execFsetne (d a b : Opd) (s : State) : Host.Outcome State Fault Refusal :=
  .next (fpOp2 s d a b (fun c x y => setWord (fpSet c.ftz (fun o => o != .eq) true false x y)))

/-- FSETLT (R274). -/
def execFsetlt (d a b : Opd) (s : State) : Host.Outcome State Fault Refusal :=
  .next (fpOp2 s d a b (fun c x y => setWord (fpSet c.ftz (fun o => o == .lt) false true x y)))

/-- FSETLE (R274). -/
def execFsetle (d a b : Opd) (s : State) : Host.Outcome State Fault Refusal :=
  .next (fpOp2 s d a b (fun c x y => setWord (fpSet c.ftz (fun o => o != .gt) false true x y)))

/-- FSETUN (R274). -/
def execFsetun (d a b : Opd) (s : State) : Host.Outcome State Fault Refusal :=
  .next (fpOp2 s d a b (fun c x y => setWord (fpSet c.ftz (fun _ => false) true false x y)))

/-- FCLASS (R275). -/
def execFclass (d a : Opd) (s : State) : Host.Outcome State Fault Refusal :=
  .next (op1 s d a (fun x => BitVec.ofNat 32 (fpClass x.toNat)))

/-- FRND (R276). -/
def execFrnd (d a : Opd) (s : State) : Host.Outcome State Fault Refusal :=
  .next (fpOp1 s d a (fun c x => (fpRound c x).word))

/-- FCVTI (R278, R279). -/
def execFcvti (d a : Opd) (s : State) : Host.Outcome State Fault Refusal :=
  .next (fpOp1 s d a (fun c x =>
    let r := fpToInt c (-2147483648) 2147483647 x
    (BitVec.ofInt 32 r.1, r.2)))

/-- FCVTUI (R278, R279). -/
def execFcvtui (d a : Opd) (s : State) : Host.Outcome State Fault Refusal :=
  .next (fpOp1 s d a (fun c x =>
    let r := fpToInt c 0 4294967295 x
    (BitVec.ofInt 32 r.1, r.2)))

/-- ICVTF (R277). -/
def execIcvtf (d a : Opd) (s : State) : Host.Outcome State Fault Refusal :=
  .next (fpBits1 s d a (fun c x => (fpOfInt c.mode (sint x)).word))

/-- UCVTF (R277). -/
def execUcvtf (d a : Opd) (s : State) : Host.Outcome State Fault Refusal :=
  .next (fpBits1 s d a (fun c x => (fpOfInt c.mode (x.toNat : Int)).word))

/-- FPKBF (R280). -/
def execFpkbf (d a b : Opd) (s : State) : Host.Outcome State Fault Refusal :=
  .next (fpOp2 s d a b (fun c x y => packRes (fpConvert fp32 bf16 c x) (fpConvert fp32 bf16 c y)))

/-- FPKH (R280). -/
def execFpkh (d a b : Opd) (s : State) : Host.Outcome State Fault Refusal :=
  .next (fpOp2 s d a b (fun c x y => packRes (fpConvert fp32 fp16 c x) (fpConvert fp32 fp16 c y)))

/-- FUPBFL (R280). -/
def execFupbfl (d a : Opd) (s : State) : Host.Outcome State Fault Refusal :=
  .next (fpBits1 s d a (fun c x => (fpWiden bf16 c.ftz (lowHalf x.toNat)).word))

/-- FUPBFH (R280). -/
def execFupbfh (d a : Opd) (s : State) : Host.Outcome State Fault Refusal :=
  .next (fpBits1 s d a (fun c x => (fpWiden bf16 c.ftz (highHalf x.toNat)).word))

/-- FUPHL (R280). -/
def execFuphl (d a : Opd) (s : State) : Host.Outcome State Fault Refusal :=
  .next (fpBits1 s d a (fun c x => (fpWiden fp16 c.ftz (lowHalf x.toNat)).word))

/-- FUPHH (R280). -/
def execFuphh (d a : Opd) (s : State) : Host.Outcome State Fault Refusal :=
  .next (fpBits1 s d a (fun c x => (fpWiden fp16 c.ftz (highHalf x.toNat)).word))

/-- HADD2.BF (R283). -/
def execHadd2Bf (d a b : Opd) (s : State) : Host.Outcome State Fault Refusal :=
  .next (fpOp2 s d a b (fun c x y => packed2 (fpAdd bf16 c) x y))

/-- HMUL2.BF (R283). -/
def execHmul2Bf (d a b : Opd) (s : State) : Host.Outcome State Fault Refusal :=
  .next (fpOp2 s d a b (fun c x y => packed2 (fpMul bf16 c) x y))

/-- HFMA2.BF (R283). -/
def execHfma2Bf (d a b : Opd) (s : State) : Host.Outcome State Fault Refusal :=
  .next (fpOp3 s d a b (fun c x y z => packedFma bf16 c x y z))

/-- HMAX2.BF (R283). -/
def execHmax2Bf (d a b : Opd) (s : State) : Host.Outcome State Fault Refusal :=
  .next (fpOp2 s d a b (fun c x y => packed2 (fpMinMax bf16 c true) x y))

/-- HMIN2.BF (R283). -/
def execHmin2Bf (d a b : Opd) (s : State) : Host.Outcome State Fault Refusal :=
  .next (fpOp2 s d a b (fun c x y => packed2 (fpMinMax bf16 c false) x y))

/-- HDOT2.BF (R284). -/
def execHdot2Bf (d a b : Opd) (s : State) : Host.Outcome State Fault Refusal :=
  .next (fpOp3 s d a b (fun c x y z => packedDot bf16 c x y z))

/-- HADD2.H (R283). -/
def execHadd2H (d a b : Opd) (s : State) : Host.Outcome State Fault Refusal :=
  .next (fpOp2 s d a b (fun c x y => packed2 (fpAdd fp16 c) x y))

/-- HMUL2.H (R283). -/
def execHmul2H (d a b : Opd) (s : State) : Host.Outcome State Fault Refusal :=
  .next (fpOp2 s d a b (fun c x y => packed2 (fpMul fp16 c) x y))

/-- HFMA2.H (R283). -/
def execHfma2H (d a b : Opd) (s : State) : Host.Outcome State Fault Refusal :=
  .next (fpOp3 s d a b (fun c x y z => packedFma fp16 c x y z))

/-- HMAX2.H (R283). -/
def execHmax2H (d a b : Opd) (s : State) : Host.Outcome State Fault Refusal :=
  .next (fpOp2 s d a b (fun c x y => packed2 (fpMinMax fp16 c true) x y))

/-- HMIN2.H (R283). -/
def execHmin2H (d a b : Opd) (s : State) : Host.Outcome State Fault Refusal :=
  .next (fpOp2 s d a b (fun c x y => packed2 (fpMinMax fp16 c false) x y))

/-- HDOT2.H (R284). -/
def execHdot2H (d a b : Opd) (s : State) : Host.Outcome State Fault Refusal :=
  .next (fpOp3 s d a b (fun c x y z => packedDot fp16 c x y z))

/-- FRCP (R282). -/
def execFrcp (d a : Opd) (s : State) : Host.Outcome State Fault Refusal :=
  .next (fpOp1 s d a (fun c x => (fpRcp c x).word))

/-- FRSQ (R282). -/
def execFrsq (d a : Opd) (s : State) : Host.Outcome State Fault Refusal :=
  .next (fpOp1 s d a (fun c x => (fpRsqrt c x).word))

/-- FSQRT (R282). -/
def execFsqrt (d a : Opd) (s : State) : Host.Outcome State Fault Refusal :=
  .next (fpOp1 s d a (fun c x => (fpSqrt c x).word))

/-- FEX2 (R282). -/
def execFex2 (d a : Opd) (s : State) : Host.Outcome State Fault Refusal :=
  .next (fpOp1 s d a (fun c x => (fpExp2 c x).word))

/-- FLG2 (R282). -/
def execFlg2 (d a : Opd) (s : State) : Host.Outcome State Fault Refusal :=
  .next (fpOp1 s d a (fun c x => (fpLog2 c x).word))

/-- FSIN (R282). -/
def execFsin (d a : Opd) (s : State) : Host.Outcome State Fault Refusal :=
  .next (fpOp1 s d a (fun c x => (fpSin c x).word))

/-- FCOS (R282). -/
def execFcos (d a : Opd) (s : State) : Host.Outcome State Fault Refusal :=
  .next (fpOp1 s d a (fun c x => (fpCos c x).word))

/-- FTANH (R282). -/
def execFtanh (d a : Opd) (s : State) : Host.Outcome State Fault Refusal :=
  .next (fpOp1 s d a (fun c x => (fpTanh c x).word))

/-- FDIV (R282). -/
def execFdiv (d a b : Opd) (s : State) : Host.Outcome State Fault Refusal :=
  .next (fpOp2 s d a b (fun c x y => (fpDiv c x y).word))

/-- Compact FADD (R285). -/
def execFaddC16 (d : Opd) (r : BitVec 5) (s : State) : Host.Outcome State Fault Refusal :=
  .next (fpOp2 s d d (.b r) (fun c x y => (fpAdd fp32 c x y).word))

/-- Compact FMUL (R285). -/
def execFmulC16 (d : Opd) (r : BitVec 5) (s : State) : Host.Outcome State Fault Refusal :=
  .next (fpOp2 s d d (.b r) (fun c x y => (fpMul fp32 c x y).word))

/-- Compact FMAX (R285). -/
def execFmaxC16 (d : Opd) (r : BitVec 5) (s : State) : Host.Outcome State Fault Refusal :=
  .next (fpOp2 s d d (.b r) (fun c x y => (fpMinMax fp32 c true x y).word))

/-- Compact FMIN (R285). -/
def execFminC16 (d : Opd) (r : BitVec 5) (s : State) : Host.Outcome State Fault Refusal :=
  .next (fpOp2 s d d (.b r) (fun c x y => (fpMinMax fp32 c false x y).word))

end Sys2Proof.Machine
end

