-- ==== Sys2Proof/Machine/Lanes.lean ====
section
/-! DEFINITION. The cross-lane instructions: instances (R286 to R288), XLN (R289 to R291) and ACTIVE (R292). -/

namespace Sys2Proof.Machine

/-- What an instance computes for one contributor from all of them: its word and flags (R290, R291). -/
abbrev XlnFn := List Arrival → Arrival → Word × Flags

/-- The g mask of a cross-lane instruction, if it has one (R286). -/
def gMask (p : Option PfxFields) (w : Wave) : Option Word :=
  match p with
  | none => none
  | some q =>
    match q.mask with
    | .g r => some (w.greg r.toNat)
    | .b _ | .e0 | .e1 | .z | .ln | .wv => none

/-- A lane belongs to the lane set of its mask (R286). -/
def inSet (m : Option Word) (l : Nat) : Bool := match m with | none => true | some v => v.getLsbD l

/-- What a lane captures when it arrives (R287, R291). -/
def arrival (p : Option PfxFields) (w : Wave) (l : Nat) (ln : Lane) (a b : Opd) : Arrival :=
  let masked := match gMask p w with | some _ => false | none => maskedOff p w l ln
  { lane := l, a := if masked then 0 else readOpd w l ln a, n := if masked then 0 else readOpd w l ln b,
    contributes := !masked, ftz := ln.fpmode.getLsbD 3 }

/-- Arrivals in lane order. -/
def insertArrival (x : Arrival) (xs : List Arrival) : List Arrival :=
  match xs with
  | [] => [x]
  | y :: r => if x.lane < y.lane then x :: y :: r else if x.lane = y.lane then x :: r else y :: insertArrival x r

/-- The end of one participant: its result, its FP_EXC trap, or its old d where it contributes nothing (R287,
R289, R291). -/
def participantOut (d : Opd) (f : XlnFn) (all : List Arrival) (w : Wave) (ln : Lane) (x : Arrival) : Out :=
  if x.contributes then
    let r := f all x
    if fpTraps ln r.2 then .trap (fpTrap r.2) false else .done (some d) [r.1] r.2
  else .masked d (readOpd w x.lane ln d)

/-- The instance executes once, for all its participants in lane order, and closes (R287). -/
def executeInst (s : State) (fo : Focus) (d : Opd) (f : XlnFn) (x : XInst) : State :=
  match s.wave fo.wave with
  | none => s
  | some w =>
    let s1 := s.setWave fo.wave (w.setInst x.pc none)
    let all := x.arrived.filter (fun a => a.contributes)
    (x.arrived.foldl (fun (acc : State × Bool) a =>
      match w.lane a.lane with
      | none => acc
      | some ln => applyOut acc.1 fo a.lane acc.2 (participantOut d f all w ln a)) (s1, false)).1

/-- A lane has joined the open instance at its PC: whatever the g mask says by now, it waits for it (R287). -/
def Lane.hasJoined (w : Wave) (pc : VA) (l : Nat) (ln : Lane) : Bool :=
  !ln.inTrap && (match instAt w pc with | some x => x.arrived.any (fun a => a.lane == l) | none => false)

/-- One lane of an issue group at a cross-lane instruction: outside its mask or the open instance's set it passes
as masked off; in a handler its instance is its own (R422); a contributor with a marker leaves the instance
(R291); otherwise it arrives and waits. -/
def arriveLane (fo : Focus) (w : Wave) (d a b : Opd) (check : Bool) (f : XlnFn) (acc : State × Bool) (l : Nat) :
    State × Bool :=
  match w.lane l with
  | none => acc
  | some ln =>
    let gm := gMask fo.pfx w
    let old := readOpd w l ln d
    if Lane.hasJoined w fo.pc l ln then acc
    else if !inSet gm l then applyOut acc.1 fo l acc.2 (.masked d old)
    else
      let x := arrival fo.pfx w l ln a b
      let bad := if check && x.contributes then uninit ln [x.a] else none
      if ln.inTrap then
        match bad with
        | some t => applyOut acc.1 fo l acc.2 (.trap t false)
        | none => applyOut acc.1 fo l acc.2 (participantOut d f (if x.contributes then [x] else []) w ln x)
      else
        match acc.1.wave fo.wave with
        | none => acc
        | some now =>
          let lanes := (skeys w.lanes).filter (inSet gm)
          let inst := (instAt now fo.pc).getD { pc := fo.pc, kln := false, set := lanes, arrived := [] }
          if !inst.set.contains l then applyOut acc.1 fo l acc.2 (.masked d old)
          else
            match bad with
            | some t =>
              applyOut (acc.1.setWave fo.wave (now.setInst fo.pc (some (inst.leave l)))) fo l acc.2 (.trap t false)
            | none =>
              let inst' := { inst with arrived := insertArrival x inst.arrived }
              applyOut (acc.1.setWave fo.wave (now.setInst fo.pc (some inst'))) fo l acc.2 (.wait .inst)

/-- A cross-lane instruction (R286 to R289): the group's lanes arrive; when the instance is complete it
executes. DEDUCED, log entry 16. -/
def crossLane (s : State) (d a b : Opd) (check : Bool) (f : XlnFn) : State :=
  match s.focus with
  | none => s
  | some fo =>
    match s.wave fo.wave with
    | none => s
    | some w =>
      let s1 := (fo.lanes.foldl (arriveLane fo w d a b check f) (s, false)).1
      match s1.wave fo.wave with
      | none => s1
      | some w1 =>
        match instAt w1 fo.pc with
        | none => s1
        | some x => if x.complete then executeInst s1 fo d f x else s1

/-- The a operand of a contributor by lane number. -/
def operandOf (all : List Arrival) (j : Int) : Option Word :=
  (all.find? (fun x => (x.lane : Int) == j)).map Arrival.a

/-- A SHFL function: a source that is no contributor gives the lane's own a (R290). -/
def shuffle (src : Nat → Nat → Int) : XlnFn :=
  fun all x => ((operandOf all (src x.lane (x.n.toNat % 32))).getD x.a, 0)

/-- A bit mask of lanes. -/
def laneMask (ls : List Nat) : Word := ls.foldl (fun m l => m ||| (1 <<< l)) 0

/-- A reduction over all contributors (R290). -/
def reduce (op : Word → Word → Word) : XlnFn :=
  fun all _ =>
    match all with
    | [] => (0, 0)
    | x :: r => (r.foldl (fun acc y => op acc y.a) x.a, 0)

/-- One level of the tree of R291: neighbours combined, a single child passed unchanged. -/
def treeLevel (op : Nat → Nat → FRes) (xs : List (Option Nat)) : List (Option Nat) × Flags :=
  match xs with
  | some x :: some y :: r =>
    let v := op x y
    let rest := treeLevel op r
    (some v.bits :: rest.1, v.flags ||| rest.2)
  | some x :: none :: r => let rest := treeLevel op r; (some x :: rest.1, rest.2)
  | none :: y :: r => let rest := treeLevel op r; (y :: rest.1, rest.2)
  | [x] => ([x], 0)
  | [] => ([], 0)

/-- The root of the tree, over its levels. -/
def treeRoot (op : Nat → Nat → FRes) (levels : Nat) (xs : List (Option Nat)) (fl : Flags) : Option Nat × Flags :=
  match levels with
  | 0 => (xs.headD none, fl)
  | n + 1 => let r := treeLevel op xs; treeRoot op n r.1 (fl ||| r.2)

/-- A NaN made canonical (R71). -/
def canonical (x : Nat) : Nat := match fp32.value x with | .nan _ => fp32.nan | .inf _ => x | .fin _ _ _ => x

/-- A floating reduction under the contributor's own FTZ setting, at every leaf and node (R291). -/
def floatTree (op : FpCtx → Nat → Nat → FRes) : XlnFn :=
  fun all x =>
    let c := FpCtx.mk .rne x.ftz false
    let leaves := (List.range 32).map (fun (j : Nat) => (operandOf all (j : Int)).map (fun v => fp32.flush x.ftz v.toNat))
    let r := treeRoot (op c) 5 leaves 0
    (BitVec.ofNat 32 (canonical (r.1.getD 0)), r.2)

/-- SHFLI (R290). -/
def execShfli (d a b : Opd) (s : State) : Host.Outcome State Fault Refusal :=
  .next (crossLane s d a b false (shuffle (fun _ n => (n : Int))))

/-- SHFLU (R290). -/
def execShflu (d a b : Opd) (s : State) : Host.Outcome State Fault Refusal :=
  .next (crossLane s d a b false (shuffle (fun l n => (l : Int) - (n : Int))))

/-- SHFLD (R290). -/
def execShfld (d a b : Opd) (s : State) : Host.Outcome State Fault Refusal :=
  .next (crossLane s d a b false (shuffle (fun l n => (l : Int) + (n : Int))))

/-- SHFLX (R290). -/
def execShflx (d a b : Opd) (s : State) : Host.Outcome State Fault Refusal :=
  .next (crossLane s d a b false (shuffle (fun l n => ((l ^^^ n : Nat) : Int))))

/-- VOTEALL (R290). -/
def execVoteall (d a : Opd) (s : State) : Host.Outcome State Fault Refusal :=
  .next (crossLane s d a .z false (fun all _ => (Word.ofBool (all.all (fun x => x.a.getLsbD 0)), 0)))

/-- VOTEANY (R290). -/
def execVoteany (d a : Opd) (s : State) : Host.Outcome State Fault Refusal :=
  .next (crossLane s d a .z false (fun all _ => (Word.ofBool (all.any (fun x => x.a.getLsbD 0)), 0)))

/-- BALLOT (R290). -/
def execBallot (d a : Opd) (s : State) : Host.Outcome State Fault Refusal :=
  .next (crossLane s d a .z false (fun all _ =>
    (laneMask ((all.filter (fun x => x.a.getLsbD 0)).map Arrival.lane), 0)))

/-- REDADD (R290). -/
def execRedadd (d a : Opd) (s : State) : Host.Outcome State Fault Refusal :=
  .next (crossLane s d a .z false (reduce (· + ·)))

/-- REDMIN (R290). -/
def execRedmin (d a : Opd) (s : State) : Host.Outcome State Fault Refusal :=
  .next (crossLane s d a .z false (reduce (fun x y => if sint x ≤ sint y then x else y)))

/-- REDMAX (R290). -/
def execRedmax (d a : Opd) (s : State) : Host.Outcome State Fault Refusal :=
  .next (crossLane s d a .z false (reduce (fun x y => if sint x ≤ sint y then y else x)))

/-- REDAND (R290). -/
def execRedand (d a : Opd) (s : State) : Host.Outcome State Fault Refusal :=
  .next (crossLane s d a .z false (reduce (· &&& ·)))

/-- REDOR (R290). -/
def execRedor (d a : Opd) (s : State) : Host.Outcome State Fault Refusal :=
  .next (crossLane s d a .z false (reduce (· ||| ·)))

/-- REDXOR (R290). -/
def execRedxor (d a : Opd) (s : State) : Host.Outcome State Fault Refusal :=
  .next (crossLane s d a .z false (reduce (· ^^^ ·)))

/-- FREDADD (R291). -/
def execFredadd (d a : Opd) (s : State) : Host.Outcome State Fault Refusal :=
  .next (crossLane s d a .z true (floatTree (fpAdd fp32)))

/-- FREDMIN (R291). -/
def execFredmin (d a : Opd) (s : State) : Host.Outcome State Fault Refusal :=
  .next (crossLane s d a .z true (floatTree (fun c x y => fpMinMax fp32 c false x y)))

/-- FREDMAX (R291). -/
def execFredmax (d a : Opd) (s : State) : Host.Outcome State Fault Refusal :=
  .next (crossLane s d a .z true (floatTree (fun c x y => fpMinMax fp32 c true x y)))

/-- SCANADD (R290), inclusive. -/
def execScanadd (d a : Opd) (s : State) : Host.Outcome State Fault Refusal :=
  .next (crossLane s d a .z false (fun all x =>
    ((all.filter (fun y => y.lane ≤ x.lane)).foldl (fun acc y => acc + y.a) 0, 0)))

/-- MATCH (R290). -/
def execMatchLanes (d a : Opd) (s : State) : Host.Outcome State Fault Refusal :=
  .next (crossLane s d a .z false (fun all x =>
    (laneMask ((all.filter (fun y => y.a == x.a)).map Arrival.lane), 0)))

/-- ELECT (R290). -/
def execElect (d : Opd) (s : State) : Host.Outcome State Fault Refusal :=
  .next (crossLane s d .z .z false (fun all x =>
    (Word.ofBool (all.all (fun y => x.lane ≤ y.lane)), 0)))

/-- ACTIVE (R292): the lanes of the issue group. -/
def execActive (d : Opd) (s : State) : Host.Outcome State Fault Refusal :=
  .next (resultInstr s d (fun _ _ _ _ =>
    .ok (laneMask (match s.focus with | some fo => fo.lanes | none => []), 0)))

end Sys2Proof.Machine
end

