-- ==== Sys2Proof/Machine/Objects.lean ====
section
/-! DEFINITION. The object table (R379 to R383, R390), ports and their queues (R393 to R395), the signals that
blacken a pipeline group's cores (R376), and device time. -/

namespace Sys2Proof.Machine

/-- The TYPE of an object (R380). -/
def bodyType (b : Body) : Nat :=
  match b with
  | .wave _ _ _ _ => 1
  | .port _ => 2
  | .ref _ _ _ => 2
  | .waitset _ => 3
  | .timer _ _ _ => 4
  | .space _ _ _ _ => 5
  | .mcgroup _ => 6
  | .stream _ => 7
  | .taskq _ _ _ => 8
  | .pipegroup _ _ _ => 9

/-- A handle (R379). -/
def handleWord (type gen idx : Nat) : Word := BitVec.ofNat 32 (type * 2 ^ 27 + gen % 128 * 2 ^ 20 + idx % 2 ^ 20)

/-- An entry of the object table. -/
def State.obj (s : State) (idx : Nat) : Obj := sgetD s.objs idx Obj.reset

/-- The table with an entry replaced. -/
def State.setObj (s : State) (idx : Nat) (o : Obj) : State := { s with objs := sput s.objs idx o }

/-- The contents of an entry replaced. -/
def State.setBody (s : State) (idx : Nat) (b : Body) : State := s.setObj idx { s.obj idx with body := some b }

/-- The handle of an allocated entry. -/
def State.handleOf (s : State) (idx : Nat) : Word :=
  match (s.obj idx).body with
  | some b => handleWord (bodyType b) (s.obj idx).gen idx
  | none => 0

/-- The entry a handle names, whatever its context: allocated, of the handle's TYPE and GEN (R382). -/
def State.entry (s : State) (h : Word) : Option (Nat × Body) :=
  let idx := wbits h 19 0
  match (s.obj idx).body with
  | some b =>
    if idx != 0 && bodyType b == wbits h 31 27 && (s.obj idx).gen % 128 == wbits h 26 20 then some (idx, b) else none
  | none => none

/-- The entry a handle of a context names (R382). -/
def State.live (s : State) (h : Word) (asid : Nat) : Option (Nat × Body) :=
  match s.entry h with
  | some (idx, b) => if (s.obj idx).asid == asid then some (idx, b) else none
  | none => none

/-- KERNEL_OBJ (R382). -/
def kernelObj (h : Word) : Trap := Trap.mk 0x38 0 h

/-- The number of entries of the object table. -/
def tableSize : Nat := 2 ^ 20

/-- A free entry, at a place the manual leaves open (R381). -/
def State.freeEntry (s : State) : Option Nat :=
  let used := (s.objs.filter (fun e => e.2.body.isSome)).map Prod.fst
  if tableSize - 1 ≤ used.length then none
  else
    let start := 1 + Config.freeNat s.freeCtr 1 % (tableSize - 1)
    match firstFree used start (tableSize - start) with
    | some i => some i
    | none => firstFree used 1 (start - 1)

/-- A new object: its index, or none when the table is full (R388). -/
def State.newObj (s : State) (asid : Nat) (b : Body) : Option (Nat × State) :=
  match s.freeEntry with
  | none => none
  | some i => some (i, { s.setObj i { s.obj i with asid := asid, body := some b } with freeCtr := s.freeCtr + 1 })

/-- An object taken out of every wait set that holds it (R390). -/
def State.dropFromSets (s : State) (h : Word) : State :=
  { s with objs := s.objs.map (fun e =>
      (e.1, { e.2 with body := e.2.body.map (fun b => match b with
        | .waitset slots => .waitset (slots.filter (fun x => x.2.1 != h))
        | .wave u x y z => .wave u x y z
        | .port p => .port p
        | .ref p q m => .ref p q m
        | .timer p d n => .timer p d n
        | .space a t b c => .space a t b c
        | .mcgroup ms => .mcgroup ms
        | .stream t => .stream t
        | .taskq b c n => .taskq b c n
        | .pipegroup x c k => .pipegroup x c k) })) }

/-- An entry freed: its GEN advances (R381), and no wait set holds it any more. -/
def State.freeObj (s : State) (idx : Nat) : State :=
  let s1 := s.dropFromSets (s.handleOf idx)
  s1.setObj idx { gen := ((s1.obj idx).gen + 1) % 128, asid := 0, body := none }

/-- Where a PORT handle leads (R383): the port itself here, one on another package, or one that is closed. -/
inductive PortAt where
  | here (idx : Nat) (p : Port)
  | away (pkg : Nat) (port : Word)
  | closed
  deriving DecidableEq, Repr

/-- The port of an entry, through a reference if it is one. -/
def State.portAt (s : State) (idx : Nat) (b : Body) : Option PortAt :=
  match b with
  | .port p => some (.here idx p)
  | .ref pkg h _ =>
    if pkg = s.pkgid then
      match s.entry h with
      | some (i, .port p) => some (.here i p)
      | _ => some .closed
    else some (.away pkg h)
  | _ => none

/-- The port a lane's handle operand leads to; none is KERNEL_OBJ. -/
def State.portOf (s : State) (h : Word) (asid : Nat) : Option PortAt :=
  match s.live h asid with
  | some (idx, b) => s.portAt idx b
  | none => none

/-- A port's contents replaced. -/
def State.setPort (s : State) (idx : Nat) (p : Port) : State := s.setBody idx (.port p)

/-- The core keys of the members of other agents that wait in KIDLE on a wait set that holds an object, each
with its group (R376). -/
def State.idleReceivers (s : State) (idx : Nat) : List (Nat × Nat) :=
  s.waves.filterMap (fun e =>
    match e.2.group with
    | none => none
    | some g =>
      let hit := e.2.lanes.any (fun x => match x.2.wait with
        | some wt => match wt.kind with
          | .idle ws _ => match (s.obj ws).body with
            | some (.waitset slots) => slots.any (fun y => wbits y.2.1 19 0 == idx)
            | _ => false
          | _ => false
        | none => false)
      if hit then some (g, e.2.coreKey) else none)

/-- A core of a group made black (R376). DEDUCED, log entry 53. -/
def State.blacken (s : State) (group core : Nat) : State :=
  match (s.obj group).body with
  | some (.pipegroup ended cone cores) =>
    s.setBody group (.pipegroup ended cone (if cores.contains core then cores else core :: cores))
  | _ => s

/-- An object is signalled by a member's KSEND (its wave given) or by an agent outside the group: the cores of R376
turn black. -/
def State.signalled (s : State) (idx : Nat) (sender : Option Nat) : State :=
  (s.idleReceivers idx).foldl (fun t r =>
    match sender.bind t.wave with
    | some w => if w.group == some r.1 then (if r.2 < w.coreKey then t.blacken r.1 w.coreKey else t) else t.blacken r.1 r.2
    | none => t.blacken r.1 r.2) s

/-- The messages in a port's queue and those that have a place in it reserved (R394, R396). -/
def State.queueLen (s : State) (idx : Nat) (p : Port) : Nat := p.queue.length + (s.arriving.filter (fun x => x.port == idx)).length

/-- A SOURCE for a message of the part itself, to which the manual gives none: of a form that R204 lists. -/
def State.ownSource (s : State) : Word :=
  let n := Config.freeNat s.freeCtr 2 % (3 * 2 ^ 20)
  BitVec.ofNat 32 (n / 2 ^ 20 * 2 ^ 29 + (if n < 2 ^ 20 then s.pkgid % 512 * 2 ^ 20 else 0) + n % 2 ^ 20)

/-- A message put into a port's queue, which signals the port (R394, R400). -/
def State.enqueue (s : State) (idx : Nat) (p : Port) (m : Msg) (sender : Option Nat) : State :=
  (s.setPort idx { p with queue := p.queue ++ [m] }).signalled idx sender

/-- A message to another package's Logen (R394, R405, R406): its number here, with its end-to-end number; it leaves as a KMSG flit
(R184). -/
def State.newKmsg (s : State) (k : Kmsg) : Nat × State :=
  let n := s.fabric.nextReq
  let seq := sgetD s.kmsgNext k.dest 0
  (n, { s with
    fabric := { s.fabric with nextReq := n + 1 },
    kmsgs := sput s.kmsgs n { k with seq := seq, sentAt := s.time },
    kmsgNext := sput s.kmsgNext k.dest (seq + 1) }.sendFlit 0 (.kmsg n k.dest seq k.body))

/-- A message of Logen or an engine that no lane waits for. -/
def State.tellLogen (s : State) (dest : Nat) (body : KmsgBody) : State :=
  (s.newKmsg { wave := 0, lane := 0, asid := 0, dest := dest, seq := 0, body := body, pages := [], port := 0, sentAt := 0 }).2

/-- Device time that has reached at least an instant (R402). -/
def State.atLeast (s : State) (t : Nat) : State := { s with time := max s.time t }

/-- A counted event in an object's pending count, saturating (R400). -/
def addPending (n k : Nat) : Nat := min 65535 (n + k)

/-- The TASKQ objects of a context that cover a task record are signalled (R400). -/
def State.signalTaskqs (s : State) (asid va : Nat) : State :=
  s.objs.foldl (fun t e => match e.2.body with
    | some (.taskq base count n) =>
      if e.2.asid == asid && decide (base * 128 ≤ va) && decide (va < base * 128 + 128 * count) then
        (t.setBody e.1 (.taskq base count (addPending n 1))).signalled e.1 none
      else t
    | _ => t) s

/-- Whether the sender of a rendezvous that no post has matched still waits for it (R210, R254). -/
def State.senderWaits (s : State) (x : Sender) : Bool :=
  match x with
  | .away _ _ => true
  | .lane u l n _ =>
    match (s.lane u l).bind Lane.wait with
    | some wt => wt.kind == .rendezvous n
    | none => false

/-- The unexpected queue (R210): without the rendezvous of lanes that have stopped waiting. -/
def State.uq (s : State) : List Unexpected :=
  s.unexpected.filter (fun e => match e.sender with | some x => s.senderWaits x | none => true)

/-- The tickets of the lanes that wait for something of a kind and have no answer; the lanes of a wave that is being
saved wait no more (R254, R417). -/
def State.waiters (s : State) (p : WaitKind → Bool) : List Nat :=
  s.waves.flatMap (fun e =>
    if e.2.st == .saving then []
    else e.2.lanes.filterMap (fun x => match x.2.wait with
      | some wt => if p wt.kind && wt.status.isNone then some wt.ticket else none
      | none => none))

/-- How many of them began to wait before a lane. -/
def State.ahead (s : State) (p : WaitKind → Bool) (ln : Lane) : Nat :=
  match ln.wait with
  | some wt => ((s.waiters p).filter (fun t => decide (t < wt.ticket))).length
  | none => (s.waiters p).length

/-- PEER_CLOSED of an empty port (R395): its send count, once non-zero, has fallen to 0. -/
def Port.peerClosed (p : Port) : Bool := p.queue.isEmpty && p.hadSenders && p.senders == 0

/-- Whether a wait set holds an object. -/
def State.holds (s : State) (ws idx : Nat) : Bool :=
  match (s.obj ws).body with
  | some (.waitset slots) => slots.any (fun e => wbits e.2.1 19 0 == idx)
  | _ => false

/-- Whether an object is signalled (R400) for a lane that some others go before in taking counted events. -/
def State.isSignalled (s : State) (idx before : Nat) : Bool :=
  match (s.obj idx).body with
  | some (.port p) => !p.queue.isEmpty || (!p.matched && p.peerClosed)
  | some (.wave _ ended _ _) => ended
  | some (.timer _ _ n) => decide (before < n)
  | some (.taskq _ _ n) => decide (before < n)
  | some (.pipegroup ended _ _) => ended
  | _ => false

/-- The lowest slot of a wait set whose object is signalled, beside the counted events that others take (R401): the object and the key. -/
def State.firstSignalled (s : State) (ws : Nat) (taken : Sparse Nat) : Option (Nat × Word) :=
  match (s.obj ws).body with
  | some (.waitset slots) =>
    slots.findSome? (fun e =>
      let i := wbits e.2.1 19 0
      if s.isSignalled i (sgetD taken i 0) then some (i, e.2.2) else none)
  | _ => none

/-- A waiter, by its ticket, among others in rising order. -/
def insertWaiter (x : Nat × Nat) (xs : List (Nat × Nat)) : List (Nat × Nat) :=
  match xs with
  | [] => [x]
  | y :: rest => if x.1 < y.1 then x :: y :: rest else y :: insertWaiter x rest

/-- The lanes that wait in KWAIT, in the order they began to: their tickets and wait sets. -/
def State.setWaiters (s : State) : List (Nat × Nat) :=
  (s.waves.flatMap (fun e =>
    if e.2.st == .saving then []
    else e.2.lanes.filterMap (fun x => match x.2.wait with
      | some wt => match wt.kind with
        | .waitSet ws _ => if wt.status.isNone then some (wt.ticket, ws) else none
        | _ => none
      | none => none))).foldl (fun xs x => insertWaiter x xs) []

/-- The events that those which began to wait before a lane take, by object (R401): each that of its lowest signalled slot. -/
def State.claims (s : State) (ln : Lane) : Sparse Nat :=
  let first : List (Nat × Nat) := match ln.wait with
    | some wt => s.setWaiters.filter (fun x => decide (x.1 < wt.ticket))
    | none => s.setWaiters
  first.foldl (fun (taken : Sparse Nat) (x : Nat × Nat) => match s.firstSignalled x.2 taken with
    | some (i, _) => sput taken i (sgetD taken i 0 + 1)
    | none => taken) []

/-- The lowest slot of a wait set whose object is signalled for a lane (R401): the object and the key. -/
def State.lowestSignalled (s : State) (ws : Nat) (ln : Lane) : Option (Nat × Word) := s.firstSignalled ws (s.claims ln)

/-- Something in a wait set is signalled (R376, R378). -/
def State.anySignalled (s : State) (ws : Nat) : Bool :=
  match (s.obj ws).body with
  | some (.waitset slots) => slots.any (fun e => s.isSignalled (wbits e.2.1 19 0) 0)
  | _ => false

/-- A lane waits in KIDLE with nothing signalled in its wait set (R376). -/
def State.laneIdle (s : State) (ln : Lane) : Bool :=
  match ln.wait with
  | some wt =>
    match wt.kind with
    | .idle ws _ => !s.anySignalled ws
    | _ => false
  | none => false

/-- The SPACE that describes a context (R389): TTAB, ALLOCBASE, ALLOCCHUNKS. -/
def State.spaceOf (s : State) (asid : Nat) : Option (Nat × Nat × Nat) :=
  s.objs.findSome? (fun e => match e.2.body with
    | some (.space a ttab base chunks) => if a == asid then some (ttab, base, chunks) else none
    | _ => none)

end Sys2Proof.Machine
end

