-- ==== Sys2Proof/Machine/Regs.lean ====
section
/-! DEFINITION. What a word of the register blocks of MMIO reads (R5, R97, R166 to R169, R179, R198, R217, R398, R407, R440). -/

namespace Sys2Proof.Machine

/-- The width code of a module (R168): the narrower direction's. -/
def LinkRegs.moduleWidth (k : LinkRegs) (m : Nat) : Nat := max (k.widths.getD (2 * m) 0) (k.widths.getD (2 * m + 1) 0)

/-- LKWIDTH (R168). -/
def LinkRegs.widthWord (k : LinkRegs) : Nat := (List.range 8).foldl (fun n m => n + k.moduleWidth m * 4 ^ m) 0

/-- LKRETIRED (R168). -/
def LinkRegs.retiredWord (k : LinkRegs) : Nat := (List.range 8).foldl (fun n m => n + k.retired.getD m 0 * 16 ^ m) 0

/-- FEATURES0 of a shipped part (R440). -/
def features0 : Nat := 0x1F

/-- The low or high word of a 64-bit register. -/
def halfOf (v : Nat) (hi : Bool) : Nat := if hi then v / 2 ^ 32 % 2 ^ 32 else v % 2 ^ 32

/-- A 64-bit register with one word replaced. -/
def setHalf (v : Nat) (hi : Bool) (w : Nat) : Nat := if hi then v % 2 ^ 32 + w * 2 ^ 32 else v / 2 ^ 32 * 2 ^ 32 + w

/-- The value of a truth bit at a place. -/
def bitAt (b : Bool) (n : Nat) : Nat := if b then 2 ^ n else 0

/-- CTXROOT and XLATEN (R97). -/
def MemCfg.root (c : MemCfg) : Nat := c.ctxroot * 4096 + bitAt c.xlaten 0

/-- BRINGUP at 0x10 (R440). -/
def Bringup.word (b : Bringup) : Nat :=
  bitAt b.done 31 + bitAt b.failed 30 + bitAt b.accepted 29 + (List.range 5).foldl (fun n i => n + b.phases.getD i 0 % 4 * 4 ^ i) 0

/-- The words of a link's block (R166 to R169). -/
def LinkRegs.word (k : LinkRegs) (o : Nat) : Nat :=
  match o with
  | 0x00 => bitAt k.busy 31 + k.status % 4 * 2 ^ 29 + bitAt k.autofb 16 + k.cur % 256 * 256 + k.target % 256
  | 0x04 => k.widthWord
  | 0x08 => k.replay
  | 0x0C => k.crcErr
  | 0x10 => k.retiredWord
  | 0x14 => k.ber
  | 0x18 => k.replayMax
  | _ => 0

/-- The words of a host queue's block (R407). -/
def HostQueue.word (q : HostQueue) (o : Nat) : Nat :=
  match o with
  | 0x00 => bitAt q.en 31 + bitAt q.irq 30 + bitAt q.privq 29 + q.log2 * 2 ^ 16 + q.prio * 2 ^ 8
  | 0x04 => q.asid
  | 0x08 => halfOf (q.base * 4096) false
  | 0x0C => halfOf (q.base * 4096) true
  | 0x10 => halfOf (q.comp * 32) false
  | 0x14 => halfOf (q.comp * 32) true
  | 0x18 => q.tail
  | 0x1C => q.head
  | 0x20 => q.seq
  | _ => 0

/-- The fabric block's words (R198). -/
def Fabric.word (f : Fabric) (o : Nat) : Nat :=
  match o with
  | 0x00 => (List.range 16).foldl (fun n k => n + f.ports.getD k 0 % 4 * 4 ^ k) 0
  | 0x08 => f.planemap.toNat
  | 0x10 => f.timeout
  | 0x18 => f.authErr
  | 0x1C => (List.range 16).foldl (fun n k => n + bitAt (f.txGen k) (2 * k) + bitAt (f.rekeying k) (2 * k + 1)) 0
  | _ => 0

/-- The number of live STREAM objects (R217). -/
def State.streamCount (s : State) : Nat :=
  (s.objs.filter (fun e => match e.2.body with | some (.stream _) => true | _ => false)).length

/-- A host queue. -/
def State.queue (s : State) (q : Nat) : HostQueue := (s.queues[q]?).getD HostQueue.reset

/-- The state with a host queue replaced. -/
def State.setQueue (s : State) (q : Nat) (x : HostQueue) : State := { s with queues := s.queues.set q x }

/-- The word that MMIO reads at an offset; a register the manual does not list reads 0 (R6). -/
def State.mmioWord (s : State) (off : Nat) : Word :=
  BitVec.ofNat 32 <|
    if 0x2000 ≤ off && off < 0x2300 then (s.link ((off - 0x2000) / 64)).word (off % 64)
    else if 0x5000 ≤ off && off < 0x6000 then (s.queue ((off - 0x5000) / 64)).word (off % 64)
    else if 0x3000 ≤ off && off < 0x4000 then s.fabric.word (off - 0x3000)
    else
      match off with
      | 0x1000 => bitAt s.cfg.lock 31 + s.cfg.wingib
      | 0x1008 => halfOf s.cfg.root false
      | 0x100C => halfOf s.cfg.root true
      | 0x2400 => s.linkCtl.evPort.toNat
      | 0x2408 => s.linkCtl.evLost
      | 0x2418 => bitAt s.linkCtl.resetBusy 31
      | 0x4000 => min 65536 s.uq.length
      | 0x4004 => s.rxDrop.toNat
      | 0x4008 => s.ethMsgUdp
      | 0x400C => s.streamCount
      | 0x4010 => bitAt s.ptpLock 0
      | 0x6000 => features0
      | 0x6008 => halfOf s.bringup.drvaccept false
      | 0x600C => halfOf s.bringup.drvaccept true
      | 0x6010 => s.bringup.word
      | 0x6018 => s.bringup.pwrLimit
      | 0x601C => s.hostgib
      | 0x6020 => s.pkgid
      | 0x6024 => s.podsize
      | 0x7008 => (s.pool.filter (fun f => f.size == 0)).length
      | 0x700C => (s.pool.filter (fun f => f.size == 1)).length
      | 0x7010 => (s.pool.filter (fun f => f.size == 2)).length
      | 0x7014 => (s.pool.filter (fun f => f.size == 3)).length
      | 0x7018 => s.gpReject.toNat
      | _ => 0

/-- MMIO as an aligned w or 2w read gives it (R103). -/
def State.mmioRead (s : State) (off n : Nat) : List Byte :=
  natLe 4 (s.mmioWord off).toNat ++ (if n = 8 then natLe 4 (s.mmioWord (off + 4)).toNat else [])

/-- An access to MMIO that R103 allows: naturally aligned, of 4 or 8 bytes. -/
def mmioForm (va n : Nat) : Bool := (n == 4 || n == 8) && va % n == 0

/-- A write of the part to a register, which is its next step. -/
def State.mmioNext (s : State) (off n : Nat) (bs : List Byte) : State :=
  { s with agenda := .step (.registerWrite off n (BitVec.ofNat 64 (leNat bs))) :: s.agenda }

end Sys2Proof.Machine
end

