-- ==== Sys2Proof/Machine/Home.lean ====
section
/-! DEFINITION. Memory at its home: stores, the L1 copies of a core (R112 to R116, R359), host-homed lines (R426),
full-line writes and POISON (R182), and the accesses engines make for a context (R474). -/

namespace Sys2Proof.Machine

/-- Bytes stored at their home through an agent's L2, which then holds the line in M (R112, R113). DESIGN CHOICE, log entry 10. -/
def State.storeAs (s : State) (agent la : Nat) (bs : List Byte) : State :=
  let s1 := if bs.length < 128 && (sget s.dir (lineOf la)).isNone then s.readCells (lineOf la) else s
  { s1.ownBy agent (lineOf la) with mem := zwrite s.mem la bs }

/-- Bytes stored by the agent of this step. -/
def State.storeHome (s : State) (la : Nat) (bs : List Byte) : State := s.storeAs s.agent la bs

/-- A dirty line written back to its home (R159, R364, R426); a host-homed one only while the CXL link is up. -/
def State.writeBack (s : State) (line : Nat) : State :=
  match sget s.dir line with
  | none => s
  | some d =>
    if !d.dirty then s
    else if s.lineHome line = 7 then
      if s.host.up then { s with dir := sput s.dir line { d with st := .s, back := [] }, sent := .writeBack line :: s.sent } else s
    else { s with dir := sput s.dir line { d with st := .s, back := [] } }

/-- A line's POISON mark cleared by a full-line write (R182), which also rewrites its HBM cells. -/
def State.unpoison (s : State) (line : Nat) : State :=
  { s with poison := s.poison.filter (fun x => x != line), ecc := s.ecc.filter (fun x => x != line) }

/-- A line copy with bytes replaced at an offset. -/
def patchCopy (copy : List Byte) (off : Nat) (bs : List Byte) : List Byte :=
  copy.take off ++ bs ++ copy.drop (off + bs.length)

/-- The 16-byte sector of a local address (R114). -/
def sectorOf (la : Nat) : Nat := la / 16

/-- The sectors of an L1 of 256 KiB (R14). -/
def l1Sectors : Nat := 16384

/-- Bytes put into a sector that L1 holds. -/
def CoreState.patchSector (c : CoreState) (la : Nat) (bs : List Byte) : CoreState :=
  match sget c.l1 (sectorOf la) with
  | none => c
  | some copy => { c with l1 := sput c.l1 (sectorOf la) (patchCopy copy (la % 16) bs) }

/-- Bytes put into the sectors that L1 holds, sector by sector over k of them. -/
def CoreState.patch (c : CoreState) (la : Nat) (bs : List Byte) (k : Nat) : CoreState :=
  match k with
  | 0 => c
  | k + 1 =>
    let n := 16 - la % 16
    if bs.length ≤ n then c.patchSector la bs else (c.patchSector la (bs.take n)).patch (la + n) (bs.drop n) k

/-- A store of a core updates the blocks that its L1 holds (R115). DEDUCED, log entry 40. -/
def State.patchL1 (s : State) (core la : Nat) (bs : List Byte) : State :=
  s.modCore core (fun c => c.patch la bs (bs.length / 16 + 2))

/-- The dirty private sectors that a core's L1 holds (R115). -/
def State.privSectors (s : State) (core : Nat) : Nat :=
  s.waves.foldl (fun n e => if e.2.coreKey = core then n + e.2.privDirty.length else n) 0

/-- L1 copies kept within a number of sectors: which go is left open (R114). -/
def fitL1 (ctr room : Nat) (xs : Sparse (List Byte)) (k : Nat) : Sparse (List Byte) :=
  match k with
  | 0 => xs
  | k + 1 => if xs.length ≤ room then xs else fitL1 ctr room (xs.eraseIdx (Config.freeNat ctr (64 + k) % xs.length)) k

/-- The sectors of the block that a miss allocates: 1, 2, 4 or 8 of them, aligned, in one line (R114). The predictor's size is left
open. -/
def blockOf (ctr la : Nat) : List Nat :=
  let n := 2 ^ (Config.freeNat ctr la % 4)
  (List.range n).map (fun i => sectorOf la / n * n + i)

/-- L1 with the sectors of a block filled from the home, those it held already kept. -/
def CoreState.fill (c : CoreState) (home : Nat → List Byte) (block : List Nat) : Sparse (List Byte) :=
  block.foldl (fun xs sec => if (sget xs sec).isSome then xs else sput xs sec (home (16 * sec))) c.l1

/-- A miss fills a block, in which the sector that was wanted is taken afresh. -/
def State.fillL1 (s : State) (core la : Nat) : State :=
  (s.receive la).modCore core (fun c =>
    let c1 := { c with l1 := sdel c.l1 (sectorOf la) }
    { c with l1 := fitL1 s.freeCtr (l1Sectors - s.privSectors core) (c1.fill (fun a => s.home a 16) (blockOf s.freeCtr la)) 8 })

/-- A read of bytes in one sector that L1 serves (R359): the copy filled earlier where it still has one, perhaps of a line poisoned
since (R182). -/
def State.l1Serves (s : State) (core la n : Nat) : Option (List Byte) :=
  match sget (s.core core).l1 (sectorOf la) with
  | none => none
  | some copy => if Config.choice s.freeCtr la then some ((copy.drop (la % 16)).take n) else none

/-- A sector that L1 gives up. -/
def State.dropSector (s : State) (core la : Nat) : State := s.modCore core (fun c => { c with l1 := sdel c.l1 (sectorOf la) })

/-- What a read within one sector that L1 may serve sees (R359): its copy, or the home's bytes, which it then holds; a load that does
not allocate leaves no older copy there (R137, R144). -/
def State.loadSector (s : State) (core la n : Nat) (alloc : Bool) : Option (List Byte) × State :=
  match s.l1Serves core la n with
  | some bs => (some bs, s)
  | none =>
    if s.poisoned la n then (none, s.found la)
    else (some (s.home la n), if alloc then s.fillL1 core la else (s.receive la).dropSector core la)

/-- The reads of a range within one line, sector by sector over k of them. -/
def State.loadSectors (s : State) (core la n : Nat) (alloc : Bool) (k : Nat) : Option (List Byte) × State :=
  match k with
  | 0 => (some [], s)
  | k + 1 =>
    let c := min n (16 - la % 16)
    if n = 0 then (some [], s)
    else
      match s.loadSector core la c alloc with
      | (none, s1) => (none, s1)
      | (some bs, s1) =>
        match s1.loadSectors core (la + c) (n - c) alloc k with
        | (none, s2) => (none, s2)
        | (some rest, s2) => (some (bs ++ rest), s2)

/-- What a read that L1 may serve sees. -/
def State.loadL1 (s : State) (core la n : Nat) (alloc : Bool) : Option (List Byte) × State :=
  if la % 16 + n ≤ 16 then s.loadSector core la n alloc else s.loadSectors core la n alloc 9

/-- The bytes up to the next line boundary, at most n. -/
def chunkOf (va n : Nat) : Nat := min n (128 - va % 128)

/-- An engine's read of bytes within one line, at .pkg (R236, R332, R338); pod-remote bytes come from rem, what the step has been
answered so far. -/
def State.engReadChunk (s : State) (a : Acc) (va n : Nat) (rem : List Byte) : Except Trap (List Byte × List Byte × State) :=
  match s.translate a va with
  | .error t => .error t
  | .ok t =>
    let la := localOf t.pa
    match t.kind with
    | .hbm | .host =>
      if !s.reachable t then .error (s.linkTrap t)
      else
        match s.hostFault la with
        | some k => .error (hostTrap va k)
        | none => if s.poisoned la n then .error (s.poisonIn va la n) else .ok (s.home la n, rem, (s.receive la).noteTlb a.asid t)
    | .remote =>
      if rem.length < n then .error (s.needs a va t n .load [] 0) else .ok (rem.take n, rem.drop n, s.noteTlb a.asid t)
    | .info =>
      let page := s.infoPage.getD []
      .ok ((List.range n).map (fun i => page.getD (t.pa + i) 0), rem, s)
    | .mmio =>
      if !mmioForm va n then .error (Trap.mk 0x12 va 0)
      else if !s.reachable t then .error (s.linkTrap t)
      else .ok (s.mmioRead (la - mmioBase) n, rem, s.noteTlb a.asid t)

/-- An engine's read, line by line over k lines. -/
def State.engReadLines (s : State) (a : Acc) (va n : Nat) (rem : List Byte) (k : Nat) : Except Trap (List Byte × List Byte × State) :=
  match k with
  | 0 => .ok ([], rem, s)
  | k + 1 =>
    if n = 0 then .ok ([], rem, s)
    else
      let c := chunkOf va n
      match s.engReadChunk a va c rem with
      | .error t => .error t
      | .ok (bs, rem1, s1) =>
        match s1.engReadLines a (va + c) (n - c) rem1 k with
        | .error t => .error t
        | .ok (rest, rem2, s2) => .ok (bs ++ rest, rem2, s2)

/-- An engine's read of n bytes. -/
def State.engRead (s : State) (a : Acc) (va n : Nat) (rem : List Byte) : Except Trap (List Byte × List Byte × State) :=
  s.engReadLines a va n rem (n / 128 + 2)

/-- The next word that came with an access to another package, taken. -/
def State.takeAck (s : State) : Option (Word × State) :=
  match s.run.acks with
  | w :: rest => some (w, { s with run := { s.run with acks := rest } })
  | [] => none

/-- An operation that writes at a pod-remote home (R186): what came with its answer, or what it needs. -/
def State.remoteOp (s : State) (a : Acc) (va : Nat) (t : Target) (n : Nat) (op : HomeOp) (data : List Byte) (expected : Word) :
    Except Trap (Word × State) :=
  match s.takeAck with
  | some r => .ok r
  | none => .error (s.needs a va t n op data expected)

/-- The core whose lane makes the accesses of this step. -/
def State.runCore (s : State) : Option Nat := (s.focus.bind (fun fo => s.wave fo.wave)).map Wave.coreKey

/-- Bytes stored at their home by the part for whoever runs: a lane's own L1 follows (R115, R359). -/
def State.storeRun (s : State) (la : Nat) (bs : List Byte) : State :=
  match s.runCore with
  | some core => (s.storeHome la bs).patchL1 core la bs
  | none => s.storeHome la bs

/-- An operation of the part within one line, with the access it is checked as: at its home on this package by f, on another one as
what the answer to it says (R151, R186, R474). -/
def State.engOp (s : State) (a : Acc) (va n : Nat) (op : HomeOp) (data : List Byte)
    (f : State → Nat → Except Trap (Word × State)) : Except Trap (Word × State) :=
  match s.translate a va with
  | .error t => .error t
  | .ok t =>
    match t.kind with
    | .hbm | .host =>
      if !s.reachable t then .error (s.linkTrap t)
      else
        match s.hostFault (localOf t.pa) with
        | some k => .error (hostTrap va k)
        | none => f (s.noteTlb a.asid t) (localOf t.pa)
    | .remote => (s.noteTlb a.asid t).remoteOp a va t n op data 0
    | .info => .error (protFault a va 0 reasonInfoPage)
    | .mmio =>
      if op != .store then .error (protFault { a with write := true } va t.level reasonNoAtom)
      else if !mmioForm va n then .error (Trap.mk 0x12 va 0)
      else if !s.reachable t then .error (s.linkTrap t)
      else .ok (0, (s.noteTlb a.asid t).mmioNext (localOf t.pa - mmioBase) n data)

/-- Bytes stored at a home, a full-line write clearing POISON (R182). -/
def State.writeAt (s : State) (va : Nat) (bs : List Byte) (la : Nat) : Except Trap (Word × State) :=
  if bs.length = 128 && s.run.full then .ok (0, (s.unpoison (lineOf la)).storeRun la bs)
  else if s.poisoned la bs.length then .error (s.poisonIn va la bs.length)
  else .ok (0, s.storeRun la bs)

/-- An engine's write of bytes within one line. -/
def State.engWriteChunk (s : State) (a : Acc) (va : Nat) (bs : List Byte) : Except Trap State :=
  match s.engOp { a with write := true } va bs.length .store bs (fun t la => t.writeAt va bs la) with
  | .error t => .error t
  | .ok r => .ok r.2

/-- The new word of an atomic, with the flags of a floating one (R149, R150); mode is FPMODE[3:0] as captured. -/
def atomNew (op : AtomOp) (mode : Word) (old b d : Word) : Word × Flags :=
  let c := FpCtx.mk (RMode.ofCode (wbits mode 2 0)) (mode.getLsbD 3) false
  let fp (r : FRes) : Word × Flags := (BitVec.ofNat 32 r.bits, r.flags)
  match op with
  | .add => (old + b, 0)
  | .sub => (old - b, 0)
  | .smin => (if old.toInt ≤ b.toInt then old else b, 0)
  | .smax => (if old.toInt ≤ b.toInt then b else old, 0)
  | .umin => (if old.toNat ≤ b.toNat then old else b, 0)
  | .umax => (if old.toNat ≤ b.toNat then b else old, 0)
  | .and => (old &&& b, 0)
  | .or => (old ||| b, 0)
  | .xor => (old ^^^ b, 0)
  | .exch => (b, 0)
  | .cas => (if old = d then b else old, 0)
  | .fadd => fp (fpAdd fp32 c old.toNat b.toNat)
  | .fmin => fp (fpMinMax fp32 c false old.toNat b.toNat)
  | .fmax => fp (fpMinMax fp32 c true old.toNat b.toNat)
  | .incw => (if b.toNat ≤ old.toNat then 0 else old + 1, 0)
  | .decw => (if old = 0 || b.toNat < old.toNat then b else old - 1, 0)

/-- The agent at which an atomic on a word is performed (R151): an HBM word's home die, or the L2 that the access goes through. -/
def State.atomAgent (s : State) (la : Nat) : Nat := if la < hbmEnd then s.homeDie la else s.agent

/-- Bytes replaced at their home by an atomic of whoever runs. -/
def State.atomBytes (s : State) (la : Nat) (bs : List Byte) : State :=
  match s.runCore with
  | some core => (s.storeAs (s.atomAgent la) la bs).patchL1 core la bs
  | none => s.storeAs (s.atomAgent la) la bs

/-- A word replaced at its home by an atomic of whoever runs. -/
def State.atomStore (s : State) (la : Nat) (new : Word) : State := s.atomBytes la (natLe 4 new.toNat)

/-- One more in a 64-bit count (R238). -/
def countMore (bs : List Byte) : List Byte := natLe 8 (leNat (bs.take 8) + 1)

/-- An atomic of the part on a word (R129, R238, R341), checked as the access given: the old word. -/
def State.engAtomic (s : State) (a : Acc) (va : Nat) (op : AtomOp) (b : Word) : Except Trap (Word × State) :=
  s.engOp a va 4 (.atomic op) (natLe 4 b.toNat) (fun t la =>
    if t.poisoned la 4 then .error (t.poisonIn va la 4)
    else
      let old := wordAt (t.home la 4) 0
      .ok (old, t.atomStore la (atomNew op 0 old b 0).1))

/-- An atomic performed at its home in this package, for a step that keeps its result (R92). -/
def State.atomHere (s : State) (pa : Nat) (op : HomeOp) (data : List Byte) : Word × State :=
  let la := localOf pa
  let old := wordAt (s.home la 4) 0
  match op with
  | .atomic o => (old, s.atomStore la (atomNew o 0 old (wordAt data 0) 0).1)
  | .increment => (old, s.atomBytes la (countMore (s.home la 8)))
  | .load | .store | .nibble _ | .publish | .decrement => (old, s)

/-- An atomic of the part that is performed once, as an operation of its own, whatever its step has to wait for afterwards (R92, R238):
the step goes on with the word that it returned. -/
def State.engPinnedOp (s : State) (a : Acc) (va n : Nat) (op : HomeOp) (data : List Byte) : Except Trap (Word × State) :=
  s.engOp a va n op data (fun t la =>
    if t.poisoned la n then .error (t.poisonIn va la n)
    else
      match t.takeAck with
      | some r => .ok r
      | none => .error (Trap.ask va (.access (t.pkgid * 2 ^ 47 + la) n op data 0)))

/-- The same of an atomic on a word. -/
def State.engPinned (s : State) (a : Acc) (va : Nat) (op : AtomOp) (b : Word) : Except Trap (Word × State) :=
  s.engPinnedOp a va 4 (.atomic op) (natLe 4 b.toNat)

/-- A byte with four of its bits replaced (R161). -/
def nibbleOf (old : Nat) (high : Bool) (bits : Nat) : Nat :=
  if high then old % 16 + bits % 16 * 16 else old / 16 * 16 + bits % 16

/-- A store of the low or high four bits of a byte, as one update at its home (R161). -/
def State.engNibble (s : State) (a : Acc) (va : Nat) (high : Bool) (bits : Nat) : Except Trap State :=
  match s.engOp { a with write := true } va 1 (.nibble high) (natLe 1 (bits % 16)) (fun t la =>
    if t.poisoned la 1 then .error (t.poisonIn va la 1)
    else .ok (0, t.storeRun la (natLe 1 (nibbleOf (leNat (t.home la 1)) high bits)))) with
  | .error t => .error t
  | .ok r => .ok r.2

/-- An engine's write, line by line over k lines: what precedes a fault stays written. -/
def State.engWriteLines (s : State) (a : Acc) (va : Nat) (bs : List Byte) (k : Nat) : State × Option Trap :=
  match k with
  | 0 => (s, none)
  | k + 1 =>
    if bs.isEmpty then (s, none)
    else
      let c := chunkOf va bs.length
      match s.engWriteChunk a va (bs.take c) with
      | .error t => (s, some t)
      | .ok s1 => s1.engWriteLines a (va + c) (bs.drop c) k

/-- An engine's write. -/
def State.engWrite (s : State) (a : Acc) (va : Nat) (bs : List Byte) : State × Option Trap :=
  s.engWriteLines a va bs (bs.length / 128 + 2)

/-- Whether every page of a range translates for an access: the first fault (R334, R339). -/
def State.pagesFault (s : State) (a : Acc) (va n : Nat) (k : Nat) : Option Trap :=
  match k with
  | 0 => none
  | k + 1 =>
    if n = 0 then none
    else
      match s.translate a va with
      | .error t => some t
      | .ok t =>
        if t.kind == .mmio then some (Trap.mk 0x12 va 0)
        else
          let c := min n (4096 - va % 4096)
          s.pagesFault a (va + c) (n - c) k

/-- The access of an engine for a context (R474). -/
def engAcc (asid : Nat) (priv : Bool) : Acc := Acc.mk asid priv false false true

/-- The access of a lane. -/
def laneAcc (w : Wave) (ln : Lane) (write : Bool) : Acc := Acc.mk w.asid ln.isPriv write false false

/-- Where the byte at a private offset of a lane stands (R117). -/
def Wave.privPlace (w : Wave) (l o : Nat) : Nat := w.area + 128 * (o / 4) + 4 * l + o % 4

/-- The sectors of a private access of a lane: one of each of its words (R117). -/
def Wave.privSectors (w : Wave) (l o n : Nat) : List Nat := (List.range ((n + 3) / 4)).map (fun k => sectorOf (w.privPlace l (o + 4 * k)))

/-- What stops a private access (R115, R164, R182): a sector that L1 does not hold dirty, of a poisoned line, or behind a die link that
retrains; full says which lines the group's stores cover. TRAPVA is the private offset, as for PROT. DESIGN CHOICE, log entry 94. -/
def State.privTrap (s : State) (u l o n : Nat) (full : Nat → Bool) : Option Trap :=
  match s.wave u with
  | none => none
  | some w =>
    (w.privSectors l o n).findSome? (fun sec =>
      if w.privDirty.contains sec then none
      else if !s.reach w.die (s.homeDie (16 * sec)) then some (Trap.ask o (.link w.die (s.homeDie (16 * sec))))
      else if s.badLine (sec / 8) && !full (sec / 8) then some (poisonAt o (sec / 8))
      else none)

/-- A dirty private sector written back to L2 (R115, R119). Its bytes go on standing in Lane.priv: an area has no virtual address, and
State.mem holds none of it (R117, log entry 8). -/
def State.writeBackPriv (s : State) (u sec : Nat) : State :=
  match s.wave u with
  | none => s
  | some w => (s.ownBy w.die (sec / 8)).setWave u { w with privDirty := w.privDirty.filter (fun x => x != sec) }

/-- The first wave of a core that has dirty private sectors, for eviction. -/
def State.dirtyWave (s : State) (core : Nat) : Option (Nat × Wave) := s.waves.find? (fun e => e.2.coreKey == core && !e.2.privDirty.isEmpty)

/-- A private sector that becomes dirty in L1 (R115), within L1's size: an older one is evicted, or shared blocks go. -/
def State.dirtyPriv (s : State) (u sec : Nat) : State :=
  match s.wave u with
  | none => s
  | some w =>
    if w.privDirty.contains sec then s
    else
      let s1 := if s.privSectors w.coreKey < l1Sectors then s else
        match s.dirtyWave w.coreKey with
        | some (v, x) => s.writeBackPriv v (x.privDirty.getD (Config.freeNat s.freeCtr 7 % x.privDirty.length) 0)
        | none => s
      let s2 := s1.modWave u (fun x => { x with privDirty := sec :: x.privDirty })
      s2.modCore w.coreKey (fun c => { c with l1 := fitL1 s.freeCtr (l1Sectors - s2.privSectors w.coreKey) c.l1 1 })

/-- Sectors of a wave that become dirty. -/
def State.dirtyPrivs (s : State) (u : Nat) (secs : List Nat) : State := secs.foldl (fun t sec => t.dirtyPriv u sec) s

/-- A private store (R115, R117): its bytes, and its sectors dirty in L1. -/
def State.privStore (s : State) (u l o : Nat) (bs : List Byte) : State :=
  match s.wave u with
  | none => s
  | some w => (s.modLane u l (fun x => x.privWrite o bs)).dirtyPrivs u (w.privSectors l o bs.length)

end Sys2Proof.Machine
end

