-- ==== Sys2Proof/Machine/Tensors.lean ====
section
/-! DEFINITION. Tensor entries (R129 to R131), element addresses and scales (R85, R131, R160), and the narrowing
conversions with their sherd lists (R90 to R92). -/

namespace Sys2Proof.Machine

/-- An entry from its 64 bytes (R130). -/
def Tensor.ofBytes (va : Nat) (bs : List Byte) : Tensor :=
  let v := leNat bs
  { va := va, valid := bitOf v 0, fmt := bitsOf v 4 1, ndim := bitsOf v 7 5, scale := bitsOf v 15 8, svdim := bitOf v 16,
    sven := bitOf v 17, live := bitsOf v 114 64 * 64, shadow := bitsOf v 165 115 * 64, scaleVec := bitsOf v 216 166 * 64,
    sherdBase := bitsOf v 267 217 * 64, sherdCap := bitsOf v 283 268, pubGen := bitsOf v 299 284,
    dims := [bitsOf v 319 300, bitsOf v 339 320, bitsOf v 359 340, bitsOf v 379 360, bitsOf v 399 380],
    strides := [1, bitsOf v 427 400, bitsOf v 455 428, bitsOf v 483 456, bitsOf v 511 484] }

/-- An entry that reads as invalid (R129). -/
def Tensor.none : Tensor := Tensor.ofBytes 0 []

/-- Bits of an element (R141): FP32, BF16, FP16, T8, T4, I32. -/
def elemBits (fmt : Nat) : Nat := [32, 16, 16, 8, 4, 32].getD fmt 32

/-- The conditions of R131 on an entry's fields. -/
def Tensor.formed (t : Tensor) : Bool :=
  decide (t.fmt ≤ 5) && decide (1 ≤ t.ndim) && decide (t.ndim ≤ 5) &&
  (List.range 5).all (fun k => if k < t.ndim then t.dims.getD k 0 != 0 else k == 0 || t.dims.getD k 0 == 0) &&
  (t.fmt != 4 || (List.range 5).all (fun k => k = 0 || t.ndim ≤ k || t.strides.getD k 0 % 2 = 0)) &&
  (!t.sven || t.fmt == 3 || t.fmt == 4)

/-- A valid entry (R131). -/
def Tensor.ok (t : Tensor) : Bool := t.valid && t.formed

/-- The span in bytes (R141). -/
def Tensor.span (t : Tensor) : Nat :=
  let top := (List.range 5).foldl (fun n k => if k < t.ndim then n + (t.dims.getD k 0 - 1) * t.strides.getD k 0 else n) 1
  (elemBits t.fmt * top + 7) / 8

/-- The address of an entry (R129): none when the context has no tensor table. -/
def State.entryVa (s : State) (asid id : Nat) : Option Nat :=
  match s.spaceOf asid with
  | some (ttab, _, _) => if ttab = 0 then none else some (ttab * 64 + 64 * id)
  | none => none

/-- The part's reach into the tensor table: V only (R129). -/
def entryAcc (asid : Nat) (eng : Bool) : Acc := Acc.mk asid true false false eng

/-- An entry as read (R129); bytes of a pod-remote table come from rem. -/
def State.readTensor (s : State) (asid id : Nat) (eng : Bool) (rem : List Byte) : Except Trap (Tensor × List Byte) :=
  match s.entryVa asid id with
  | none => .ok (Tensor.none, rem)
  | some va =>
    match s.engRead (entryAcc asid eng) va 64 rem with
    | .error t => .error t
    | .ok (bs, rem', _) => .ok (Tensor.ofBytes va bs, rem')

/-- A failed reach into the tensor table is reported at the entry's VA (R129). -/
def Trap.atEntry (t : Trap) (va : Nat) : Trap := if t.cause = 0 then t else { t with va := va }

/-- A failed write or atomic of the part in the tensor table: the fault of a store (R106, R129). -/
def Trap.entryWrite (t : Trap) (va : Nat) : Trap := (t.withWrite true).atEntry va

/-- Bytes of the entry at va written by the part from an offset, which ignores W (R129). -/
def State.writeEntry (s : State) (asid : Nat) (eng : Bool) (va : Nat) (bs : List Byte) : Except Trap State :=
  match s.engOp (entryAcc asid eng) va bs.length .store bs (fun t la => t.writeAt va bs la) with
  | .error t => .error (t.entryWrite va)
  | .ok r => .ok r.2

/-- A .pkg atomic of the part on the word at an offset of the entry at va (R129): the old word. -/
def State.entryAtomic (s : State) (asid : Nat) (eng : Bool) (va off : Nat) (op : AtomOp) (b : Word) : Except Trap (Word × State) :=
  match s.engAtomic (entryAcc asid eng) (va + off) op b with
  | .error t => .error (t.entryWrite va)
  | .ok r => .ok r

/-- The bytes 8 to 37 of an entry with LIVE and SHADOW exchanged and PUBGEN advanced (R244). -/
def Tensor.published (e : Tensor) : List Byte :=
  let v := e.shadow / 64 + e.live / 64 * 2 ^ 51 + e.scaleVec / 64 * 2 ^ 102 + e.sherdBase / 64 * 2 ^ 153 + e.sherdCap * 2 ^ 204 +
    (e.pubGen + 1) % 65536 * 2 ^ 220 + e.dims.getD 0 0 % 16 * 2 ^ 236
  natLe 30 v

/-- An entry that SPUB publishes (R244): valid, with a shadow. -/
def Tensor.publishes (e : Tensor) : Bool := e.ok && e.shadow != 0

/-- The publish point on the 64 bytes of an entry (R244): one indivisible update at its home. -/
def publishBytes (bs : List Byte) : List Byte :=
  let e := Tensor.ofBytes 0 bs
  if e.publishes then patchCopy bs 8 e.published else bs

/-- NOTENSOR (R142). -/
def noTensor (a : Acc) (va : Nat) : Trap := protFault a va 0 reasonNoTensor

/-- The element index of coordinates (R131). -/
def Tensor.index (t : Tensor) (i : List Nat) : Nat :=
  (List.range 5).foldl (fun n k => n + t.strides.getD k 0 * (if k < t.ndim then i.getD k 0 else 0)) 0

/-- Coordinates within the extents; one beyond NDIM has extent 1 (R160). -/
def Tensor.inside (t : Tensor) (i : List Nat) : Bool :=
  (List.range 5).all (fun k => decide (i.getD k 0 < (if k < t.ndim then t.dims.getD k 0 else 1)))

/-- Bytes an element is read from: one for T4. -/
def elemBytes (fmt : Nat) : Nat := max 1 (elemBits fmt / 8)

/-- The byte offset of an element from its side's base; the T4 nibble is the index's parity (R84, R131). -/
def Tensor.byteOf (t : Tensor) (idx : Nat) : Nat := if t.fmt = 4 then idx / 2 else idx * elemBytes t.fmt

/-- An int8 field as a number. -/
def int8 (n : Nat) : Int := signed 8 n

/-- The scale of the element at row r and column c (R85); the scale vector is read with the access given. -/
def State.scaleOf (s : State) (a : Acc) (t : Tensor) (r c : Nat) (rem : List Byte) : Except Trap (Int × List Byte) :=
  if t.sven then
    let k := if t.svdim then c / 16 else r / 16
    match s.engRead { a with write := false } (t.scaleVec + k) 1 rem with
    | .error e => .error e
    | .ok (bs, rem', _) => .ok (int8 t.scale + int8 (leNat bs), rem')
  else .ok (int8 t.scale, rem)

/-- A signed integer times a power of two, rounded to FP32 with subnormals honoured (R161, R322), or flushed by the matrix unit once
rounded (R75). -/
def scaledWord (matrix : Bool) (q : Int) (e : Int) : Nat :=
  if q = 0 then 0 else (roundTo fp32 (if matrix then FpCtx.matrix else FpCtx.mk .rne false false) (q < 0) q.natAbs e false).bits

/-- The value of an element's bits as FP32 bits (R161, R322): widened exactly, or q·2^s. -/
def widenElem (ftz : Bool) (fmt : Nat) (s : Int) (x : Nat) : Nat :=
  match fmt with
  | 1 => (fpConvert bf16 fp32 (FpCtx.mk .rne ftz false) x).bits
  | 2 => (fpConvert fp16 fp32 (FpCtx.mk .rne ftz false) x).bits
  | 3 => scaledWord ftz (signed 8 x) s
  | 4 => scaledWord ftz (signed 4 x) s
  | _ => x

/-- A narrowed value: a q in range, or an outlier of a KIND (R90, R91). -/
inductive Narrow where
  | q (v : Int)
  | outlier (kind : Nat)
  deriving DecidableEq, Repr

/-- R90: q = rne(v / 2^s), in range or not. -/
def narrowTo (fmt : Nat) (s : Int) (ftz : Bool) (v : Nat) : Narrow :=
  let lim : Int := if fmt = 3 then 127 else 7
  match fp32.read ftz v with
  | .nan _ => .outlier 2
  | .inf _ => .outlier 1
  | .fin neg mag exp =>
    if mag = 0 then .q 0
    else
      let r := (roundAt .rne neg mag (exp - s) false 0).1
      if (r : Int) ≤ lim then .q (if neg then -(r : Int) else (r : Int)) else .outlier 0

/-- The bits of a q in a narrow format. -/
def narrowBits (fmt : Nat) (q : Int) : Nat := (BitVec.ofInt (if fmt = 3 then 8 else 4) q).toNat

/-- What an outlier at or above the capacity stores (R92). -/
def saturatedBits (fmt v : Nat) : Nat :=
  let lim : Int := if fmt = 3 then 127 else 7
  match fp32.value v with
  | .nan _ => 0
  | .inf neg => narrowBits fmt (if neg then -lim else lim)
  | .fin neg _ _ => narrowBits fmt (if neg then -lim else lim)

/-- A sherd-list entry (R91). -/
def sherdEntry (row col v kind : Nat) (s : Int) : List Byte :=
  let value := match fp32.value v with | .nan _ => fp32.nan | .inf _ => v | .fin _ _ _ => v
  natLe 4 row ++ natLe 4 col ++ natLe 4 value ++ natLe 4 (kind + (BitVec.ofInt 9 s).toNat * 2 ^ 16)

/-- n reservations on a sherd list by one add at the entry (R92): the first index. The add is performed once, as an operation of its
own, whatever its step has to wait for afterwards: the step goes on with what it returned. -/
def State.reserveSherd (s : State) (asid : Nat) (eng : Bool) (t : Tensor) (n : Nat) : Except Trap (Nat × State) :=
  if n = 0 then .ok (0, s)
  else
    match s.engPinned (entryAcc asid eng) (t.va + 4) .add (BitVec.ofNat 32 n) with
    | .error e => .error (e.entryWrite t.va)
    | .ok r => .ok (r.1.toNat, r.2)

/-- SHERD_OVF set (R92). -/
def State.setOvf (s : State) (asid : Nat) (eng : Bool) (t : Tensor) : Except Trap State :=
  match s.entryAtomic asid eng t.va 0 .or 0x80000000 with
  | .error e => .error e
  | .ok r => .ok r.2

/-- One outlier at a reserved index (R92): recorded and stored as 0, or saturated with SHERD_OVF set. -/
def State.placeOutlier (s : State) (a : Acc) (t : Tensor) (idx row col v kind : Nat) (sc : Int) :
    Except Trap (Nat × State) :=
  if idx < t.sherdCap then
    match s.engWrite a (t.sherdBase + 16 * idx) (sherdEntry row col v kind sc) with
    | (_, some e) => .error e
    | (s1, none) => .ok (0, s1)
  else
    match s.setOvf a.asid a.eng t with
    | .error e => .error e
    | .ok s1 => .ok (saturatedBits t.fmt v, s1)

/-- An element's bytes as stored by an engine, a drain or STT: a T4 store changes its nibble only (R161). -/
def State.elemStore (s : State) (a : Acc) (t : Tensor) (base idx bits : Nat) : State × Option Trap :=
  let va := base + t.byteOf idx
  if t.fmt = 4 then
    match s.engNibble a va (idx % 2 == 1) bits with
    | .error e => (s, some e)
    | .ok s1 => (s1, none)
  else s.engWrite a va (natLe (elemBytes t.fmt) bits)

/-- An element's bits out of the bytes at its address. -/
def elemOf (fmt idx raw : Nat) : Nat := if fmt = 4 then (if idx % 2 = 0 then raw % 16 else raw / 16 % 16) else raw

/-- A value rounded into FP32, BF16 or FP16 (R161, R322, R332). -/
def roundElem (c : FpCtx) (fmt v : Nat) : FRes :=
  match fmt with
  | 1 => fpConvert fp32 bf16 c v
  | 2 => fpConvert fp32 fp16 c v
  | _ => fpConvert fp32 fp32 c v

end Sys2Proof.Machine
end

