-- ==== Sys2Proof/Machine/Fabric.lean ====
section
/-! DEFINITION. The Ilpaip fabric (R183 to R202): routes, requests and replies, the target's side, keys, ports and
planes; and the event stream of R178 that it shares with the die links. -/

namespace Sys2Proof.Machine

/-- A record sent to the port that LKEVPORT names (R178, R202), or counted as lost. The manual gives such a
message no SOURCE of its own. -/
def State.postRecord (s : State) (tag : Nat) (record : Nat) : State :=
  let s1 := { s with linkCtl := { s.linkCtl with evSeq := (s.linkCtl.evSeq + 1) % 2 ^ 32 }, freeCtr := s.freeCtr + 1 }
  let lost := { s1 with linkCtl := { s1.linkCtl with evLost := (s1.linkCtl.evLost + 1) % 2 ^ 32 } }
  match s1.live s1.linkCtl.evPort 0 with
  | some (i, .port p) =>
    if p.matched || p.capacity ≤ s1.queueLen i p then lost
    else
      s1.enqueue i p { source := s.ownSource, tag := tag, bytes := natLe 32 record, grants := [] } none
  | _ => lost

/-- A port or plane event (R202). DESIGN CHOICE, log entry 23. -/
def State.postFabric (s : State) (kind unit : Nat) : State :=
  s.postRecord 1 (unit + kind * 2 ^ 8 + s.fabric.planemap.toNat * 2 ^ 128 + s.linkCtl.evSeq * 2 ^ 160 + s.time % 2 ^ 64 * 2 ^ 192)

/-- The physical plane of a logical one in a map (R198). -/
def planeOf (map : Word) (p : Nat) : Nat := wbits map (4 * p + 2) (4 * p)

/-- A map with the physical plane of a logical one replaced. -/
def setPlane (map : Word) (p phys : Nat) : Word :=
  (map &&& ~~~ (BitVec.ofNat 32 (7 * 2 ^ (4 * p)))) ||| BitVec.ofNat 32 (phys * 2 ^ (4 * p))

/-- A plane with a port that is not DOWN (R200). -/
def Fabric.planeLive (f : Fabric) (p : Nat) : Bool := f.ports.getD (2 * p) 0 != 0 || f.ports.getD (2 * p + 1) 0 != 0

/-- A request or a multicast write that has left by a port and has not been answered yet meets a condition on its port, physical
plane and address. A multicast's address is its offset (log entry 90). -/
def Fabric.anySent (f : Fabric) (p : Nat → Nat → Nat → Bool) : Bool :=
  f.out.any (fun e => !e.2.held && p e.2.port e.2.plane e.2.pa) || f.casts.any (fun e => !e.2.held && p e.2.port e.2.plane e.2.offset)

/-- The port that R185 names for an address. -/
def Fabric.namedPort (f : Fabric) (pa : Nat) : Nat := 2 * planeOf f.planemap (bitsOf pa 9 7) + bitsOf pa 10 10

/-- The port and plane a request to an address leaves by (R185, R199, R200); none while it is held. A sibling takes over once all
that was sent through a port that is DOWN has been answered; a port that is UP again takes its lines back once what the sibling
sent of them has been answered. -/
def Fabric.route (f : Fabric) (pa : Nat) : Option (Nat × Nat) :=
  let p := bitsOf pa 9 7
  let phys := planeOf f.planemap p
  let named := f.namedPort pa
  let sib := 2 * phys + (1 - bitsOf pa 10 10)
  if planeOf f.planeWant p != phys || !f.planeLive phys then none
  else
    match f.ports.getD named 0 with
    | 0 => if f.ports.getD sib 0 = 2 && f.keyed sib && !f.anySent (fun port _ _ => port == named) then some (sib, phys) else none
    | 2 => if f.keyed named && !f.anySent (fun port _ a => port == sib && f.namedPort a == named) then some (named, phys) else none
    | _ => none

/-- A flit whose group has authenticated, taken for what it asks (R195). -/
def State.takeFlit (s : State) (f : Flit) : Option State :=
  if s.fabric.released.contains f then some { s with fabric := { s.fabric with released := s.fabric.released.erase f } } else none

/-- A sequence number of a port taken (R189). -/
def State.takeSeq (s : State) (port : Nat) : State :=
  { s with fabric := { s.fabric with seqs := s.fabric.seqs.set port ((s.fabric.seqs.getD port 0 + 1) % 2 ^ 32) } }

/-- The die whose lane or engine makes a request. -/
def State.reqDie (s : State) (r : OutReq) : Nat :=
  match r.client with
  | none => match s.wave r.wave with | some w => w.die | none => 6
  | some (.copy _ _) => match s.wave r.wave with | some w => w.die | none => 6
  | some (.slip core) => core / 64
  | some (.slipRing core _) => core / 64
  | some (.kiln core) => core / 64
  | some (.dispatch setter) => setter
  | some _ => 6

/-- A held request sent, where it can reach Pavilion and has a route (R171, R185, R189). -/
def State.trySend (s : State) (req : Nat) : State :=
  match sget s.fabric.out req with
  | none => s
  | some r =>
    if !r.held || !s.reach (s.reqDie r) 6 then s
    else
      match s.fabric.route r.pa with
      | none => s
      | some (port, plane) =>
        let seq := s.fabric.seqs.getD port 0
        let r' := { r with held := false, port := port, plane := plane, seq := seq, sentAt := s.time }
        ({ s with fabric := { s.fabric with out := sput s.fabric.out req r' } }.takeSeq port).sendFlit port
          (.request port seq r.pa r.size r.op r.data r.expected)

/-- The flits of a multicast for its members on other packages, as the switches replicate it (R193): one flit of the port. -/
def CastReq.flits (c : CastReq) (n seq : Nat) : List Outgoing :=
  c.waiting.map (fun m => .multicast c.port seq n m.member m.pkg m.asid m.winVa m.winSize c.offset c.priv c.data)

/-- A held multicast sent, where it can reach Pavilion and has a route (R185, R193). -/
def State.tryCast (s : State) (n : Nat) : State :=
  match sget s.fabric.casts n with
  | none => s
  | some c =>
    if !c.held || !s.reach (match s.wave c.wave with | some w => w.die | none => 6) 6 then s
    else
      match s.fabric.route c.offset with
      | none => s
      | some (port, plane) =>
        let seq := s.fabric.seqs.getD port 0
        let c' := { c with held := false, port := port, plane := plane, seq := seq, sentAt := s.time }
        let s1 := { s with fabric := { s.fabric with casts := sput s.fabric.casts n c' } }.takeSeq port
        match c'.flits n seq with
        | [] => s1
        | o :: rest => { s1.sendFlit port o with sent := rest.map (fun x => .flit port .req (s1.fabric.txGen port) x) ++ (s1.sendFlit port o).sent }

/-- The held flits, requests and multicasts that can leave now, in the order they were made. -/
def State.sendHeld (s0 : State) : State :=
  let s := s0.sendWaiting
  let s1 := (skeys s.fabric.out).foldl State.trySend s
  (skeys s1.fabric.casts).foldl State.tryCast s1

/-- Logical planes whose new mapping has been drained take it (R200, R201), and the held requests go on. -/
def State.settlePlanes (s : State) : State :=
  let f := s.fabric
  let map' := (List.range 8).foldl (fun m p =>
    if planeOf f.planeWant p != planeOf m p && !f.anySent (fun _ _ pa => bitsOf pa 9 7 == p) then
      setPlane m p (planeOf f.planeWant p)
    else m) f.planemap
  { s with fabric := { f with planemap := map' } }.sendHeld

/-- A remote access made (R186): its number; it has not left yet, and has been made now. -/
def State.hold (s : State) (r : OutReq) : Nat × State :=
  let n := s.fabric.nextReq
  (n, { s with fabric := { s.fabric with out := sput s.fabric.out n { r with held := true, sentAt := s.time }, nextReq := n + 1 } })

/-- A remote access made, which leaves at once if its port is free. -/
def State.request (s : State) (r : OutReq) : Nat × State := ((s.hold r).1, (s.hold r).2.trySend (s.hold r).1)

/-- The remote access of some lanes of a wave. -/
def State.laneReq (s : State) (wave asid : Nat) (lanes : List (Nat × Word)) (posted : Option Posted) (va pa size : Nat) (op : HomeOp)
    (data : List Byte) (expected : Word) : OutReq :=
  { client := none, wave := wave, lanes := lanes, posted := posted, va := va, pa := pa, size := size, data := data,
    expected := expected, op := op, asid := asid, tgen := (s.ctx asid).gen, held := true, port := 0, plane := 0, seq := 0,
    sentAt := 0, suspended := 0, resumes := 0 }

/-- An operation writes at its home (R190). -/
def homeWrites (op : HomeOp) : Bool := op != .load

/-- An operation is an atomic (R190); an SPUB's publish point, a successor's decrement and a ring's increment are. -/
def homeAtomic (op : HomeOp) : Bool :=
  match op with
  | .atomic _ | .publish | .decrement | .increment => true
  | .load | .store | .nibble _ => false

/-- TRAPAUX of REMOTE_TIMEOUT (R190). -/
def OutReq.aux (r : OutReq) : Word :=
  BitVec.ofNat 32 ((if homeWrites r.op then 1 else 0) + (if homeAtomic r.op then 2 else 0) + r.plane * 2 ^ 5 + r.port * 2 ^ 8 + pkgOf r.pa * 2 ^ 23)

/-- A remote wait's answers: done, refused by the target (R103), timed out (R190), poisoned at the target. -/
def remoteDone : Nat := 0
/-- R103. -/
def remoteRefused : Nat := 1
/-- R190. -/
def remoteTimedOut : Nat := 2
/-- R182. -/
def remotePoison : Nat := 3

/-- The cause of a failed remote access (R103, R182, R190). -/
def remoteCause (status : Nat) : Nat := if status = remoteRefused then 0x10 else if status = remoteTimedOut then 0x29 else 0x14

/-- What the lanes of a request that wait for its answer take: a load's data or a published entry, added to the bytes they have; an
atomic's old word, with its operands where it is the last they wait for; the VA of one that fails, after what they have. -/
def Wait.answered (wt : Wait) (r : OutReq) (sum : Word) (status : Nat) (data : List Byte) (aux : Word) : Wait :=
  if status != remoteDone then { wt with status := some status, value := aux, bytes := wt.bytes ++ natLe 8 r.va }
  else
    match r.op with
    | .load | .publish | .decrement => { wt with status := some status, bytes := wt.bytes ++ data }
    | .store | .nibble _ => { wt with status := some status, acks := wt.acks ++ [0] }
    | .increment => { wt with status := some status, acks := wt.acks ++ [wordAt data 0] }
    | .atomic _ =>
      if wt.value = 1 then
        { wt with status := some status, bytes := wt.bytes ++ natLe 4 (wordAt data 0 + sum).toNat ++ r.data ++ natLe 4 r.expected.toNat }
      else { wt with status := some status, acks := wt.acks ++ [wordAt data 0] }

/-- A lane takes the answer to its request; one that has gone on from a store that fails takes its trap later (R139, R187). -/
def Lane.takeAnswer (ln : Lane) (req : Nat) (r : OutReq) (sum : Word) (status : Nat) (data : List Byte) (aux : Word) : Lane :=
  match r.posted with
  | some p =>
    if status = remoteDone || ln.late.isSome then ln
    else { ln with late := some { pc := p.pc, inTrap := p.inTrap, cause := remoteCause status, va := r.va, aux := aux } }
  | none =>
    match ln.wait with
    | some wt => if wt.kind == .remote req || wt.kind == .fetch req then { ln with wait := some (wt.answered r sum status data aux) } else ln
    | none => ln

/-- What an engine's step in progress has been answered so far. -/
def Fabric.answersOf (f : Fabric) (c : Client) : Answers :=
  ((f.answers.find? (fun e => e.1 == c)).map Prod.snd).getD { bytes := [], acks := [], failed := none }

/-- What an engine's step has been answered, replaced. -/
def Fabric.setAnswers (f : Fabric) (c : Client) (x : Answers) : Fabric :=
  { f with answers := (c, x) :: f.answers.filter (fun e => e.1 != c) }

/-- What an engine's step has been answered, forgotten. -/
def Fabric.forget (f : Fabric) (c : Client) : Fabric := { f with answers := f.answers.filter (fun e => e.1 != c) }

/-- An engine's step takes an answer. -/
def Answers.add (x : Answers) (r : OutReq) (status : Nat) (data : List Byte) (aux : Word) : Answers :=
  if status != remoteDone then { x with failed := some (remoteCause status, aux) }
  else
    match r.op with
    | .load | .publish | .decrement => { x with bytes := x.bytes ++ data }
    | .store | .nibble _ => { x with acks := x.acks ++ [0] }
    | .atomic _ | .increment => { x with acks := x.acks ++ [wordAt data 0] }

/-- A line that a fetch has brought from another package, in the instruction cache of its wave's core (R103). DEDUCED, log entry 105. -/
def State.fetched (s : State) (r : OutReq) (status : Nat) (data : List Byte) : State :=
  match s.wave r.wave with
  | some w =>
    if r.fetch && status = remoteDone then s.modCore w.coreKey (fun c => { c with icache := sput c.icache (remoteLine r.pa) data }) else s
  | none => s

/-- The answer to a request goes to whom it serves, and its port and plane are freer. TRAPAUX of a refusal is added where it is
taken (R106). -/
def State.answer (s : State) (req : Nat) (r : OutReq) (status : Nat) (data : List Byte) (aux : Word) : State :=
  let s1 : State :=
    match r.client with
    | some c => { s with fabric := s.fabric.setAnswers c ((s.fabric.answersOf c).add r status data aux) }
    | none => r.lanes.foldl (fun t e => t.modLane r.wave e.1 (fun ln => ln.takeAnswer req r e.2 status data aux)) (s.fetched r status data)
  { s1 with fabric := { s1.fabric with out := sdel s1.fabric.out req } }.settlePlanes

/-- An engine's work is given up or lost: its answers are forgotten, and what is still outstanding is no one's. -/
def State.dropClient (s : State) (c : Client) : State :=
  let orphan (r : OutReq) : OutReq := if r.client = some c then { r with client := none, lanes := [] } else r
  let f : Fabric := s.fabric.forget c
  let out : Sparse OutReq := f.out.map (fun e => (e.1, orphan e.2))
  { s with fabric := { f with out := out } }

/-- The engines whose writes that cover a line are full-line writes (R182): lane copies, Slip jobs and the receive engine. -/
def Client.fullLines (c : Client) : Bool :=
  match c with
  | .copy _ _ | .slip _ | .slipRing _ _ | .post _ _ => true
  | .kiln _ | .dispatch _ | .task _ _ | .message _ | .packet _ _ | .completion _ _ => false

/-- A step of an engine with its accesses to other packages (R186): f runs with what it has been answered so far, its first
argument the state and its second the bytes read. An access that it needs leaves as its request, or is performed here and its result
kept; none when it cannot go on. -/
def State.engine (s : State) (c : Client) (wave asid agent : Nat) (f : State → List Byte → Except Trap State) : Option State :=
  let x := s.fabric.answersOf c
  if s.fabric.out.any (fun e => e.2.client == some c) then none
  else
    match f { s with focus := none, run := { agent := agent, acks := x.acks, failed := x.failed, full := c.fullLines } } x.bytes with
    | .ok t => some { t with focus := s.focus, run := Runner.idle, fabric := t.fabric.forget c }
    | .error t =>
      match t.need with
      | some (.access pa n op data expected) =>
        if pkgOf pa = s.pkgid then
          let r := { s with focus := none, run := { agent := agent, acks := [], failed := none } }.atomHere pa op data
          some { r.2 with focus := s.focus, run := Runner.idle, fabric := r.2.fabric.setAnswers c { x with acks := x.acks ++ [r.1] } }
        else
        some (s.request { s.laneReq wave asid [] none t.va pa n op data expected with client := some c }).2
      | some (.link _ _) | none => none

/-- REMOTE_REPLY (R188, R195). -/
def execRemoteReply (s : State) : Host.Outcome State Fault Refusal :=
  match s.input with
  | some (.remoteReply req ok data) =>
    match s.takeFlit (.reply req ok data) with
    | none => .next s
    | some s1 =>
      match sget s1.fabric.out req with
      | some r =>
        if r.held then .next s1
        else if ok then .next (s1.answer req r remoteDone data 0)
        else .next (s1.answer req r (if data.headD 0 = 0x14 then remotePoison else remoteRefused) [] 0)
      | none => .next s1
  | _ => .next s

/-- When the limit of something sent runs out (R190): FABTIMEOUT of unsuspended time after it left. -/
def State.replyLimit (s : State) (sentAt suspended : Nat) : Nat := sentAt + suspended + 1000 * s.fabric.timeout

/-- Some plane lives (R200). -/
def Fabric.anyLive (f : Fabric) : Bool := (List.range 8).any f.planeLive

/-- A request with the port and plane that its address names, for one that cannot leave. -/
def OutReq.named (r : OutReq) (f : Fabric) : OutReq :=
  { r with port := f.namedPort r.pa, plane := planeOf f.planemap (bitsOf r.pa 9 7) }

/-- REMOTE_TIMEOUT (R190, R200): a held request has no limit while some plane lives; with none, its limit runs from when it was made. -/
def execRemoteTimeout (s : State) : Host.Outcome State Fault Refusal :=
  match s.input with
  | some (.remoteTimeout req) =>
    match sget s.fabric.out req with
    | some r =>
      if r.held && s.fabric.anyLive then .next s
      else
        let x := if r.held then r.named s.fabric else r
        .next ((s.atLeast (s.replyLimit r.sentAt r.suspended)).answer req x remoteTimedOut [] x.aux)
    | none => .next s
  | _ => .next s

/-- The suspension that a hold notice brings now: 50 µs, of which what an earlier one still suspends counts once (R190). -/
def heldFor (now resumes : Nat) : Nat := now + 50000 - max now resumes

/-- HOLD_NOTICE (R190, R193). -/
def execHoldNotice (s : State) : Host.Outcome State Fault Refusal :=
  match s.input with
  | some (.holdNotice req none) =>
    match s.takeFlit (.hold req) with
    | none => .next s
    | some s1 =>
      .next { s1 with fabric := { s1.fabric with out := smod s1.fabric.out req (fun r =>
        { r with suspended := r.suspended + heldFor s1.time r.resumes, resumes := s1.time + 50000 }) } }
  | some (.holdNotice req (some member)) =>
    match s.takeFlit (.holdMember req member) with
    | none => .next s
    | some s1 =>
      let notice (m : CastMember) : CastMember :=
        if m.member = member then { m with suspended := m.suspended + heldFor s1.time m.resumes, resumes := s1.time + 50000 } else m
      .next { s1 with fabric := { s1.fabric with casts := smod s1.fabric.casts req (fun c => { c with waiting := c.waiting.map notice }) } }
  | _ => .next s

/-- The reply data of a target that finds the line poisoned (R182). -/
def poisonReply : List Byte := [0x14]

/-- The COUNT that a decrement leaves of the first two words of a record (R340). -/
def countLess (bs : List Byte) : Nat := (leNat (bs.drop 4) + 2 ^ 32 - 1) % 2 ^ 32

/-- A request performed at its home (R189), and its reply: not in HBM, poisoned, or its data. -/
def State.performHere (s : State) (r : FabricRequest) : State × Bool × List Byte :=
  let la := localOf r.pa
  let home := s.homeDie la
  if hbmEnd < la + r.size then (s, false, [])
  else if r.op == .store && r.data.length = 128 then ((s.unpoison (lineOf la)).storeAs home la r.data, true, [])
  else if s.poisoned la r.size then (s.found la, false, poisonReply)
  else
    match r.op with
    | .load => (s.receiveBy home (lineOf la), true, s.home la r.size)
    | .store => (s.storeAs home la r.data, true, [])
    | .nibble high => (s.storeAs home la (natLe 1 (nibbleOf (leNat (s.home la 1)) high (leNat r.data))), true, [])
    | .atomic op =>
      let old := wordAt (s.home la 4) 0
      (s.storeAs home la (natLe 4 (atomNew op r.expected old (wordAt r.data 0) r.expected).1.toNat), true, natLe 4 old.toNat)
    | .publish => (s.storeAs home la (publishBytes (s.home la 64)), true, s.home la 64)
    | .decrement => (s.storeAs home (la + 4) (natLe 4 (countLess (s.home la 8))), true, s.home la 8)
    | .increment => (s.storeAs home la (countMore (s.home la 8)), true, s.home la 4)

/-- The key of a source port's window. -/
def windowKey (pkg port : Nat) : Nat := 16 * pkg + port

/-- The reason of a failure that an acknowledgement repeats (R193). -/
def Performed.failure (p : Performed) : Option Nat := if p.ok then none else some (leNat p.data)

/-- What this package has performed for a flit, where it has (R189). -/
def State.performed (s : State) (pkg port seq : Nat) (member : Option Nat) : Option Performed :=
  (sgetD s.fabric.windows (windowKey pkg port) []).find? (fun p => p.seq == seq && p.member == member)

/-- A sequence number that a window still covers when a later one is performed: of the last half of the numbers (R189). DESIGN CHOICE,
log entry 90. -/
def inWindow (now seq : Nat) : Bool := (now + 2 ^ 32 - seq) % 2 ^ 32 < 2 ^ 31

/-- Something performed for a flit, kept in its window, which slides with it (R189). -/
def State.keep (s : State) (pkg port : Nat) (p : Performed) : State :=
  let seen := (sgetD s.fabric.windows (windowKey pkg port) []).filter (fun q => inWindow p.seq q.seq)
  { s with fabric := { s.fabric with windows := sput s.fabric.windows (windowKey pkg port) (p :: seen) } }

/-- A request performed, kept in its window and answered (R189), through the port of the same number. DESIGN CHOICE, log entry 90. -/
def State.serve (s : State) (r : FabricRequest) : State :=
  let res := s.performHere r
  (res.1.keep r.pkg r.port { seq := r.seq, member := none, ok := res.2.1, data := res.2.2 }).sendFlit r.port
    (.reply r.pkg r.port r.seq res.2.1 res.2.2)

/-- Whether a request waits inside this package for a die link that retrains (R171, R190). -/
def State.pathBusy (s : State) (la : Nat) : Bool := !s.reach 6 (s.homeDie la)

/-- A flit's work held here, with the first hold notice (R190). -/
def State.holdHere (s : State) (what : Arrived) : State :=
  if s.fabric.heldIn.any (fun h => h.what == what) then s
  else
    let h : HeldReq := { what := what, noticed := s.time }
    let s1 := { s with fabric := { s.fabric with heldIn := s.fabric.heldIn ++ [h] } }
    match what with
    | .request r => s1.sendFlit r.port (.hold r.pkg r.port r.seq)
    | .member m => s1.sendFlit m.port (.holdMember m.pkg m.port m.seq m.member)

/-- REMOTE_REQUEST (R189, R190, R195): answered from the window, performed, or held with a hold notice. -/
def execRemoteRequest (s : State) : Host.Outcome State Fault Refusal :=
  match s.input with
  | some (.remoteRequest r) =>
    match s.takeFlit (.request r) with
    | none => .next s
    | some s1 =>
      match s1.performed r.pkg r.port r.seq none with
      | some p => .next (s1.sendFlit r.port (.reply r.pkg r.port r.seq p.ok p.data))
      | none => if s1.pathBusy (localOf r.pa) then .next (s1.holdHere (.request r)) else .next (s1.serve r)
  | _ => .next s

/-- The reason of a member's failure that is no trap: an offset beyond its window (R157). -/
def outOfWindow : Nat := 0

/-- A word stored into a member's window in its context (R157, R193), with the privilege of the lane that sent it (R474): the reason of
its failure, the cause of the trap that it would be; none while it waits for a die link. A window's address need not be a multiple of 4,
and one on a page of another package, of MMIO or of the device information page fails. DESIGN CHOICE, log entry 98. -/
def State.memberStore (s : State) (asid : Nat) (priv : Bool) (winVa winSize off : Nat) (v : Word) : Option (State × Option Nat) :=
  let a := Acc.mk asid priv true false false
  if winSize < off + 4 then some (s, some outOfWindow)
  else
    match s.translate a (winVa + off) with
    | .error e => if e.cause = 0 then none else some (s.noteBad e, some e.cause)
    | .ok t =>
      match t.kind with
      | .mmio | .remote | .info => some (s, some 0x10)
      | .hbm | .host =>
        match s.engWrite a (winVa + off) (natLe 4 v.toNat) with
        | (s1, some e) => if e.cause = 0 then none else some (s1.noteBad e, some e.cause)
        | (s1, none) => some (s1, none)

/-- A multicast write performed, kept in its window and acknowledged (R189, R193). -/
def State.serveMember (s : State) (m : MemberWrite) : State :=
  match s.memberStore m.asid m.priv m.winva.toNat m.winsize m.offset m.data with
  | none => s.holdHere (.member m)
  | some (s1, r) =>
    (s1.keep m.pkg m.port { seq := m.seq, member := some m.member, ok := r.isNone, data := natLe 1 (r.getD 0) }).sendFlit m.port
      (.multicastAck m.pkg m.port m.seq m.member r)

/-- MULTICAST_MEMBER_WRITE (R157, R189, R193): a write that a switch brings to a member on this package; a repeated one is answered
from the window. DEDUCED, log entry 28. -/
def execMulticastMemberWrite (s : State) : Host.Outcome State Fault Refusal :=
  match s.input with
  | some (.multicastMemberWrite m) =>
    match s.takeFlit (.member m) with
    | none => .next s
    | some s1 =>
      match s1.performed m.pkg m.port m.seq (some m.member) with
      | some p => .next (s1.sendFlit m.port (.multicastAck m.pkg m.port m.seq m.member p.failure))
      | none => .next (s1.serveMember m)
  | _ => .next s

/-- HOLD_NOTICE_SEND (R190): what is held here is announced again, every 20 µs while the hold lasts. -/
def execHoldNoticeSend (s : State) : Host.Outcome State Fault Refusal :=
  match s.input with
  | some (.holdNoticeSend n) =>
    match s.fabric.heldIn[n]? with
    | none => .next s
    | some h =>
      let s1 := s.atLeast (h.noticed + 20000)
      let s2 := { s1 with fabric := { s1.fabric with heldIn := s1.fabric.heldIn.set n { h with noticed := s1.time } } }
      match h.what with
      | .request r => .next (s2.sendFlit r.port (.hold r.pkg r.port r.seq))
      | .member m => .next (s2.sendFlit m.port (.holdMember m.pkg m.port m.seq m.member))
  | _ => .next s

/-- What was held here and can go on is performed, in order (R171, R180). -/
def State.serveHeld (s : State) : State :=
  s.fabric.heldIn.foldl (fun t h =>
    match h.what with
    | .request r => if t.pathBusy (localOf r.pa) then { t with fabric := { t.fabric with heldIn := t.fabric.heldIn ++ [h] } } else t.serve r
    | .member m => t.serveMember m) { s with fabric := { s.fabric with heldIn := [] } }

/-- A member's answer to a multicast; the lane goes on when all have answered (R157, R193). -/
def State.castAnswer (s : State) (req member : Nat) (ok : Bool) : State :=
  match sget s.fabric.casts req with
  | none => s
  | some c =>
    if !c.waiting.any (fun m => m.member == member) then s
    else
      let c' := { c with waiting := c.waiting.filter (fun m => m.member != member), failed := if ok then c.failed else member :: c.failed }
      if c'.waiting.isEmpty then
        let map := c'.failed.foldl (fun n m => n + 2 ^ m) 0
        ({ s with fabric := { s.fabric with casts := sdel s.fabric.casts req } }.release (fun k => k == WaitKind.multicast req) 0
          (BitVec.ofNat 32 map) []).settlePlanes
      else { s with fabric := { s.fabric with casts := sput s.fabric.casts req c' } }

/-- MULTICAST_ACK (R193, R195): an acknowledgement or a failure, or silence for FABTIMEOUT as R190 reckons it, which counts as one. -/
def execMulticastAck (s : State) : Host.Outcome State Fault Refusal :=
  match s.input with
  | some (.multicastAck req member failure) =>
    let ok := failure.isNone
    match s.takeFlit (.ack req member failure) with
    | some s1 => .next (s1.castAnswer req member ok)
    | none =>
      match sget s.fabric.casts req with
      | none => .next s
      | some c =>
        match c.waiting.find? (fun m => m.member == member) with
        | none => .next s
        | some m => if ok || (c.held && s.fabric.anyLive) then .next s else .next ((s.atLeast (s.replyLimit c.sentAt m.suspended)).castAnswer req member false)
  | _ => .next s

/-- A port's two directions zeroised (R197). -/
def Fabric.zeroise (f : Fabric) (port : Nat) : Fabric :=
  { f with keys := (f.keys.set (2 * port) KeyDir.reset).set (2 * port + 1) KeyDir.reset }

/-- A port goes DOWN (R199), with its event (0 PORTDOWN, 5 AUTHDOWN), and PLANEDEAD when it was its plane's last. Its SPDM session
is over: a new one must load a key (R197). One whose announcement its plane refuses stays DOWN (R443). -/
def State.portDown (s : State) (port kind : Nat) (refused : Bool) : State :=
  if s.fabric.ports.getD port 0 = 0 then s
  else
    let f := s.fabric
    let barred := if f.announcing.contains port && refused then port :: f.barred else f.barred
    let s1 := { s with
      fabric := { f with ports := f.ports.set port 0, barred := barred, announcing := f.announcing.filter (fun q => q != port) }.zeroise port
      host := { s.host with spdm := sdel s.host.spdm port } }
    let s2 := s1.postFabric kind port
    if s2.fabric.planeLive (port / 2) then s2.settlePlanes else (s2.postFabric 2 (port / 2)).settlePlanes

/-- A package of the pod is lost (R437): the names of its ports are unbound (R405), what it has begun to send here is given up, and its
numbers and those toward it start anew. DESIGN CHOICE, log entry 90. -/
def State.packageGone (s : State) (pkg : Nat) : State :=
  let gone := s.arriving.filter (fun x => x.pkg == pkg && x.pkg != s.pkgid)
  let s1 := gone.foldl (fun t x => match (t.obj x.port).body with
    | some (.port p) => t.setPort x.port { p with slots := x.msg.grants.foldl (fun m e => sdel m e.1) p.slots }
    | _ => t) s
  { s1 with names := s1.names.filter (fun n => n.pkg != pkg),
            arriving := s1.arriving.filter (fun x => x.pkg != pkg || x.pkg == s.pkgid),
            pool := s1.pool ++ gone.flatMap (fun x => x.msg.grants.map Prod.snd),
            kmsgs := s1.kmsgs.filter (fun e => e.2.dest != pkg || (match e.2.body with | .bind _ _ _ | .lookup _ => true | _ => false)),
            kmsgNext := sdel s1.kmsgNext pkg, kmsgSeen := sdel s1.kmsgSeen pkg, kmsgHeld := s1.kmsgHeld.filter (fun e => e.1 != pkg),
            fabric := { s1.fabric with windows := s1.fabric.windows.filter (fun e => e.1 / 16 != pkg) } }

/-- PORT_LOST (R199, R405). DEDUCED, log entry 26. -/
def execPortLost (s : State) : Host.Outcome State Fault Refusal :=
  match s.input with
  | some (.portLost port refused gone) =>
    let s1 := s.portDown port 0 refused
    .next (match gone with | some pkg => s1.packageGone pkg | none => s1)
  | _ => .next s

/-- A port announces PKGID and PODSIZE once ILPAIP is accepted (R443). -/
def State.announce (s : State) (port : Nat) : State :=
  if s.bringup.accepted && bitOf s.bringup.drvaccept 1 then
    { s with fabric := { s.fabric with announcing := port :: s.fabric.announcing } }.sendFlit port (.announce port s.pkgid s.podsize)
  else s

/-- PORT_TRAINED (R199, R443): a port barred by its announcement stays DOWN. -/
def execPortTrained (s : State) : Host.Outcome State Fault Refusal :=
  match s.input with
  | some (.portTrained port) =>
    if 16 ≤ port || s.fabric.barred.contains port || s.fabric.ports.getD port 0 = 2 then .next s
    else
      let dead := !s.fabric.planeLive (port / 2)
      let s1 := { s with fabric := { s.fabric with ports := s.fabric.ports.set port 2 } }.postFabric 1 port
      let s2 := if dead then s1.postFabric 3 (port / 2) else s1
      .next ((s2.announce port).settlePlanes)
  | _ => .next s

/-- The first live plane after a dead one (R200). -/
def Fabric.nextPlane (f : Fabric) (p : Nat) : Option Nat := ((List.range 7).map (fun i => (p + 1 + i) % 8)).find? f.planeLive

/-- A dead plane that still has entries of PLANEMAP, whose requests have all been answered or have timed out, while another plane
lives (R200). -/
def Fabric.remapDue (f : Fabric) (plane : Nat) : Bool :=
  !f.planeLive plane && (f.nextPlane plane).isSome && !f.anySent (fun _ p _ => p == plane) &&
    (List.range 8).any (fun p => planeOf f.planemap p == plane || planeOf f.planeWant p == plane)

/-- PLANE_REMAP (R200): a dead plane whose requests have been answered or have timed out loses its entries. -/
def execPlaneRemap (s : State) : Host.Outcome State Fault Refusal :=
  match s.input with
  | some (.planeRemap plane) =>
    let f := s.fabric
    match f.nextPlane plane with
    | none => .next s
    | some q =>
      if f.planeLive plane || f.anySent (fun _ p _ => p == plane) then .next s
      else
        let moved (m : Word) : Word := (List.range 8).foldl (fun m p => if planeOf m p = plane then setPlane m p q else m) m
        .next ({ s with fabric := { f with planemap := moved f.planemap, planeWant := moved f.planeWant } }.settlePlanes)
  | _ => .next s

/-- A write to PLANEMAP (R201): stored, in force for each changed plane after its drain. -/
def State.writePlanemap (s : State) (v : Word) : State :=
  { s with fabric := { s.fabric with planeWant := v &&& 0x77777777 } }.settlePlanes

/-- PLANEMAP_WRITE (R201). -/
def execPlanemapWrite (s : State) : Host.Outcome State Fault Refusal :=
  match s.input with
  | some (.planemapWrite v) => .next (s.writePlanemap v)
  | _ => .next s

/-- A rekey started, unless one is in progress (R197). -/
def State.startRekey (s : State) (port : Nat) (tx : Bool) : State := s.modKeys port tx (fun k => { k with rekey := true })

/-- A rekey of both directions, unless one is in progress on the port (R197). -/
def State.writeFabrekey (s : State) (port : Nat) : State :=
  if s.fabric.rekeying port then s else (s.startRekey port true).startRekey port false

/-- FABREKEY (R197). -/
def execFabrekey (s : State) : Host.Outcome State Fault Refusal :=
  match s.input with
  | some (.fabrekey port) => .next (s.writeFabrekey port)
  | _ => .next s

/-- REKEY_GROUP_COUNT (R197): a rekey at every 2^32 groups of a direction, unless one is in progress. -/
def execRekeyGroupCount (s : State) : Host.Outcome State Fault Refusal :=
  match s.input with
  | some (.rekeyGroupCount port tx) =>
    if (s.fabric.dir port tx).due then .next (s.modKeys port tx (fun k => { k with due := false, rekey := true })) else .next s
  | _ => .next s

/-- A direction in which a new key can be loaded (R197), by a rekey that either end has begun: none is loaded already, and a bank is
IDLE. -/
def KeyDir.loadable (k : KeyDir) : Bool := k.bank0 != .loaded && k.bank1 != .loaded && (k.bank0 == .idle || k.bank1 == .idle)

/-- A new key loaded into an IDLE bank (R196, R197): the rekey is in progress. -/
def KeyDir.load (k : KeyDir) (key : Nat) : KeyDir :=
  if k.bank0 = .idle then { k with bank0 := .loaded, key0 := key, rekey := true, switched := false }
  else { k with bank1 := .loaded, key1 := key, rekey := true, switched := false }

/-- The loaded bank becomes ACTIVE, and the one ACTIVE until now ACCEPT (R197); a group that is being filled is sealed under the old
one to its end. -/
def KeyDir.confirm (k : KeyDir) : KeyDir :=
  if k.bank0 = .loaded then
    { k with bank0 := .active, bank1 := if k.bank1 = .active then .accept else k.bank1, proven := false, switched := true,
             gen := if k.filled = 0 then false else k.gen }
  else if k.bank1 = .loaded then
    { k with bank1 := .active, bank0 := if k.bank0 = .active then .accept else k.bank0, proven := false, switched := true,
             gen := if k.filled = 0 then true else k.gen }
  else k

/-- The old bank's key zeroised: the rekey is complete (R197). -/
def KeyDir.complete (k : KeyDir) : KeyDir :=
  { k with bank0 := if k.bank0 = .accept then .idle else k.bank0, key0 := if k.bank0 = .accept then 0 else k.key0,
           bank1 := if k.bank1 = .accept then .idle else k.bank1, key1 := if k.bank1 = .accept then 0 else k.key1, rekey := false,
           switched := false }

/-- A rekey that the acknowledgement of the first group under the new bank completes (R197): a bank has taken over. -/
def KeyDir.completable (k : KeyDir) : Bool := k.rekey && k.switched

/-- LOAD_CONFIRM (R197): both ends have confirmed the load. -/
def execLoadConfirm (s : State) : Host.Outcome State Fault Refusal :=
  match s.input with
  | some (.loadConfirm port tx) => .next ((s.modKeys port tx KeyDir.confirm).settlePlanes)
  | _ => .next s

/-- RECEIVER_ACK (R197): of the sending direction the other end's acknowledgement; of the receiving one this end's, on MGMT, of the
first group that has authenticated under the new bank. REKEYED is posted for each direction (R202). DESIGN CHOICE, log entry 109. -/
def execReceiverAck (s : State) : Host.Outcome State Fault Refusal :=
  match s.input with
  | some (.receiverAck port tx) =>
    let k := s.fabric.dir port tx
    if !k.completable || (!tx && !k.proven) then .next s
    else
      let s1 := (s.modKeys port tx KeyDir.complete).postFabric 4 port
      .next (if tx then s1 else s1.sendFlit port (.keyAck port))
  | _ => .next s

/-- A group that authenticates under an ACTIVE or ACCEPT bank (R195, R197): counted, its flits released, and the first one under a
new bank acknowledged next. -/
def State.takeGroup (s : State) (port : Nat) (active : Bool) (flits : List Flit) : State :=
  let k := s.fabric.dir port false
  let s1 := (s.countGroup port false).modKeys port false (fun k => { k with discards := 0, proven := k.proven || active })
  let s2 := { s1 with fabric := { s1.fabric with released := s1.fabric.released ++ flits,
                                                 announcing := s1.fabric.announcing.filter (fun q => q != port) } }
  if active && k.completable && !k.proven then { s2 with agenda := .step (.receiverAck port false) :: s2.agenda } else s2

/-- A group discarded whole (R195): counted; after eight in a row the port goes DOWN. -/
def State.dropGroup (s : State) (port : Nat) : State :=
  let k := s.fabric.dir port false
  let s1 := { s with fabric := { s.fabric with authErr := (s.fabric.authErr + 1) % 2 ^ 32 } }
  let s2 := s1.modKeys port false (fun k => { k with discards := k.discards + 1 })
  if 8 ≤ k.discards + 1 then s2.portDown port 5 false else s2

/-- FLIT_GROUP_RECEIVE (R195, R197): at most 16 flits, delivered when their group authenticates under a bank that is ACTIVE or
ACCEPT; a port that is DOWN, or whose feature is withheld (R444), receives nothing. DEDUCED, log entry 25. -/
def execFlitGroupReceive (s : State) : Host.Outcome State Fault Refusal :=
  match s.input with
  | some (.flitGroupReceive port bank ok flits) =>
    if 16 ≤ port || 16 < flits.length || s.fabric.ports.getD port 0 = 0 || !s.accepted 1 then .next s
    else
      let k := s.fabric.dir port false
      let st := if bank = 0 then k.bank0 else k.bank1
      if ok && (st == .active || st == .accept) then .next (s.takeGroup port (st == .active) flits) else .next (s.dropGroup port)
  | _ => .next s

end Sys2Proof.Machine
end

