-- ==== Sys2Proof/Machine/Control.lean ====
section
/-! DEFINITION. Branches (R293), calls and the return stack (R295 to R298), and the CTL functions (R299 to
R302); ACTIVE's neighbours in the cross-lane chapter are in Lanes. -/

namespace Sys2Proof.Machine

/-- pc + 2·sext(off) (R39, R293). -/
def branchTarget {n : Nat} (pc : VA) (off : BitVec n) : VA := pc + 2 * off.signExtend 64

/-- The unit's PC and length of the group that runs. -/
def State.here (s : State) : VA := match s.focus with | some fo => fo.pc | none => 0

/-- The PC after the unit. -/
def State.after (s : State) : VA := match s.focus with | some fo => fo.pc + BitVec.ofNat 64 fo.len | none => 0

/-- BZ and BNZ (R293). -/
def branchIf (s : State) (c : Opd) (off : BitVec 19) (onZero : Bool) : State :=
  runPure s (fun w l ln =>
    if (readOpd w l ln c == 0) == onZero then .jump (branchTarget s.here off) 0 else .done none [] 0)

/-- BZ (R293). -/
def execBz (c : Opd) (off : BitVec 19) (s : State) : Host.Outcome State Fault Refusal := .next (branchIf s c off true)

/-- BNZ (R293). -/
def execBnz (c : Opd) (off : BitVec 19) (s : State) : Host.Outcome State Fault Refusal := .next (branchIf s c off false)

/-- BRA (R293). -/
def execBra (off : BitVec 25) (s : State) : Host.Outcome State Fault Refusal :=
  .next (runPure s (fun _ _ _ => .jump (branchTarget s.here off) 0))

/-- ALIGN at a transfer whose target is odd (R26). -/
def oddTarget (t : VA) : Trap := Trap.mk 0x12 t.toNat 0

/-- The private offset of spilled entry k (R295). -/
def spillOffset (w : Wave) (k : Nat) : Nat := w.privBytes - 8 * (k + 1)

/-- A push: onto four on-chip entries, the oldest goes to private memory first (R295). -/
def Lane.push (ln : Lane) (w : Wave) (pc : VA) : Lane :=
  let entry := pc &&& 0x1FFFFFFFFFFFFFF
  let ln1 :=
    if ln.stack.length < 4 then ln
    else ln.privWrite (spillOffset w (ln.depth - 4)) (natLe 8 ((ln.stack.getD 3 0).toNat))
  { ln1 with stack := entry :: ln.stack.take 3, depth := ln.depth + 1 }

/-- A pop: the newest entry goes; while spilled entries remain, the newest of them is read back (R295). -/
def State.popLane (s : State) (w : Wave) (l : Nat) (ln : Lane) : Lane :=
  let rest := ln.stack.drop 1
  let depth := ln.depth - 1
  let rest' :=
    if rest.length < depth && rest.length < 4 then
      rest ++ [BitVec.ofNat 64 (leNat (s.privRead l ln (spillOffset w (depth - rest.length - 1)) 8))]
    else rest
  { ln with stack := rest', depth := depth }

/-- What a lane has from remote replies so far. -/
def Lane.got (ln : Lane) : List Byte := match ln.wait with | some wt => wt.bytes | none => []

/-- A lane waits for a die link on its way (R171). -/
def State.linkWait (s : State) (fo : Focus) (l : Nat) (ln : Lane) (src dst : Nat) : State × Out :=
  (s.waitWith fo.wave l (.dieLink src dst) 0 ln.got, .set)

/-- A lane waits for a line of another package that its core fetches (R103): one request of a wave serves all its lanes that want it. What
the lane waited for before is taken up again afterwards. -/
def State.askFetch (s : State) (u l asid va pa : Nat) : State :=
  let wait (t : State) (n : Nat) : State :=
    let before := (s.lane u l).bind Lane.wait
    (t.waitWith u l (.fetch n) 2 []).modLane u l (fun ln => { ln with held := before })
  match s.fabric.out.find? (fun e => e.2.fetch && e.2.wave == u && e.2.pa == pa) with
  | some (n, r) => wait { s with fabric := { s.fabric with out := sput s.fabric.out n { r with lanes := r.lanes ++ [(l, 0)] } } } n
  | none =>
    let r := s.request { s.laneReq u asid [(l, 0)] none va pa 128 .load [] 0 with fetch := true }
    wait r.2 r.1

/-- A lane whose instruction's own fetch has failed (R147, R250): its trap, or what it waits for. -/
def State.fetchOut (s : State) (fo : Focus) (w : Wave) (l : Nat) (ln : Lane) (t : Trap) : State × Out :=
  match t.need with
  | some (.link src dst) => s.linkWait fo l ln src dst
  | some (.access pa _ _ _ _) => (s.askFetch fo.wave l w.asid t.va pa, .set)
  | none => (s, if t.cause = 0 then .hold else .trap t false)

/-- A trap that an access raises, or the wait for a die link on its way (R171). -/
def trapOrLink (t : Trap) : Out :=
  match t.need with
  | some (.link src dst) => .wait (.dieLink src dst)
  | some (.access _ _ _ _ _) | none => if t.cause = 0 then .hold else .trap t false

/-- The private offset that a push spills to (R295). -/
def spills (w : Wave) (ln : Lane) : Option Nat := if ln.stack.length < 4 then none else some (spillOffset w (ln.depth - 4))

/-- The private offset that a pop reads back (R295). -/
def refills (w : Wave) (ln : Lane) : Option Nat :=
  let left := ln.stack.length - 1
  if left < ln.depth - 1 && left < 4 then some (spillOffset w (ln.depth - 1 - left - 1)) else none

/-- What stops a spill or a refill at an offset, as a 2w private access (R118, R295, R296): ALIGN, POISON, or a link. -/
def State.spillTrap (s : State) (u l : Nat) (o : Option Nat) : Option Trap :=
  o.bind (fun k => if k % 8 != 0 then some (Trap.mk 0x12 k 0) else s.privTrap u l k 8 (fun _ => false))

/-- A push with the sectors of its spill (R115, R295). -/
def State.pushLane (s : State) (u l : Nat) (w : Wave) (ln : Lane) (pc : VA) : State :=
  let s1 := s.modLane u l (fun x => x.push w pc)
  match spills w ln with
  | some o => s1.dirtyPrivs u (w.privSectors l o 8)
  | none => s1

/-- CALL and CALLR (R296): the checks in order, the push, and a REGION expected at the target (R254). A stack that STKLIM has been lowered
under is full too. DEDUCED, log entry 106. -/
def callTo (s : State) (checked : Bool) (target : Wave → Nat → Lane → VA) : State :=
  runSeen s (fun s' w l ln =>
    let t := target w l ln
    if checked && t.getLsbD 0 then (s', .trap (oddTarget t) false)
    else if 4 + ln.stklim.toNat / 8 ≤ ln.depth then (s', .trap (Trap.mk 0x18 0 0) false)
    else
      match s.focus with
      | some fo =>
        match s'.spillTrap fo.wave l (spills w ln) with
        | some e => (s', trapOrLink e)
        | none => (s'.pushLane fo.wave l w ln s.after, .jump t 2)
      | none => (s', .set))

/-- CALL (R296). -/
def execCall (off : BitVec 25) (s : State) : Host.Outcome State Fault Refusal :=
  .next (callTo s false (fun _ _ _ => branchTarget s.here off))

/-- CALLR (R296, R297). -/
def execCallr (a : Opd) (s : State) : Host.Outcome State Fault Refusal :=
  .next (callTo s true (fun w l ln => readPair w l ln a))

/-- RET (R296): a REGION is expected at the return PC (R254). -/
def execRet (s : State) : Host.Outcome State Fault Refusal :=
  .next (runLanes s (fun s' w l ln =>
    if ln.depth = 0 then (s', .trap (Trap.mk 0x18 0 1) false)
    else
      let t := ln.stack.headD 0
      if t.getLsbD 0 then (s', .trap (oddTarget t) false)
      else
        match s.focus with
        | some fo =>
          match s'.spillTrap fo.wave l (refills w ln) with
          | some e => (s', trapOrLink e)
          | none => (s'.modLane fo.wave l (fun ln' => s'.popLane w l ln'), .jump t 3)
        | none => (s', .set)))

/-- JMPR (R298). -/
def execJmpr (a : Opd) (s : State) : Host.Outcome State Fault Refusal :=
  .next (runPure s (fun w l ln =>
    let t := readPair w l ln a
    if t.getLsbD 0 then .trap (oddTarget t) false else .jump t 0))

/-- A lane waits in an instruction: the reply to a load or store is not such a wait (R188, R300). -/
def Lane.waitsElsewhere (ln : Lane) : Bool :=
  match ln.wait with
  | none => false
  | some wt => match wt.kind with
    | .remote _ | .fetch _ | .cxl | .requests | .dieLink _ _ | .turn => false
    | _ => true

/-- A lane that RECONV waits for has exited, or has reached this RECONV: it stands there, or has been there (R300). -/
def reconvMet (w : Wave) (ln : Lane) (group : List Nat) (pc : VA) (j : Nat) : Bool :=
  match w.lane j with
  | none => true
  | some x => group.contains j || x.pc == pc || ln.met.contains (pc, j)

/-- A lane that RECONV waits for waits at another instruction, which cuts the wait short (R300). -/
def reconvCut (w : Wave) (pc : VA) (j : Nat) : Bool :=
  match w.lane j with
  | none => false
  | some x => x.pc != pc && x.waitsElsewhere

/-- A lane in RECONV goes on by what the lanes split from it do (R300). -/
def reconvGo (w : Wave) (ln : Lane) (group : List Nat) (pc : VA) : Bool :=
  ln.split.all (reconvMet w ln group pc) || ln.split.any (reconvCut w pc)

/-- Lanes that reach a RECONV have done so for the lanes they were split from (R300). -/
def Wave.reached (w : Wave) (group : List Nat) (pc : VA) : Wave :=
  { w with lanes := w.lanes.map (fun (x : Nat × Lane) => (x.1, { x.2 with met := ((group.filter (fun j => x.2.split.contains j && !x.2.met.contains (pc, j))).map (fun j => (pc, j))) ++ x.2.met })) }

/-- The wait of a lane in RECONV is over (R300): its 1,024 clocks have run, each step of the part counted as one. DEDUCED, log
entry 77. -/
def State.reconvOver (s : State) (wt : Wait) : Bool := wt.status.isSome || decide (leNat wt.bytes + 1024 ≤ s.freeCtr)

/-- RECONV (R300): waits for the lanes split from its group under R188, at most until its time is over. -/
def execReconv (s : State) : Host.Outcome State Fault Refusal :=
  .next (runLanes s (fun s' w l ln =>
    match s.focus with
    | none => (s', .set)
    | some fo =>
      let s1 := s'.modWave fo.wave (fun x => x.reached [l] fo.pc)
      let ended := match ln.wait with | some wt => s'.reconvOver wt | none => false
      if ended || reconvGo w ln fo.lanes fo.pc then
        (s1.modLane fo.wave l (fun ln' => { ln' with split := [], met := [] }), .done none [] 0)
      else if ln.wait.isSome then (s1, .hold)
      else (s1.waitWith fo.wave l (.reconv ln.split) 0 (natLe 8 s'.freeCtr), .set)))

/-- YIELD (R301): its place in issue order is that of any selection (R416). -/
def execYield (s : State) : Host.Outcome State Fault Refusal := .next (runPure s (fun _ _ _ => .done none [] 0))

/-- NOP (R301). -/
def execNop (s : State) : Host.Outcome State Fault Refusal := .next (runPure s (fun _ _ _ => .done none [] 0))

/-- NOP16 (R32). -/
def execNop16 (s : State) : Host.Outcome State Fault Refusal := .next (runPure s (fun _ _ _ => .done none [] 0))

/-- EXIT (R302). -/
def execExitLane (s : State) : Host.Outcome State Fault Refusal := .next (runPure s (fun _ _ _ => .exit))

/-- TRAP (R302): TRAPI with TRAPAUX the operand. -/
def execTrapInstr (a : Opd) (s : State) : Host.Outcome State Fault Refusal :=
  .next (runPure s (fun w l ln => .trap (Trap.mk 0x3D 0 (readOpd w l ln a)) false))

/-- BREAK (R302). -/
def execBreakTrap (s : State) : Host.Outcome State Fault Refusal :=
  .next (runPure s (fun _ _ _ => .trap (Trap.mk 0x3E 0 0) false))

/-- SVC (R302). -/
def execSvc (a : Opd) (s : State) : Host.Outcome State Fault Refusal :=
  .next (runPure s (fun w l ln => .trap (Trap.mk 0x3F 0 (readOpd w l ln a)) false))

/-- A prefix word (R42): it writes nothing; the unit it opens runs under its fields. DEDUCED, log entry 81. -/
def execPfx (p : PfxFields) (s : State) : Host.Outcome State Fault Refusal :=
  .next { s with focus := s.focus.map (fun fo => { fo with pfx := some p }) }

end Sys2Proof.Machine
end

