-- ==== Sys2Proof/Machine/Region.lean ====
section
/-! DEFINITION. REGION and its descriptors (R250 to R252), and MOVX with the control registers (R255 to R258). -/

namespace Sys2Proof.Machine

/-- A region descriptor as read: malformed or its entries, loads and stores as (m index, b slot) (R250). -/
structure Desc where
  malformed : Bool
  loads : List (Nat × Nat)
  stores : List (Nat × Nat)
  deriving DecidableEq, Repr

/-- The empty descriptor (R251). -/
def Desc.empty : Desc := Desc.mk false [] []

/-- No value twice. -/
def distinct (xs : List Nat) : Bool :=
  match xs with
  | [] => true
  | x :: r => !r.contains x && distinct r

/-- Halfwords of a descriptor from an address on, through the instruction cache (R250). -/
def readHalves (s : State) (w : Wave) (priv : Bool) (va n : Nat) : Except Trap (List Nat × State) :=
  match n with
  | 0 => .ok ([], s)
  | n + 1 =>
    match s.fetchHalf w priv va with
    | .error t => .error t
    | .ok (h, s1) =>
      match readHalves s1 w priv (va + 2) n with
      | .error t => .error t
      | .ok (hs, s2) => .ok (h.toNat :: hs, s2)

/-- A descriptor at an address; a malformed word 0 is read no further (R250). -/
def readDesc (s : State) (w : Wave) (priv : Bool) (va : Nat) : Except Trap (Desc × State) :=
  match s.fetchWord w priv va with
  | .error t => .error t
  | .ok (w0, s1) =>
    let nload := wbits w0 7 0
    let nstore := wbits w0 15 8
    if wbits w0 31 16 != 0 || 32 < nload then .ok (Desc.mk true [] [], s1)
    else
      match readHalves s1 w priv (va + 4) (nload + nstore) with
      | .error t => .error t
      | .ok (hs, s2) =>
        let es := hs.map (fun h => (bitsOf h 15 8, bitsOf h 4 0))
        let loads := es.take nload
        let stores := es.drop nload
        let bad := hs.any (fun h => bitsOf h 7 5 != 0) || !distinct (loads.map Prod.snd) || !distinct (stores.map Prod.fst)
        .ok (Desc.mk bad loads stores, s2)

/-- A descriptor that REGION refuses: malformed, or naming an m index outside the footprint (R245, R250). -/
def Desc.refused (d : Desc) (w : Wave) : Bool :=
  d.malformed || d.loads.any (fun e => w.regs ≤ e.1) || d.stores.any (fun e => w.regs ≤ e.1)

/-- The stores of a descriptor committed from a bank (R251, step 1). -/
def commitStores (m : Sparse Word) (k : Bank) (stores : List (Nat × Nat)) : Sparse Word :=
  match stores with
  | [] => m
  | e :: r => commitStores (sput m e.1 (k.reg e.2)) k r

/-- The operand buffer rebuilt: markers, then the loads (R251, step 3). -/
def loadRegs (ln : Lane) (b : Sparse Word) (loads : List (Nat × Nat)) : Sparse Word :=
  match loads with
  | [] => b
  | e :: r => loadRegs ln (sput b e.2 (ln.mreg e.1)) r

/-- A lane after its REGION (R251, R252): the commit, the restart point and the load; a restart skips the first
and leaves the second. -/
def Lane.region (ln : Lane) (pc dv : VA) (cd nd : Desc) : Lane :=
  let k := ln.bank
  let ln1 := if k.restart then ln else { ln with m := commitStores ln.m k cd.stores }
  let k' : Bank :=
    { b := loadRegs ln1 [] nd.loads, e0 := e0Marker, e1 := e1Marker,
      restartPc := if k.restart then k.restartPc else pc,
      curDesc := if k.restart then k.curDesc else some dv,
      tail := 0, counted := false, restart := false, expect := 0 }
  ln1.setBank k'

/-- The descriptor a REGION commits from: none in restart mode or at the empty descriptor (R251, R252). -/
def currentDesc (s : State) (w : Wave) (ln : Lane) : Except Trap (Desc × State) :=
  if ln.bank.restart then .ok (Desc.empty, s)
  else
    match ln.bank.curDesc with
    | none => .ok (Desc.empty, s)
    | some va => readDesc s w ln.isPriv va.toNat

/-- REGION (R251). -/
def execRegion (imm : BitVec 19) (s : State) : Host.Outcome State Fault Refusal :=
  .next (runLanes s (fun s' w l ln =>
    match s.focus with
    | none => (s', .set)
    | some fo =>
      let dv := branchTarget fo.pc imm
      if dv.extractLsb' 0 2 != 0 then (s', .trap (Trap.mk 0x12 dv.toNat 0) false)
      else
        match currentDesc s' w ln with
        | .error t => s'.fetchOut fo w l ln t
        | .ok (cd, s1) =>
          match readDesc s1 w ln.isPriv dv.toNat with
          | .error t => s1.fetchOut fo w l ln t
          | .ok (nd, s2) =>
            if cd.refused w || nd.refused w then (s2, .trap (Trap.mk 0x05 0 5) false)
            else (s2.modLane fo.wave l (fun ln' => (ln'.region fo.pc dv cd nd).advance s.after), .set)))

/-- The failing word of the instruction that runs (R48). -/
def State.word (s : State) : Word := match s.focus with | some fo => fo.word | none => 0

/-- ILLEGAL_OPERAND at the instruction that runs (R245). -/
def operandTrap (s : State) : Trap := Trap.mk 0x02 0 s.word

/-- PRIV at the instruction that runs (R47). -/
def privTrap (s : State) : Trap := Trap.mk 0x06 0 s.word

/-- MOVM (R258). -/
def execMovm (v : Opd) (idx : BitVec 9) (s : State) : Host.Outcome State Fault Refusal :=
  .next (runPure s (fun w _ ln =>
    if w.regs ≤ idx.toNat then .trap (operandTrap s) false else .done (some v) [ln.mreg idx.toNat] 0))

/-- MOVMW (R258): an index that the current descriptor loads is refused, so the descriptor is read (R254). -/
def execMovmw (v : Opd) (idx : BitVec 9) (s : State) : Host.Outcome State Fault Refusal :=
  .next (runLanes s (fun s' w l ln =>
    match s.focus with
    | none => (s', .set)
    | some fo =>
      if w.regs ≤ idx.toNat then (s', .trap (operandTrap s) false)
      else
        let cur : Except Trap (Desc × State) :=
          match ln.bank.curDesc with
          | none => .ok (Desc.empty, s')
          | some va => readDesc s' w ln.isPriv va.toNat
        match cur with
        | .error t => s'.fetchOut fo w l ln t
        | .ok (cd, s1) =>
          if cd.loads.any (fun e => e.1 == idx.toNat) then (s1, .trap (Trap.mk 0x05 0 4) false)
          else (s1.modLane fo.wave l (fun ln' => { ln' with m := sput ln'.m idx.toNat (readOpd w l ln v) }), .done none [] 0)))

/-- MOVG (R258). -/
def execMovg (v : Opd) (idx : BitVec 9) (s : State) : Host.Outcome State Fault Refusal :=
  .next (runPure s (fun w _ _ => .done (some v) [w.greg idx.toNat] 0))

/-- MOVGW (R258): the lowest-numbered lane's word (R247). -/
def execMovgw (v : Opd) (idx : BitVec 9) (s : State) : Host.Outcome State Fault Refusal :=
  .next (runPure s (fun w l ln => .shared false idx.toNat (readOpd w l ln v)))

/-- The physical quad of a core (R18). -/
def State.quadOf (s : State) (die core : Nat) : Nat := physCore (s.harvest.getD die 0) core / 4

/-- A control register as a lane reads it (R255, R420). -/
def readCtl (s : State) (w : Wave) (ln : Lane) (idx : Nat) : Word :=
  match idx with
  | 0 => ln.fpmode
  | 1 => ln.fpflags
  | 2 => s.here.extractLsb' 0 32
  | 3 => ln.bank.restartPc.extractLsb' 0 32
  | 4 => ln.homehint
  | 5 => BitVec.ofNat 32 w.die
  | 6 => BitVec.ofNat 32 w.core
  | 7 => BitVec.ofNat 32 (s.quadOf w.die w.core)
  | 22 => ln.stklim
  | 23 => BitVec.ofNat 32 ln.depth
  | 24 => BitVec.ofNat 32 (w.asid % 65536)
  | 25 => w.launchId
  | 26 => BitVec.ofNat 32 (w.prio % 8)
  | 27 => BitVec.zeroExtend 32 (s.here.extractLsb' 32 25)
  | 28 => BitVec.zeroExtend 32 (ln.bank.restartPc.extractLsb' 32 25)
  | 256 => ln.cause
  | 257 => ln.trapPc
  | 258 => ln.vaLo
  | 259 => ln.vaHi
  | 260 => ln.aux
  | 261 => ln.trapRegion
  | 262 => ln.privState
  | 263 => (s.ctx w.asid).trapVec
  | 264 => s.linkTrapW
  | 265 => s.clkStretch
  | i => sgetD w.ctl i 0

/-- MOVC (R258): an index of 256 or above needs privileged mode (R255). -/
def execMovc (v : Opd) (idx : BitVec 9) (s : State) : Host.Outcome State Fault Refusal :=
  .next (runPure s (fun w _ ln =>
    if ctlPriv idx && !ln.isPriv then .trap (privTrap s) false
    else .done (some v) [readCtl s w ln idx.toNat] 0))

/-- The writable bits of a wave-scope control register (R255, R256); reserved bits read 0 (R6). -/
def waveCtlMask (idx : Nat) : Word :=
  match idx with
  | 16 => 0xFFFFFFFF
  | 17 => 0xFFFFFFFF
  | 19 => 0xFFFFFFFF
  | _ => 0x00FFFFFF

/-- A lane-scope control register written (R76, R77, R110, R255, R420, R421): RO bits keep their value, RWS bits
clear where 0 is written, STKLIM is cut at the launch private bytes. DEDUCED, log entry 19. -/
def Lane.writeCtl (ln : Lane) (w : Wave) (idx : Nat) (v : Word) : Lane :=
  match idx with
  | 0 => { ln with fpmode := v &&& 0x3FF }
  | 1 => { ln with fpflags := ln.fpflags &&& v }
  | 4 => { ln with homehint := v &&& 7 }
  | 22 => { ln with stklim := if w.privBytes < v.toNat then BitVec.ofNat 32 w.privBytes else v }
  | 256 => { ln with cause := v &&& 0xFF }
  | 257 => { ln with trapPc := v }
  | 258 => { ln with vaLo := v }
  | 259 => { ln with vaHi := v }
  | 260 => { ln with aux := v }
  | 261 => { ln with trapRegion := v &&& 0xFC000000 }
  | 262 => { ln with privState := (ln.privState &&& 0xA6000000) ||| (v &&& 0x59FFFFFF) }
  | _ => ln

/-- MOVTC (R258): lane registers by every lane, wave registers by the lowest-numbered one (R247), context and
package registers at once; a write to an RO register is ignored (R255). -/
def execMovtc (v : Opd) (idx : BitVec 9) (s : State) : Host.Outcome State Fault Refusal :=
  .next (runLanes s (fun s' w l ln =>
    match s.focus with
    | none => (s', .set)
    | some fo =>
      let x := readOpd w l ln v
      let i := idx.toNat
      if ctlPriv idx && !ln.isPriv then (s', .trap (privTrap s) false)
      else if 8 ≤ i && i ≤ 20 then (s', .shared true i (x &&& waveCtlMask i))
      else if i = 21 then (s', .shared true i (sgetD w.ctl 21 0 &&& x))
      else if i = 263 then (s'.modCtx w.asid (fun c => { c with trapVec := x &&& 0xFFFFFFFE }), .done none [] 0)
      else if i = 264 then ({ s' with linkTrapW := x }, .done none [] 0)
      else (s'.modLane fo.wave l (fun ln' => ln'.writeCtl w i x), .done none [] 0)))

end Sys2Proof.Machine
end

