-- ==== Sys2Proof/Machine/Barrier.lean ====
section
/-! DEFINITION. The BAR functions (R304 to R309). -/

namespace Sys2Proof.Machine

/-- A barrier word: level and index, when its fields are in range (R304). -/
def barrierWord (a : Word) : Option (Nat × Nat) :=
  let level := wbits a 6 4
  let index := wbits a 3 0
  let limit := [1, 16, 8, 8, 4, 4].getD level 0
  if wbits a 31 7 != 0 || limit ≤ index then none else some (level, index)

/-- The instance a wave's barrier of a level is (R304). -/
def barrierInst (s : State) (u : Nat) (w : Wave) (level : Nat) : Nat :=
  match level with
  | 0 => u
  | 1 => w.block
  | 2 => w.die * 16 + s.quadOf w.die w.core
  | 3 => w.die
  | _ => 0

/-- BAROWNER (R304): a quad, die, package or pod barrier that is not OFF belongs to another context. -/
def barrierForeign (b : Barrier) (level asid : Nat) : Bool := decide (2 ≤ level) && b.on && b.owner != asid

/-- PROT with REASON 18 (R304). -/
def ownerTrap : Trap := Trap.mk 0x11 0 18

/-- BINIT on a barrier whose waiters it ends (R306, R307). -/
def State.initBarrier (s : State) (level inst index asid count : Nat) : State :=
  let b := s.barrier level inst index
  let s1 := if b.on then
      (s.setBarrier level inst index { b with resetPh := some b.phase }).endPhase level inst index 1 else s
  let b1 := s1.barrier level inst index
  s1.setBarrier level inst index { b1 with on := true, dynamic := count == 0, expected := count, arrived := 0, owner := asid }

/-- BINVAL on a barrier that is ON (R307). -/
def State.invalBarrier (s : State) (level inst index : Nat) : State :=
  let b := s.barrier level inst index
  let s1 := (s.setBarrier level inst index { b with resetPh := some b.phase }).endPhase level inst index 1
  let b1 := s1.barrier level inst index
  s1.setBarrier level inst index { b1 with on := false }

/-- A barrier's present phase has waiters, here or on other packages. -/
def State.hasWaiters (s : State) (level inst index : Nat) : Bool :=
  let b := s.barrier level inst index
  b.away != 0 || s.waves.any (fun e => e.2.lanes.any (fun x => match x.2.wait with
    | some wt => wt.kind == .barrier level inst index b.phase && wt.status.isNone
    | none => false))

/-- BINIT with a valid count (R307): a phase ends only where the barrier is ON with waiters. -/
def State.binit (s : State) (level inst index asid count : Nat) : State :=
  let b := s.barrier level inst index
  if b.on && !s.hasWaiters level inst index then
    s.setBarrier level inst index { b with dynamic := count == 0, expected := count, arrived := 0, owner := asid }
  else s.initBarrier level inst index asid count

/-- What BINIT or BINVAL has made of a pod barrier held here, told to the pod; of one held elsewhere, the operation told to its home. -/
def State.tellBarrier (s : State) (level inst index : Nat) (m : PodBarrierMsg) : State :=
  let b := s.barrier level inst index
  if level != 5 then s
  else if s.heldElsewhere level index then s.tellPod index m
  else s.tellPod index (.state b.on b.owner b.phase)

/-- The clearing of a core's shared-class L1 blocks by an acquire wider than .core (R116). -/
def State.dropL1 (s : State) (core : Nat) : State :=
  if (s.core core).l1.isEmpty then s else s.modCore core (fun c => { c with l1 := [] })

/-- Whether a block has waves on more than one core (R350). -/
def State.blockSpans (s : State) (w : Wave) : Bool :=
  s.waves.any (fun e => e.2.block == w.block && e.2.onCore && e.2.coreKey != w.coreKey)

/-- The acquire of a BWAIT or BSYNC that returns OK, by level (R309, R350): one wider than .core clears L1. -/
def barrierAcquire (s : State) (w : Wave) (level status : Nat) : State :=
  if status = 0 && (2 ≤ level || (level = 1 && s.blockSpans w)) then s.dropL1 w.coreKey else s

/-- A lane leaves its BSYNC. -/
def State.unjoin (s : State) (u l : Nat) : State := s.modLane u l (fun x => { x with joined := none })

/-- BWAIT or BSYNC after its wait has ended with a status. -/
def syncDone (s : State) (fo : Focus) (w : Wave) (l : Nat) (d : Opd) (level st : Nat) : State × Out :=
  (barrierAcquire (s.unjoin fo.wave l) w level st, .done (some d) [BitVec.ofNat 32 st] 0)

/-- A lane that waits in BWAIT or BSYNC: it goes on with the status that has released it (R307, R308). -/
def barrierResume (s : State) (fo : Focus) (w : Wave) (l : Nat) (d : Opd) (wt : Wait) : State × Out :=
  match wt.kind, wt.status with
  | .barrier level _ _ _, some st => syncDone s fo w l d level st
  | _, _ => (s, .hold)

/-- A BAR function: in a handler it is a nested trap (R422); a lane that waits goes on with its wait; a bad word gives BADARG; another
context's barrier traps; else the function acts on the barrier. -/
def barFunction (s : State) (d a : Opd) (bad : Word)
    (f : State → Focus → Wave → Nat → Lane → Nat → Nat → Nat → State × Out) : State :=
  runInto s d (fun s' fo w l ln =>
    if ln.inTrap then (s'.fatal fo.wave l, .set)
    else
      match ln.wait with
      | some wt => barrierResume s' fo w l d wt
      | none =>
        match barrierWord (readOpd w l ln a) with
        | none => (s', .done (some d) [bad] 0)
        | some (level, index) =>
          let inst := barrierInst s' fo.wave w level
          if barrierForeign (s'.barrier level inst index) level w.asid then (s', .trap ownerTrap false)
          else f s' fo w l ln level inst index)

/-- BINIT (R306, R307). -/
def execBinit (d a b : Opd) (s : State) : Host.Outcome State Fault Refusal :=
  .next (barFunction s d a 3 (fun s' _ w l ln level inst index =>
    let count := (readOpd w l ln b).toNat
    if count = 0 && 2 ≤ level then (s', .done (some d) [3] 0)
    else
      ((s'.binit level inst index w.asid count).tellBarrier level inst index (.init w.asid (BitVec.ofNat 32 count)), .done (some d) [0] 0)))

/-- BARRIVE (R307, R308): the phase joined. -/
def execBarrive (d a : Opd) (s : State) : Host.Outcome State Fault Refusal :=
  .next (barFunction s d a 0xFFFFFFFF (fun s' _ _ _ _ level inst index =>
    let b := s'.barrier level inst index
    if !b.on then (s', .done (some d) [0xFFFFFFFF] 0)
    else (s'.arrive level inst index, .done (some d) [b.phase] 0)))

/-- A lane begins to wait on a phase; the home of a pod barrier held elsewhere is told. -/
def State.barrierWait (s : State) (fo : Focus) (l level inst index : Nat) (phase : Word) : State :=
  let s1 := s.waitWith fo.wave l (.barrier level inst index phase) 0 []
  if s1.heldElsewhere level index then s1.tellPod index (.waits (s1.barrier level inst index).owner phase) else s1

/-- BWAIT (R308). -/
def execBwait (d a b : Opd) (s : State) : Host.Outcome State Fault Refusal :=
  .next (barFunction s d a 3 (fun s' fo w l ln level inst index =>
    let bar := s'.barrier level inst index
    let token := readOpd w l ln b
    if !bar.on then (s', .done (some d) [2] 0)
    else if bar.phase == token then (s'.barrierWait fo l level inst index token, .set)
    else
      let st := if bar.resetPh == some token then 1 else 0
      (barrierAcquire s' w level st, .done (some d) [BitVec.ofNat 32 st] 0)))

/-- A lane waits in BSYNC on the phase it has joined. -/
def State.syncWait (s : State) (fo : Focus) (l level inst index : Nat) (phase : Word) : State :=
  (s.barrierWait fo l level inst index phase).modLane fo.wave l (fun x => { x with joined := some (fo.pc, phase) })

/-- BSYNC (R308): arrives, then waits on the phase it joined; a lane that has arrived only waits, also when a
pre-emption or LINK_DEGRADED has interrupted it. -/
def execBsync (d a : Opd) (s : State) : Host.Outcome State Fault Refusal :=
  .next (barFunction s d a 3 (fun s' fo w l ln level inst index =>
    let bar := s'.barrier level inst index
    match ln.joined with
    | some (pc, phase) =>
      if pc = fo.pc then
        if bar.phase = phase then (s'.syncWait fo l level inst index phase, .set)
        else syncDone s' fo w l d level (if bar.resetPh == some phase then 1 else 0)
      else (s'.unjoin fo.wave l, .hold)
    | none =>
      if !bar.on then (s', .done (some d) [2] 0)
      else
        let s2 := (s'.syncWait fo l level inst index bar.phase).arrive level inst index
        match (s2.lane fo.wave l).bind Lane.wait with
        | some wt' =>
          match wt'.status with
          | some st => syncDone s2 fo w l d level st
          | none => (s2, .set)
        | none => (s2, .set)))

/-- BINVAL (R307). -/
def execBinval (d a : Opd) (s : State) : Host.Outcome State Fault Refusal :=
  .next (barFunction s d a 3 (fun s' _ w _ _ level inst index =>
    if (s'.barrier level inst index).on then
      ((s'.invalBarrier level inst index).tellBarrier level inst index (.inval w.asid), .done (some d) [0] 0)
    else (s', .done (some d) [2] 0)))

/-- Another package's message about a pod barrier acted on (R304 to R307). -/
def State.podMessage (s : State) (index : Nat) (m : PodBarrierMsg) : State :=
  let b := s.barrier 5 0 index
  match m with
  | .arrive asid lanes => if b.on && b.owner == asid then (List.range lanes).foldl (fun t _ => t.arrive 5 0 index) s else s
  | .init asid count =>
    if count == 0 || (b.on && b.owner != asid) then s
    else (s.binit 5 0 index asid count.toNat).tellBarrier 5 0 index (.init asid count)
  | .inval asid => if b.on && b.owner == asid then (s.invalBarrier 5 0 index).tellBarrier 5 0 index (.inval asid) else s
  | .waits asid phase => if b.on && b.owner == asid && b.phase == phase then s.setBarrier 5 0 index { b with away := b.away + 1 } else s
  | .phaseEnd phase status =>
    if s.heldElsewhere 5 index && b.phase == phase then
      (if status = 0 then s else s.setBarrier 5 0 index { b with resetPh := some phase }).endPhase 5 0 index status
    else s
  | .state on asid phase => if s.heldElsewhere 5 index then s.setBarrier 5 0 index { b with on := on, owner := asid, phase := phase } else s

/-- POD_BARRIER_MESSAGE (R195, R304, R305): another package's operation on a barrier held here, or the end of a phase or the new state
of one held elsewhere. DESIGN CHOICE, log entry 96. -/
def execPodBarrierMessage (s : State) : Host.Outcome State Fault Refusal :=
  match s.input with
  | some (.podBarrierMessage index m) =>
    match s.takeFlit (.podBarrier index m) with
    | none => .next s
    | some s1 => if 4 ≤ index then .next s1 else .next (s1.podMessage index m)
  | _ => .next s

end Sys2Proof.Machine
end

