-- ==== Sys2Proof/Machine/Links.lean ====
section
/-! DEFINITION. Die links (R162 to R175), their events, LINK_DEGRADED (R176 to R179), and the scrub of a poisoned
line (R182). -/

namespace Sys2Proof.Machine

/-- No module of the link lives (R173). -/
def LinkRegs.dead (k : LinkRegs) : Bool := (List.range 8).all (fun m => k.moduleWidth m == 3)

/-- The state with a link replaced. -/
def State.setLink (s : State) (i : Nat) (k : LinkRegs) : State := { s with links := s.links.set i k }

/-- The WAVE object that LINKTRAPW names, live and running (R176). -/
def State.trapWave (s : State) : Option Nat :=
  match s.entry s.linkTrapW with
  | some (_, .wave u false _ _) => some u
  | _ => none

/-- A link event posted, and raised for the wave that LINKTRAPW names if it is one of those (R174, R176, R178): of the events a wave has
not yet taken, the earliest stays. old is the link before it. -/
def State.linkEvent (s : State) (i kind : Nat) (raise : Bool) (old : LinkRegs) : State :=
  let k := s.link i
  let record := i + kind * 2 ^ 4 + old.cur * 2 ^ 80 + k.cur * 2 ^ 88 + old.widthWord * 2 ^ 96 + k.widthWord * 2 ^ 112 + k.ber * 2 ^ 128 +
    s.linkCtl.evSeq * 2 ^ 160 + s.time % 2 ^ 64 * 2 ^ 192
  let s1 := s.postRecord 0 record
  match s1.trapWave with
  | some u =>
    if raise && s1.linkCtl.raised.all (fun e => e.1 != u) then
      let aux := BitVec.ofNat 32 (i + kind * 2 ^ 4 + k.cur * 2 ^ 8 + k.widthWord * 2 ^ 16)
      { s1 with linkCtl := { s1.linkCtl with raised := s1.linkCtl.raised ++ [(u, aux)] } }
    else s1
  | none => s1

/-- The rates a TARGET may name (R170). -/
def rateOk (r : Nat) : Bool := r == 32 || r == 36 || r == 40 || r == 44 || r == 48

/-- A write to LKRATE (R170, R174): AUTOFB always; TARGET is kept, and starts a retrain or is refused. DEDUCED, log entry 24. -/
def State.writeLkrate (s : State) (i : Nat) (v : Word) : State :=
  let k := { s.link i with autofb := v.getLsbD 16, target := wbits v 7 0 }
  let rate := wbits v 7 0
  if rateOk rate && !k.busy && (rate ≤ 32 || (s.bringup.accepted && bitOf s.bringup.drvaccept 0)) then
    s.setLink i { k with busy := true, repairing := false, trying := rate, fellBack := false }
  else s.setLink i { k with status := 1 }

/-- LKRATE_WRITE (R170). -/
def execLkrateWrite (s : State) : Host.Outcome State Fault Refusal :=
  match s.input with
  | some (.lkrateWrite i v) => if i < 12 then .next (s.writeLkrate i v) else .next s
  | _ => .next s

/-- What waited for a link goes on: requests held here, and those held at their source (R171). -/
def State.linkFree (s : State) : State := s.serveHeld.sendHeld

/-- The links of a die (R16): the one to Pavilion and its two of the ring. -/
def dieLinks (d : Nat) : List Nat := [d, 6 + d, 6 + (d + 5) % 6]

/-- The uncore reset in progress is over once the die's links have trained (R180). -/
def State.endReset (s : State) : State :=
  match s.linkCtl.resetDie with
  | some d =>
    if (dieLinks d).any (fun i => (s.link i).busy) then s
    else { s with linkCtl := { s.linkCtl with resetBusy := false, resetDie := none } }
  | none => s

/-- LINK_TRAINING_DONE (R171, R174): the rate is reached, or the link steps down 4 GT/s and tries again; at 32 GT/s
a further failure leaves it trying. A link none of whose modules lives cannot train: it is DOWN again. DEDUCED, log entry 24. The retrain
of a module alone reports nothing. DEDUCED, log entry 92. -/
def execLinkTrainingDone (s : State) : Host.Outcome State Fault Refusal :=
  match s.input with
  | some (.linkTrainingDone i ok) =>
    let k := s.link i
    if 12 ≤ i || !k.busy then .next s
    else if k.dead then .next (s.setLink i { k with busy := false, repairing := false, status := 3, down := true }).endReset
    else if !ok then
      if 36 ≤ k.trying then .next (s.setLink i { k with trying := k.trying - 4, fellBack := true, repairing := false }) else .next s
    else if k.repairing then .next (s.setLink i { k with busy := false, repairing := false }).endReset.linkFree
    else
      let k' := { k with busy := false, cur := k.trying, status := if k.fellBack then 2 else 0, announce := false, down := false }
      let s1 := (s.setLink i k').linkEvent i (if k.fellBack then 3 else 0) k.fellBack k
      let s2 := if k.announce then s1.linkEvent i 7 false k else s1
      .next s2.endReset.linkFree
  | _ => .next s

/-- A module whose lane at x16 fails is dead in both directions (R173). -/
def LinkRegs.kill (k : LinkRegs) (m : Nat) : LinkRegs := { k with widths := (k.widths.set (2 * m) 3).set (2 * m + 1) 3 }

/-- A link retrains the module that has lost a lane (R171, R173), unless it trains already. DEDUCED, log entry 92. -/
def LinkRegs.repair (k : LinkRegs) : LinkRegs :=
  if k.busy then k else { k with busy := true, repairing := true, trying := k.cur, fellBack := false }

/-- LANE_FAULT (R173, R174): in one direction of a module a redundant lane takes over, or that direction narrows, or, at x16, the module
dies; every fault counts a retired lane. DESIGN CHOICE, log entry 112. -/
def execLaneFault (s : State) : Host.Outcome State Fault Refusal :=
  match s.input with
  | some (.laneFault i m out) =>
    let k := s.link i
    let dir := 2 * m + (if out then 1 else 0)
    let w := k.widths.getD dir 3
    if 12 ≤ i || 8 ≤ m || k.moduleWidth m = 3 then .next s
    else
      let k1 := { k with retired := k.retired.set m (min 15 (k.retired.getD m 0 + 1)) }
      if k.spares.getD dir 0 < 4 then
        .next ((s.setLink i { k1 with spares := k.spares.set dir (k.spares.getD dir 0 + 1) }.repair).linkEvent i 1 false k)
      else if w < 2 then .next ((s.setLink i { k1 with widths := k.widths.set dir (w + 1) }.repair).linkEvent i 2 true k)
      else
        let k2 := k1.kill m
        let s1 := (s.setLink i k2).linkEvent i 5 true k
        if k2.dead then
          .next (((s1.setLink i { k2 with status := 3, busy := false, repairing := false, down := true, announce := true }).linkEvent i 6 true k2).endReset.linkFree)
        else .next s1
  | _ => .next s

/-- The flits of a window (R169). -/
def windowFlits : Nat := 2 ^ 24

/-- REPLAY_WINDOW (R169, R175): a window of 2^24 flits has ended. -/
def execReplayWindow (s : State) : Host.Outcome State Fault Refusal :=
  match s.input with
  | some (.replayWindow i) =>
    let k := s.link i
    if 12 ≤ i || k.flits < windowFlits then .next s
    else
      let k1 := { k with ber := k.window, window := 0, flits := 0 }
      let s1 := s.setLink i k1
      if k.replayMax != 0 && decide (k.replayMax < k.window) && !k.down then
        let s2 := s1.linkEvent i 4 true k
        if k.autofb && decide (32 < k.cur) && !k.busy then
          .next (s2.setLink i { k1 with busy := true, repairing := false, trying := k.cur - 4, fellBack := true })
        else .next s2
      else .next s1
  | _ => .next s

/-- The number of a virtual channel. -/
def channelCode (c : Channel) : Nat :=
  match c with
  | .req => 0
  | .rsp => 1
  | .wnot => 2
  | .kmsg => 3

/-- The key of a flow (R164): source, destination, channel. -/
def flowKey (f : DieFlit) : Nat := (f.src * 8 + f.dst) * 4 + channelCode f.chan

/-- The agent at the other end of a link (R11): Pavilion 6 and a die, or two dies. -/
def farEnd (i a : Nat) : Nat := if i < 6 then (if a = 6 then i else 6) else if a = i - 6 then (i + 1) % 6 else i - 6

/-- A flow that has carried nothing: its first flit has number 0, and it keeps its numbers until a package reset. DESIGN CHOICE, log entry
113. -/
def Flow.reset : Flow := { awaited := 0, early := [] }

/-- A flow. -/
def State.flow (s : State) (k : Nat) : Flow := sgetD s.flows k Flow.reset

/-- A flow changed. -/
def State.setFlow (s : State) (k : Nat) (f : Flow) : State := { s with flows := sput s.flows k f }

/-- A write notice's predecessors have all been applied at its destination (R356): of each other agent as many as its clock says. -/
def State.clockMet (s : State) (f : DieFlit) : Bool :=
  f.chan != .wnot || (List.range 7).all (fun a => a == f.dst || decide (f.clock.getD a 0 ≤ (s.flow (flowKey { f with src := a })).awaited))

/-- The flits that can be delivered are: each in its place in its flow, a write notice after its predecessors (R165, R356). -/
def State.settleFlows (s : State) (k : Nat) : State :=
  match k with
  | 0 => s
  | k + 1 =>
    match s.flows.findSome? (fun e => (e.2.early.find? (fun f => f.seq == e.2.awaited && s.clockMet f)).map (fun f => (e, f))) with
    | none => s
    | some (e, f) => (s.setFlow e.1 { e.2 with awaited := e.2.awaited + 1, early := e.2.early.erase f }).settleFlows k

/-- A flit at its destination (R165): kept until it can be delivered, or discarded as a duplicate. Its source need not send it again. -/
def Flow.arrive (f : Flow) (d : DieFlit) : Flow :=
  let f1 := { f with unacked := f.unacked.filter (fun x => x.seq != d.seq), resend := f.resend.filter (fun n => n != d.seq) }
  if d.seq < f.awaited || f.early.any (fun x => x.seq == d.seq) then f1 else { f1 with early := f.early ++ [d] }

/-- The source sends a flit: the next of its flow, or, after a change of route, the first of those that go again (R165). -/
def Flow.send (f : Flow) (d : DieFlit) : Option Flow :=
  match f.resend with
  | n :: rest => if d.seq = n && f.unacked.contains d then some { f with resend := rest } else none
  | [] => if d.seq = f.next then some { f with next := f.next + 1, unacked := f.unacked ++ [d] } else none

/-- A channel has a credit at the end of a link where an agent stands (R163): RSP always has. -/
def State.credit (s : State) (i a : Nat) (c : Channel) : Bool :=
  c == .rsp || decide (((s.link i).buffer.filter (fun f => f.1 == a && f.2.chan == c)).length < Config.credits i (channelCode c))

/-- The flits for which a test holds no longer stand at a hop: their credits go back (R163). -/
def State.freeCredits (s : State) (p : DieFlit → Bool) : State :=
  { s with links := s.links.map (fun k => { k with buffer := k.buffer.filter (fun f => !p f.2) }) }

/-- A flow takes the way of R164; on a new one, what has no acknowledgement goes again, ahead of any later flit (R165). -/
def State.takeRoute (s : State) (d : DieFlit) : State :=
  let f := s.flow (flowKey d)
  match s.way d.src d.dst with
  | none => s
  | some r =>
    if f.route = r then s
    else (s.freeCredits (fun x => flowKey x == flowKey d)).setFlow (flowKey d) { f with route := r, resend := f.unacked.map DieFlit.seq }

/-- A good flit received over a link of its flow's route (R163 to R165): its source sends it, or it stands at the hop before; at its
destination it joins its flow, and at another hop it takes a credit of its channel, without which it has not been sent. -/
def State.takeDieFlit (s0 : State) (i : Nat) (d : DieFlit) : State :=
  let s := s0.takeRoute d
  let f := s.flow (flowKey d)
  let j := f.route.idxOf i
  if f.route.length ≤ j then s
  else
    let a := (f.route.take (j + 1)).foldl (fun x l => farEnd l x) d.src
    let sent := if j = 0 then f.send d else if (s.link (f.route.getD (j - 1) 0)).buffer.any (fun x => x.2 == d) then some f else none
    match sent with
    | none => s
    | some f1 =>
      if j + 1 = f.route.length then
        let s1 := (s.freeCredits (fun x => x == d)).setFlow (flowKey d) (f1.arrive d)
        s1.settleFlows (s1.flows.map (fun e => e.2.early.length)).sum
      else if s.credit i a d.chan then
        let s1 := (s.freeCredits (fun x => x == d)).setFlow (flowKey d) f1
        s1.setLink i { s1.link i with buffer := (s1.link i).buffer ++ [(a, d)] }
      else s

/-- A flit that a link carries, counted in its window; the window's end is the next step (R169). -/
def State.countFlit (s : State) (i : Nat) : State :=
  let k := s.link i
  let s1 := s.setLink i { k with flits := k.flits + 1 }
  if k.flits + 1 = windowFlits then { s1 with agenda := s1.agenda ++ [.step (.replayWindow i)] } else s1

/-- DIE_FLIT_RECEIVE (R163, R165, R169): a flit that fails its CRC is counted and replayed, itself alone (DESIGN CHOICE, log entry
93); one that passes is delivered or goes on. A link that retrains or is DOWN carries none (R171). -/
def execDieFlitReceive (s : State) : Host.Outcome State Fault Refusal :=
  match s.input with
  | some (.dieFlitReceive i crcOk f) =>
    let k := s.link i
    if 12 ≤ i || k.busy || k.down then .next s
    else if crcOk then .next ((s.takeDieFlit i f).countFlit i)
    else
      .next ((s.setLink i { k with crcErr := (k.crcErr + 1) % 2 ^ 32, replay := (k.replay + 1) % 2 ^ 32, window := k.window + 1 }).countFlit i)
  | _ => .next s

/-- A link reset with its die (R166, R180): its block at the reset values, training at 32 GT/s and full width. Flits that stand at its
ends are not lost (R165). -/
def State.resetLink (s : State) (i : Nat) : State :=
  s.setLink i { LinkRegs.reset with busy := true, announce := true, down := (s.link i).down, buffer := (s.link i).buffer }

/-- Waits of instructions that wait, before they have taken effect, by their description (R176, R254): not those for an access or for
a die link on its way, nor what has been published or written at its home. DEDUCED, log entry 33. -/
def WaitKind.yields (k : WaitKind) (value : Word) : Bool :=
  match k with
  | .inst | .barrier _ _ _ _ | .slotRelease _ _ | .slotReady _ _ | .slotDrain _ _ | .port _ | .room _ | .rendezvous _ | .waitSet _ _ | .idle _ _
  | .task _ | .reconv _ | .saved _ | .quad | .acks _ | .copies | .send _ | .name _ => true
  | .advance _ _ => value != 1
  | .turn | .remote _ | .fetch _ | .requests | .dieLink _ _ | .multicast _ | .cxl => false

/-- A wait that LINK_DEGRADED and, in a tail, PREEMPT end, the lane executing its instruction again (R176, R254, R417): one that nothing
has ended yet, of an instruction that has had nothing performed elsewhere. -/
def Wait.interruptible (wt : Wait) : Bool := wt.kind.yields wt.value && wt.status.isNone && wt.acks.isEmpty

/-- LINK_DEGRADED can be taken by a lane now (R176, R424): it issues nothing, waits as above, or has yet to fetch its next instruction. -/
def Lane.degradable (ln : Lane) : Bool :=
  match ln.wait with
  | none => true
  | some wt =>
    match wt.kind with
    | .fetch _ => match ln.held with | some h => h.interruptible | none => true
    | _ => wt.interruptible

/-- A lane that stops waiting leaves the instance it had joined (R288), and no g destination waits for it (R247). -/
def Wave.withdraw (w : Wave) (l : Nat) : Wave :=
  { w with gWait := (w.gWait.map (fun e => { e with lanes := e.lanes.filter (fun j => j != l) })).filter (fun e => !e.lanes.isEmpty), insts := (w.insts.map (fun x => { x with arrived := x.arrived.filter (fun a => a.lane != l) })).filter (fun x => !x.arrived.isEmpty) }

/-- A lane whose wait for another package's Logen is interrupted keeps what it has asked for (R254, R386): log entry 33. -/
def Lane.park (ln : Lane) : Lane :=
  let wait := match ln.wait with | some wt => (match wt.kind with | .fetch _ => ln.held | _ => some wt) | none => none
  match wait with
  | none => { ln with held := none }
  | some wt =>
    match wt.kind with
    | .send _ | .name _ =>
      { ln with held := none, parked := { pc := ln.pc, inTrap := ln.inTrap, wait := wt } :: ln.parked.filter (fun q => q.inTrap != ln.inTrap) }
    | _ => { ln with held := none }

/-- The length of the unit at a lane's PC, for LEN (R42, R421), whatever links retrain. -/
def State.unitLen (s : State) (w : Wave) (ln : Lane) : Nat :=
  match ({ s with links := [] } : State).fetchHalf w true ln.pc.toNat with
  | .error _ => 4
  | .ok (h, _) => if !h.getLsbD 0 then 2 else if h.extractLsb' 1 6 = 0x3F then 8 else 4

/-- The first raised event whose trap can be taken now, and its lane (R176, R424): the lowest-numbered non-exited lane of the wave that
was named when it was raised, if that wave is resident. -/
def State.degradedLane (s : State) : Option (Nat × Nat × Word) :=
  s.linkCtl.raised.findSome? (fun e =>
    match s.wave e.1 with
    | some w =>
      match w.lanes with
      | (l, ln) :: _ => if w.st == .resident && ln.degradable then some (e.1, l, e.2) else none
      | [] => none
    | none => none)

/-- LINK_DEGRADED (R176): the merged events' one trap. -/
def execLinkDegraded (s : State) : Host.Outcome State Fault Refusal :=
  match s.degradedLane with
  | some (u, l, aux) =>
    match s.wave u with
    | some w =>
      let s0 := { s with linkCtl := { s.linkCtl with raised := s.linkCtl.raised.filter (fun e => e.1 != u) } }
      let s1 := (s0.setWave u (w.withdraw l)).modLane u l Lane.park
      .next (takeTrap s1 u l (Trap.mk 0x30 0 aux) false (match w.lane l with | some ln => s.unitLen w ln | none => 4))
    | none => .next s
  | none => .next s

/-- A full-line scrub (R182): zeros, and the mark cleared; only local HBM. -/
def State.writePoiscrub (s : State) (v : BitVec 64) : State :=
  let pa := bitsOf v.toNat 55 7 * 128
  if s.inHbm pa then (s.unpoison (lineOf (localOf pa))).storeHome (localOf pa) (List.replicate 128 0) else s

/-- POISCRUB (R182). -/
def execPoiscrub (s : State) : Host.Outcome State Fault Refusal :=
  match s.input with
  | some (.poiscrub v) => .next (s.writePoiscrub v)
  | _ => .next s

end Sys2Proof.Machine
end

