-- ==== Sys2Proof/Machine/Slots.lean ====
section
/-! DEFINITION. The tile table (R120 to R127), the TSYNC functions (R222 to R229), and lane copies (R230 to
R233). -/

namespace Sys2Proof.Machine

/-- R118. -/
def reasonPrivRange : Nat := 13
/-- R121. -/
def reasonScrRange : Nat := 14
/-- R124. -/
def reasonSlotOwner : Nat := 15
/-- R223. -/
def reasonSlotArg : Nat := 16
/-- R223. -/
def reasonNoCopy : Nat := 17

/-- The core that holds a block's scratchpad range (R120, R222). -/
def Block.slotCore (k : Block) : Nat := coreKey k.die k.core

/-- The first byte of a block's range on its core. -/
def Block.origin (k : Block) : Nat := k.scratchBase * 4096

/-- A slot. -/
def State.slot (s : State) (core i : Nat) : Slot := sgetD (s.core core).slots i Slot.reset

/-- The table with a slot replaced. -/
def State.setSlot (s : State) (core i : Nat) (x : Slot) : State :=
  s.modCore core (fun c => { c with slots := sput c.slots i x })

/-- Scratchpad bytes of a core. -/
def State.scratchRead (s : State) (core off n : Nat) : List Byte := zread (s.core core).scratch off n

/-- Scratchpad bytes stored. -/
def State.scratchWrite (s : State) (core off : Nat) (bs : List Byte) : State :=
  s.modCore core (fun c => { c with scratch := zwrite c.scratch off bs })

/-- An EMPTY slot: every field but GEN at its reset value (R126). -/
def Slot.empty (x : Slot) : Slot := { Slot.reset with gen := x.gen }

/-- GEN + 1, modulo 256. -/
def Slot.bump (x : Slot) : Slot := { x with gen := (x.gen + 1) % 256 }

/-- The status a lane in TWAIT takes when its slot is poisoned. -/
def poisonStatus : Nat := 32

/-- TRAPAUX of TILE_POISON (R227). -/
def tilePoisonAux (i cause : Nat) : Word := BitVec.ofNat 32 (i * 256 + cause)

/-- TILE_POISON of a slot. -/
def tilePoison (i : Nat) (x : Slot) : Trap := Trap.mk 0x20 0 (tilePoisonAux i x.pcause)

/-- The waiters of a slot released with a status (R126). -/
def State.releaseSlot (s : State) (core i status : Nat) (v : Word) : State :=
  s.release (fun k => k == .slotRelease core i) status v []

/-- A lane that waits for something of a slot: its release, or that it can be read (R127, R227). -/
def WaitKind.onSlot (k : WaitKind) (core i : Nat) : Bool := k == .slotRelease core i || k == .slotReady core i || k == .slotDrain core i

/-- A slot poisoned for a cause (R126, R227): whoever waits for it traps, whatever becomes of the slot (R127). -/
def State.poisonSlot (s : State) (core i cause : Nat) : State :=
  (s.setSlot core i { s.slot core i with st := .poisoned, pcause := cause }).release (fun k => k.onSlot core i) poisonStatus
    (tilePoisonAux i cause) []

/-- TILE_POISON of a lane that waited for its slot to be READY, or READY or DRAINING, while the slot was poisoned (R127). -/
def Lane.slotLost (ln : Lane) : Option Trap :=
  match ln.wait with
  | none => none
  | some wt =>
    match wt.kind with
    | .slotReady _ _ | .slotDrain _ _ => if wt.status = some poisonStatus then some (Trap.mk 0x20 0 wt.value) else none
    | _ => none

/-- Whether a transfer that captured a GEN would be counted (R125). -/
def State.counts (s : State) (core i gen : Nat) (inbound : Bool) : Bool :=
  let x := s.slot core i
  x.gen == gen && (if inbound then x.st == .filling else x.st == .draining)

/-- Bytes of a transfer counted into its slot (R125, R126). -/
def State.countBytes (s : State) (core i gen : Nat) (inbound : Bool) (n : Nat) : State :=
  if s.counts core i gen inbound then
    let x := s.slot core i
    let arrived := x.arrived + n
    if arrived < x.expected then s.setSlot core i { x with arrived := arrived }
    else if arrived = x.expected then
      (s.setSlot core i (if inbound then { x with st := .ready, arrived := arrived } else x.empty)).releaseSlot core i 0 0
    else s.poisonSlot core i 0
  else s

/-- A transfer that would have been counted fails: its slot is poisoned (R126, R232, R240). -/
def State.failTransfer (s : State) (core i gen : Nat) (inbound : Bool) (cause : Nat) : State :=
  if s.counts core i gen inbound then s.poisonSlot core i cause else s

/-- The fields TINIT sets (R126). DEDUCED, log entry 29. -/
def Slot.init (x : Slot) (outbound : Bool) (base size expected asid : Nat) : Slot :=
  if expected = 0 then
    if outbound then x.empty
    else { x with st := .ready, base := base, size := size, expected := 0, arrived := 0, pcause := 0, asid := asid }
  else
    { x with st := if outbound then .draining else .filling, base := base, size := size, expected := expected,
             arrived := 0, pcause := 0, asid := asid }

/-- TINIT's rows of R126. -/
def State.initSlot (s : State) (core i : Nat) (outbound : Bool) (base size expected asid : Nat) : State :=
  let x := s.slot core i
  match x.st with
  | .empty => s.setSlot core i (x.init outbound base size expected asid)
  | .ready =>
    if outbound then
      s.setSlot core i { x.bump with st := .draining, base := base, size := size, expected := expected, arrived := 0,
                                     pcause := 0, asid := asid }
    else (s.setSlot core i (x.bump.init outbound base size expected asid)).releaseSlot core i 7 0
  | .filling | .draining | .poisoned =>
    (s.setSlot core i (x.bump.init outbound base size expected asid)).releaseSlot core i 7 0

/-- PROT of a slot or scratch check, with the offset it concerns. DEDUCED, log entry 30. -/
def slotProt (w : Wave) (ln : Lane) (write : Bool) (va reason : Nat) : Trap := protFault (laneAcc w ln write) va 0 reason

/-- A slot word's must-be-zero bits (R223). -/
def slotArgBad (a : Word) : Bool := (a &&& 0xFFFFFEC0) != 0

/-- A slot that belongs to another context (R124). -/
def Slot.foreign (x : Slot) (asid : Nat) : Bool := x.st != .empty && x.asid != asid

/-- A lane whose wait has been answered. -/
def Lane.released (ln : Lane) : Bool := match ln.wait with | some wt => wt.status.isSome | none => false

/-- A TSYNC function (R223, R225): the slot word, SLOTOWNER unless it is TSTAT, then the function on the slot; a lane whose wait has been
answered has passed the checks (R227). -/
def tsync (s : State) (a : Opd) (owner : Bool)
    (f : State → Focus → Wave → Nat → Lane → Block → Nat → Slot → State × Out) : State :=
  runSeen s (fun s' w l ln =>
    match s.focus, sget s'.blocks w.block with
    | some fo, some k =>
      let v := readOpd w l ln a
      let i := wbits v 5 0
      let x := s'.slot k.slotCore i
      if ln.released then f s' fo w l ln k i x
      else if slotArgBad v then (s', .trap (slotProt w ln false 0 reasonSlotArg) false)
      else if owner && x.foreign w.asid then (s', .trap (slotProt w ln false 0 reasonSlotOwner) false)
      else f s' fo w l ln k i x
    | _, _ => (s', .set))

/-- TINIT (R226). -/
def execTinit (d a b : Opd) (s : State) : Host.Outcome State Fault Refusal :=
  .next (tsync s a true (fun s' _ w l ln k i _ =>
    let base := (readOpd w l ln b).toNat
    let odd := readOpd w l ln (opdPlus b 1)
    let size := wbits odd 11 0
    let expected := wbits odd 31 12
    if base % 256 != 0 then (s', .trap (Trap.mk 0x12 base 0) false)
    else if size = 0 || 2048 < size || k.scratchBytes < base + 256 * size || 256 * size < expected then
      (s', .trap (slotProt w ln false base reasonScrRange) false)
    else
      let s1 := s'.initSlot k.slotCore i ((readOpd w l ln a).getLsbD 8) ((k.origin + base) / 256) size expected w.asid
      (s1, .done (some d) [BitVec.ofNat 32 (s1.slot k.slotCore i).gen] 0)))

/-- TWAIT (R227). -/
def execTwait (d a : Opd) (s : State) : Host.Outcome State Fault Refusal :=
  .next (s.settled (tsync s a true (fun s' _ _ _ ln k i x =>
    match ln.wait with
    | some wt =>
      match wt.status with
      | none => (s', .hold)
      | some st =>
        if st = poisonStatus then (s', .trap (Trap.mk 0x20 0 wt.value) false)
        else (s', .done (some d) [BitVec.ofNat 32 st] 0)
    | none =>
      match x.st with
      | .ready | .empty => (s', .done (some d) [0] 0)
      | .poisoned => (s', .trap (tilePoison i x) false)
      | .filling | .draining => (s', .wait (.slotRelease k.slotCore i)))) d 1)

/-- The lanes waiting in TWAIT on a slot (R123). -/
def State.slotWaiters (s : State) (core i : Nat) : Nat :=
  min 4095 (s.waves.foldl (fun n e => e.2.lanes.foldl (fun m x => match x.2.wait with
    | some wt => if wt.kind == .slotRelease core i && wt.status.isNone then m + 1 else m
    | none => m) n) 0)

/-- The code of a slot's state (R123). -/
def slotStateCode (st : SlotState) : Nat :=
  match st with
  | .empty => 0
  | .filling => 1
  | .ready => 2
  | .draining => 3
  | .poisoned => 4

/-- The map of R123 as a number; another context sees STATE alone (R228). -/
def slotMap (x : Slot) (waiters : Nat) (mine : Bool) : Nat :=
  if mine then
    x.base + x.size * 2 ^ 12 + slotStateCode x.st * 2 ^ 24 + x.expected * 2 ^ 32 + x.pcause * 2 ^ 52 + x.arrived * 2 ^ 64 +
      x.gen * 2 ^ 88 + waiters * 2 ^ 100 + x.asid * 2 ^ 112
  else slotStateCode x.st * 2 ^ 24

/-- TSTAT (R228). -/
def execTstat (d a : Opd) (s : State) : Host.Outcome State Fault Refusal :=
  .next (tsync s a false (fun s' _ w _ _ k i x =>
    let v := slotMap x (s'.slotWaiters k.slotCore i) (!x.foreign w.asid)
    (s', .done (some d) [BitVec.ofNat 32 v, BitVec.ofNat 32 (v / 2 ^ 32), BitVec.ofNat 32 (v / 2 ^ 64),
      BitVec.ofNat 32 (v / 2 ^ 96)] 0)))

/-- TREADY (R229). -/
def execTready (d a : Opd) (s : State) : Host.Outcome State Fault Refusal :=
  .next (tsync s a true (fun s' _ _ _ _ k i x =>
    match x.st with
    | .filling | .draining =>
      ((s'.setSlot k.slotCore i { x with st := .ready }).releaseSlot k.slotCore i 0 0, .done (some d) [0] 0)
    | .empty | .ready | .poisoned => (s', .done (some d) [5] 0)))

/-- TEMPTY (R126, R229). -/
def execTempty (d a : Opd) (s : State) : Host.Outcome State Fault Refusal :=
  .next (tsync s a true (fun s' _ _ _ _ k i x =>
    ((s'.setSlot k.slotCore i x.bump.empty).releaseSlot k.slotCore i 7 0, .done (some d) [0] 0)))

/-- The bytes of a lane copy (R40). -/
def copyBytes (c : CopySize) : Nat := match c with | .s4 => 4 | .s8 => 8 | .s16 => 16

/-- An issued copy put in flight on the slot core. -/
def State.addCopy (s : State) (core : Nat) (c : LaneCopy) : State :=
  s.modCore core (fun x => { x with copies := x.copies ++ [c] })

/-- The memory requests of a core that are outstanding (R14): accesses to other packages, multicasts, lane copies, accesses that CXL has
yet to answer. -/
def State.requestsOf (s : State) (core : Nat) : Nat :=
  let mine (u : Nat) : Bool := match s.wave u with | some w => w.coreKey == core | none => false
  (s.fabric.out.filter (fun e => e.2.client.isNone && mine e.2.wave)).length + (s.fabric.casts.filter (fun e => mine e.2.wave)).length +
    s.cores.foldl (fun n e => n + (e.2.copies.filter (fun c => mine c.wave)).length) 0 +
    s.waves.foldl (fun n e => if e.2.coreKey = core then
      n + (e.2.lanes.filter (fun x => match x.2.wait with | some wt => wt.kind == .cxl && wt.status.isNone | none => false)).length else n) 0

/-- A core can make another memory request (R14). -/
def State.requestRoom (s : State) (core : Nat) : Bool := decide (s.requestsOf core < 1536)

/-- LCP (R230, R231): the checks in order; an outbound copy waits for READY or DRAINING (R127), and reads the
scratchpad at issue (R232). DEDUCED, log entry 31. -/
def execLcp (sa g : Opd) (size : CopySize) (out : Bool) (slot : BitVec 6) (ordered : Bool) (s : State) :
    Host.Outcome State Fault Refusal :=
  .next (runSeen s (fun s' w l ln =>
    match s.focus, sget s'.blocks w.block with
    | some fo, some k =>
      let n := copyBytes size
      let core := k.slotCore
      let i := slot.toNat
      let x := s'.slot core i
      let sc := (readOpd w l ln sa).toNat
      let va := (readPair w l ln g).toNat
      let acc := laneAcc w ln out
      match ln.slotLost with
      | some t => (s', .trap t false)
      | none =>
      if x.foreign w.asid then (s', .trap (slotProt w ln false 0 reasonSlotOwner) false)
      else if sc % n != 0 then (s', .trap (Trap.mk 0x12 sc 0) false)
      else if va % n != 0 then (s', .trap (Trap.mk 0x12 va 0) false)
      else if k.scratchBytes < sc + n then (s', .trap (slotProt w ln (!out) sc reasonScrRange) false)
      else
        match s'.translate acc va with
        | .error t => (s', trapOrLink t)
        | .ok t =>
          if t.kind == .mmio then (s', .trap (protFault acc va t.level reasonNoCopy) false)
          else if !s'.requestRoom w.coreKey then (s', .wait .requests)
          else
            let phys := k.origin + sc
            let c : LaneCopy :=
              { wave := fo.wave, lane := l, launch := k.launch, inbound := !out, va := va, pa := t.pa,
                remote := t.kind == .remote, asid := w.asid, tgen := (s'.ctx w.asid).gen, scratch := phys, size := n, slot := i,
                gen := x.gen, ordered := ordered, issue := s.ticket, data := if out then s'.scratchRead core phys n else
                  if t.kind == .info then (List.range n).map (fun j => (s'.infoPage.getD []).getD (t.pa + j) 0) else [] }
            if out then
              match x.st with
              | .ready | .draining => ((s'.addCopy core c).noteTlb w.asid t, .done none [] 0)
              | .poisoned => (s', .trap (tilePoison i x) false)
              | .filling | .empty => (s', .wait (.slotDrain core i))
            else ((s'.addCopy core c).noteTlb w.asid t, .done none [] 0)
    | _, _ => (s', .set)))

/-- A lane has copies in flight. -/
def State.copying (s : State) (u l : Nat) : Bool := s.cores.any (fun e => e.2.copies.any (fun c => c.wave == u && c.lane == l))

/-- A copy that is counted only after earlier transfers of its lane, wherever they count (R128). -/
def State.copyHeld (s : State) (c : LaneCopy) : Bool :=
  c.ordered && s.cores.any (fun e => e.2.copies.any (fun d => d.wave == c.wave && d.lane == c.lane && decide (d.issue < c.issue)))

/-- The bytes of a line as outbound copies of one instruction give them, by offset: of the highest-numbered lane that gives one (R137,
R233). -/
def copyByte (cs : List LaneCopy) (i : Nat) : Option Byte :=
  cs.reverse.findSome? (fun d => if localOf d.pa % 128 ≤ i && i < localOf d.pa % 128 + d.size then d.data[i - localOf d.pa % 128]? else none)

/-- The copies that complete with one (R182, R233): where the outbound copies of its instruction cover its line, they are one line
operation. That an outbound one is meant is DEDUCED, log entry 97. -/
def State.mergedCopies (s : State) (core : Nat) (c : LaneCopy) : List LaneCopy :=
  let cs := (s.core core).copies.filter (fun d => d.issue == c.issue && !d.inbound && d.pa / 128 == c.pa / 128)
  if !c.inbound && (List.range 128).all (fun i => (copyByte cs i).isSome) then cs else [c]

/-- Where a copy goes. -/
def LaneCopy.target (c : LaneCopy) : Target :=
  Target.mk (if c.remote then .remote else if localOf c.pa < hostBase then .hbm else .host) c.pa none

/-- The access of a copy. -/
def LaneCopy.acc (c : LaneCopy) : Acc := Acc.mk c.asid false (!c.inbound) false false

/-- What stops a copy at its target in this package (R232, R426): a link on its way, the host. -/
def State.copyTrap (s : State) (c : LaneCopy) : Option Trap :=
  if !s.reachable c.target then some (s.linkTrap c.target)
  else (s.hostFault (localOf c.pa)).map (hostTrap c.va)

/-- An inbound copy's bytes (R232): what was read at issue, or what stands at its target. -/
def State.copyRead (s : State) (c : LaneCopy) (rem : List Byte) : Except Trap (List Byte) :=
  if !c.data.isEmpty then .ok c.data
  else if c.remote then if rem.length < c.size then .error (s.needs c.acc c.va c.target c.size .load [] 0) else .ok (rem.take c.size)
  else
    match s.copyTrap c with
    | some t => .error t
    | none => if s.poisoned (localOf c.pa) c.size then .error (s.poisonIn c.va (localOf c.pa) c.size) else .ok (s.home (localOf c.pa) c.size)

/-- An outbound line operation (R182, R232): bytes from an address on. -/
def State.copyWrite (s : State) (c : LaneCopy) (pa : Nat) (bs : List Byte) : Except Trap State :=
  if c.remote then
    match s.remoteOp c.acc c.va { c.target with pa := pa } bs.length .store bs 0 with
    | .error t => .error t
    | .ok r => .ok r.2
  else
    match s.copyTrap c with
    | some t => .error t
    | none =>
      match s.writeAt c.va bs (localOf pa) with
      | .error t => .error t
      | .ok r => .ok r.2

/-- The copies that complete together, performed at their target (R232). -/
def State.moveCopies (s : State) (core : Nat) (c : LaneCopy) (cs : List LaneCopy) (rem : List Byte) : Except Trap State :=
  if c.inbound then
    match s.copyRead c rem with
    | .error t => .error t
    | .ok bs => .ok ((s.receive (localOf c.pa)).scratchWrite core c.scratch bs)
  else if cs.length ≤ 1 then s.copyWrite c c.pa c.data
  else s.copyWrite c (c.pa / 128 * 128) ((List.range 128).map (fun i => (copyByte cs i).getD 0))

/-- Copies that have ended leave the list, and each counts its bytes, or fails late with a cause (R125, R232). -/
def State.endCopies (s : State) (core : Nat) (cs : List LaneCopy) (bad : Option Nat) : State :=
  let s1 := s.modCore core (fun x => { x with copies := x.copies.filter (fun d => !cs.contains d) })
  cs.foldl (fun t c => match bad with
    | some cause => t.failTransfer core c.slot c.gen c.inbound cause
    | none => t.countBytes core c.slot c.gen c.inbound c.size) s1

/-- The n-th copy in flight on a core and what merges with it completes, where it can (R128, R232, R233), at the scratchpad bytes that
its issue named, be its block over or saved by then. DESIGN CHOICE, log entry 110. -/
def State.copyStep (s : State) (core n : Nat) : Option State :=
  match (s.core core).copies[n]? with
  | none => none
  | some c =>
    let cs := s.mergedCopies core c
    if cs.any s.copyHeld then none
    else
      s.engine (.copy c.issue ((cs.headD c).lane)) c.wave c.asid (match s.wave c.wave with | some w => w.die | none => core / 64) (fun t rem =>
        match t.moveCopies core c cs rem with
        | .ok t1 => .ok (t1.endCopies core cs none)
        | .error e => if e.cause = 0 then .error e else .ok ((t.noteBad e).endCopies core cs (some e.cause)))

/-- LANE_COPY_COMPLETE (R125, R128, R232). -/
def execLaneCopyComplete (s : State) : Host.Outcome State Fault Refusal :=
  match s.input with
  | some (.laneCopyComplete core n) => .next ((s.copyStep core n).getD s)
  | _ => .next s

end Sys2Proof.Machine
end

