-- ==== Sys2Proof/Machine/Blocks.lean ====
section
/-! DEFINITION. Room on a core and placement (R368, R413, R414), the end of a wave (R365), saving and losing a block
(R415, R427, R428, R432), and the resets of a core, a Kiln and an uncore (R432 to R434). -/

namespace Sys2Proof.Machine

/-- The least power of two that is not below n. -/
def pow2Ceil (n : Nat) : Nat := if n ≤ 1 then n else 2 ^ (Nat.log2 (n - 1) + 1)

/-- The number of enabled cores of a die (R17, R22). -/
def State.coreCount (s : State) (die : Nat) : Nat :=
  ((List.range 36).filter (fun p => bitOf (s.harvest.getD die 0) p)).length

/-- The waves on a core. -/
def State.wavesOn (s : State) (die core : Nat) : Sparse Wave :=
  s.waves.filter (fun e => e.2.onCore && e.2.die == die && e.2.core == core)

/-- The size of a main-file range in units of 8 registers (R413). -/
def mainUnits (regs : Nat) : Nat := pow2Ceil ((regs + 7) / 8)

/-- Whether two ranges share a unit. -/
def overlaps (a n b m : Nat) : Bool := decide (a < b + m) && decide (b < a + n)

/-- The lowest aligned range of a size in a space that no taken range overlaps (R413). -/
def buddyFind (size total : Nat) (taken : List (Nat × Nat)) : Option Nat :=
  if size = 0 then some 0
  else ((List.range (total / size)).map (fun i => i * size)).find? (fun b => !taken.any (fun r => overlaps b size r.1 r.2))

/-- The main-file ranges taken on a core. -/
def mainTaken (ws : Sparse Wave) : List (Nat × Nat) := ws.map (fun e => (e.2.mainBase, mainUnits e.2.regs))

/-- The partition a wave goes to: the one with the fewest waves, the lowest on ties (R413); none when all are
full. -/
def freePart (ws : Sparse Wave) : Option Nat :=
  let count (p : Nat) : Nat := (ws.filter (fun e => e.2.part == p)).length
  let best := (List.range 12).foldl (fun b p => if count p < count b then p else b) 0
  if count best < 8 then some best else none

/-- The physical tiles a wave takes: any free ones, the lowest (R413). -/
def freeTiles (ws : Sparse Wave) (n : Nat) : Option (List Nat) :=
  let free := (List.range 8).filter (fun t => !ws.any (fun e => e.2.tileSlots.contains t))
  if n ≤ free.length then some (free.take n) else none

/-- Whether a wave fits a core, and where (R368, R413). -/
def State.fits (s : State) (w : Wave) (die core : Nat) : Option (Nat × Nat × List Nat) :=
  let ws := s.wavesOn die core
  match freePart ws, buddyFind (mainUnits w.regs) 1024 (mainTaken ws), freeTiles ws w.tileCount with
  | some p, some b, some ts => some (p, b, ts)
  | _, _, _ => none

/-- Where Logen takes a private area of 32·P bytes from the interleaved pool (R117): a place that the manual leaves open, within the pool
and outside the other waves' areas; none where the pool has no such place left. DESIGN CHOICE, log entry 8. -/
def State.newArea (s : State) (bytes : Nat) : Option Nat :=
  let taken := s.waves.map (fun e => (e.2.area, 32 * e.2.privBytes))
  let any := Config.freeNat s.freeCtr 6 % ((s.poolEnd - bytes) / 128 + 1) * 128
  (any :: 0 :: taken.map (fun r => (r.1 + r.2 + 127) / 128 * 128)).find? (fun a =>
    decide (a + bytes ≤ s.poolEnd) && !taken.any (fun r => overlaps a bytes r.1 r.2))

/-- A wave put on a core where it fits: its private area (R117) and its start values of g4 and g5 the first time (R371), L1's
shared class and the instruction cache cleared before it issues (R116, R366); a resumed lane executes its instruction again. A
member that moves onto a core of its group makes it black, and one that comes to lie before the core of its spawner makes that one black
(R376). -/
def State.putWave (s : State) (u : Nat) (w : Wave) (die core part base area : Nat) (ts : List Nat) : State :=
  let w1 := { w with die := die, core := core, part := part, mainBase := base, tileSlots := ts, st := .resident, placed := s.ticket, started := true,
                     idle := false, area := area, lanes := w.lanes.map (fun x => (x.1, { x.2 with wait := none })) }
  let w2 := if w.started then w1 else w1.setG 4 [BitVec.ofNat 32 die, BitVec.ofNat 32 core]
  let s1 := ((({ s with ticket := s.ticket + 1 } : State).setWave u w2).dropL1 (coreKey die core)).modCore (coreKey die core)
    (fun c => { c with icache := [] })
  match w.group with
  | some g =>
    if w.started then (if w.coreKey != coreKey die core then s1.blacken g (coreKey die core) else s1)
    else
      match w.spawner with
      | some c => if coreKey die core < c then s1.blacken g c else s1
      | none => s1
  | none => s1

/-- The private area of a wave that is placed: its own, or a new one the first time (R117). -/
def State.areaFor (s : State) (w : Wave) : Option Nat := if w.started then some w.area else s.newArea (32 * w.privBytes)

/-- Waves placed one after another, wave 0 on the home core, which comes first, each other one on the first core of a list where it
fits (R120, R368); none when one fits nowhere. -/
def State.putWaves (s : State) (us : List Nat) (die : Nat) (cores : List Nat) : Option State :=
  match us with
  | [] => some s
  | u :: rest =>
    match s.wave u with
    | none => s.putWaves rest die cores
    | some w =>
      match (if w.wv = 0 then cores.take 1 else cores).findSome? (fun c => (s.fits w die c).map (fun r => (c, r))), s.areaFor w with
      | some (c, p, b, ts), some area => (s.putWave u w die c p b area ts).putWaves rest die cores
      | _, _ => none

/-- The home core, then the other enabled cores of its quad in logical order (R368). -/
def State.quadCores (s : State) (die home : Nat) : List Nat :=
  home :: (List.range (s.coreCount die)).filter (fun c => c != home && s.quadOf die c == s.quadOf die home)

/-- The scratchpad ranges taken on a core, in 4 KiB units. -/
def State.scratchTaken (s : State) (die core : Nat) : List (Nat × Nat) :=
  (s.blocks.filter (fun e => e.2.placed && e.2.die == die && e.2.core == core)).map
    (fun e => (e.2.scratchBase, pow2Ceil (e.2.scratchBytes / 4096)))

/-- The scratchpad bytes of a range set to a block's image, or to zero before its first wave issues (R120, R428). -/
def State.fillScratch (s : State) (core base bytes : Nat) (image : Sparse Byte) : State :=
  s.modCore core (fun c =>
    let rest := c.scratch.filter (fun e => decide (e.1 < base) || decide (base + bytes ≤ e.1))
    { c with scratch := image.foldl (fun m e => zput m (base + e.1) e.2) rest })

/-- A block placed with a home core: whole, or not at all (R368). DEDUCED, log entry 72. -/
def State.placeBlock (s : State) (k die core : Nat) : Option State :=
  match sget s.blocks k with
  | none => none
  | some b =>
    match buddyFind (pow2Ceil (b.scratchBytes / 4096)) 128 (s.scratchTaken die core) with
    | none => none
    | some base =>
      let b' := { b with die := die, core := core, scratchBase := base, placed := true, image := [] }
      let s1 := { s with blocks := sput s.blocks k b' }
      match s1.putWaves b.waves die (s1.quadCores die core) with
      | none => none
      | some s2 => some (s2.fillScratch (coreKey die core) (base * 4096) b.scratchBytes b.image)

/-- Whether a block of equal waves fits an empty quad with two enabled cores (R370). -/
def fitsEmptyQuad (waves regs tiles scratch : Nat) : Bool :=
  let byRegs := if mainUnits regs = 0 then 96 else 1024 / mainUnits regs
  let byTiles := if tiles = 0 then 96 else 8 / tiles
  decide (waves ≤ 2 * min 96 (min byRegs byTiles)) && decide (scratch ≤ 128)

/-- A block leaves the package when its last wave has gone: its launch counts it (R409). -/
def State.retireBlock (s : State) (k : Nat) (lost : Bool) : State :=
  match sget s.blocks k with
  | none => s
  | some b =>
    let s1 := { s with blocks := sdel s.blocks k, runQueue := s.runQueue.filter (fun e => e.block != k) }
    match b.launch with
    | none => s1
    | some n =>
      { s1 with launches := smod s1.launches n (fun x =>
          { x with ended := if lost then x.ended else x.ended + 1, lost := x.lost || lost }) }

/-- The WAVE object of a wave that has gone, lost to a reset or not: signalled, and freed unless its handle was given out (R390, R392,
R400, R432). -/
def State.endWaveObj (s : State) (idx u : Nat) (lost : Bool) : State :=
  match (s.obj idx).body with
  | some (.wave v _ shown _) =>
    if v = u then
      if shown then (s.setBody idx (.wave v true true lost)).signalled idx none else s.freeObj idx
    else s
  | _ => s

/-- The RUNNING task of a wave gets its outcome (R341). -/
def State.taskWaveEnds (s : State) (u state : Nat) : State :=
  { s with setters := s.setters.map (fun t => { t with running := t.running.map (fun r =>
      if r.wave == some u && r.outcome.isNone then { r with outcome := some (state, 0, 0, 0) } else r) }) }

/-- A wave whose last lane has exited ends (R365, R415). -/
def State.endWave (s : State) (u : Nat) : State :=
  match s.wave u with
  | none => s
  | some w =>
    let s1 := ({ s with waves := sdel s.waves u } : State).modBlock w.block (fun b => { b with waves := b.waves.filter (fun v => v != u) })
    let s2 := (s1.endWaveObj w.obj u false).taskWaveEnds u 4
    match sget s2.blocks w.block with
    | some b => if b.waves.isEmpty then s2.retireBlock w.block false else s2
    | none => s2

/-- A wave whose last lane has exited and whose stores and atomics have all been performed (R365); one that is being saved is saved
first (R415). -/
def State.waveOver (s : State) (u : Nat) (w : Wave) : Bool :=
  w.lanes.isEmpty && w.onCore && w.st != .saving && !s.fabric.out.any (fun e => e.2.client.isNone && e.2.wave == u && homeWrites e.2.op)

/-- WAVE_END (R365, R415). -/
def execWaveEnd (s : State) : Host.Outcome State Fault Refusal :=
  match s.input with
  | some (.waveEnd u) =>
    match s.wave u with
    | some w => if s.waveOver u w then .next (s.endWave u) else .next s
    | none => .next s
  | _ => .next s

/-- A block whose waves are lost to a reset (R432): nothing is released, its waves' objects are signalled, a task's
wave ends its task RESET_LOST_EXECUTION. -/
def State.loseBlock (s : State) (k : Nat) : State :=
  match sget s.blocks k with
  | none => s
  | some b =>
    let s1 := b.waves.foldl (fun t u =>
      match t.wave u with
      | none => t
      | some w => (({ t with waves := sdel t.waves u } : State).endWaveObj w.obj u true).taskWaveEnds u 7) s
    s1.retireBlock k true

/-- A bank that restarts when its lane resumes: b and e values are gone (R252, R427). -/
def Bank.toRestart (k : Bank) : Bank :=
  { k with b := [], e0 := e0Marker, e1 := e1Marker, tail := 0, counted := false, restart := true, expect := 0 }

/-- A lane in its wave's image (R427, R428): in a body it restarts; waiting in a tail it keeps its b values and
executes its instruction again; in a handler its user bank is kept unless RESUME is 10. A wait in KIDLE stands in the image until the
wave resumes (R375, R376). -/
def Lane.save (ln : Lane) : Lane :=
  let user := if ln.inTrap && wbits ln.privState 28 27 = 2 then ln.user.toRestart else ln.user
  let ln1 := { ln.park with user := user, wait := ln.wait.filter (fun wt => match wt.kind with | .idle _ _ => true | _ => false), split := [], late := none }
  if ln.bank.tail = 0 then { ln1.setBank ln.bank.toRestart with pc := ln.bank.restartPc } else ln1

/-- Whether a lane of a SAVING block has stopped (R254, R417): in a body, or in a tail where it waits in an instruction that waits and
has not taken effect. -/
def Lane.stopped (ln : Lane) : Bool := ln.bank.tail == 0 || (match ln.wait with | some wt => wt.interruptible | none => false)

/-- Every lane of a block has stopped. -/
def State.blockStopped (s : State) (k : Nat) : Bool :=
  s.waves.all (fun e => e.2.block != k || e.2.lanes.all (fun x => x.2.stopped))

/-- A lane waits in KIDLE (R375). -/
def Lane.inIdle (ln : Lane) : Bool := match ln.wait with | some wt => (match wt.kind with | .idle _ _ => true | _ => false) | none => false

/-- The image of a wave (R415, R427): its slot and tiles are free, open instances are dissolved, and its dirty private sectors have
been written back (R119). -/
def Wave.image (w : Wave) : Wave :=
  { w with st := .saved, tileSlots := [], insts := [], idle := w.lanes.all (fun x => x.2.inIdle), privDirty := [], gWait := [],
           lanes := w.lanes.map (fun x => (x.1, x.2.save)) }

/-- What the lanes of some waves have outstanding on other packages is no one's any more (R254, R432). -/
def State.dropRequests (s : State) (p : Nat → Bool) : State :=
  let orphan (r : OutReq) : OutReq := if r.client.isNone && p r.wave then { r with lanes := [] } else r
  let out : Sparse OutReq := s.fabric.out.map (fun e => (e.1, orphan e.2))
  { s with fabric := { s.fabric with out := out, casts := s.fabric.casts.filter (fun e => !p e.2.wave) } }

/-- The dirty private sectors of some waves written back from L1 (R115, R119). -/
def State.writeBackWaves (s : State) (us : List Nat) : State :=
  us.foldl (fun t u => match t.wave u with
    | some w => w.privDirty.foldl (fun v sec => v.writeBackPriv u sec) t
    | none => t) s

/-- A block's image written (R415, R427): slots, ranges and tiles are free, open instances are dissolved. -/
def State.saveBlock (s : State) (k : Nat) : State :=
  match sget s.blocks k with
  | none => s
  | some b =>
    let image := ((s.core b.slotCore).scratch.filter (fun e => decide (b.origin ≤ e.1) && decide (e.1 < b.origin + b.scratchBytes))).map
      (fun e => (e.1 - b.origin, e.2))
    let s0 := s.writeBackWaves b.waves
    let s1 := { s0 with
      waves := s0.waves.map (fun (e : Nat × Wave) => if e.2.block = k then (e.1, e.2.image) else e),
      blocks := sput s.blocks k { b with placed := false, image := image, quadInsts := [] } }
    (s1.dropRequests (fun u => b.waves.contains u)).release (fun w => w == WaitKind.saved k) 0 0 []

/-- WAVE_SAVED (R415). -/
def execWaveSaved (s : State) : Host.Outcome State Fault Refusal :=
  match s.input with
  | some (.waveSaved k) =>
    if s.waves.any (fun e => e.2.block == k && e.2.st == .saving) && s.blockStopped k then .next (s.saveBlock k) else .next s
  | _ => .next s

/-- The waves of a range moved into the lowest free ranges of their sizes outside it and outside others that are wanted, if all find one
(R414). -/
def State.compact (s : State) (die core : Nat) (wanted : List (Nat × Nat)) (us : List Nat) : Option State :=
  match us with
  | [] => some s
  | u :: rest =>
    match s.wave u with
    | none => s.compact die core wanted rest
    | some w =>
      match buddyFind (mainUnits w.regs) 1024 (wanted ++ mainTaken (s.wavesOn die core)) with
      | none => none
      | some b => (s.setWave u { w with mainBase := b, st := .moving }).compact die core wanted rest

/-- The waves of a core whose ranges a range overlaps. -/
def rangeWaves (size base : Nat) (ws : Sparse Wave) : Sparse Wave :=
  ws.filter (fun e => overlaps base size e.2.mainBase (mainUnits e.2.regs))

/-- The compactor's move for a size (R414): of the ranges that it can empty, the lowest of those that the fewest moves empty; free ranges
that the same block will take stay free. -/
def State.compactBest (s : State) (die core size : Nat) (ws : Sparse Wave) (keep : List (Nat × Nat)) : Option (Nat × State) :=
  ((List.range (1024 / max size 1)).map (fun i => i * size)).foldl (fun best b =>
    let hit := rangeWaves size b ws
    let fewer := match best with | none => true | some x => decide (hit.length < x.1)
    if fewer && !keep.any (fun r => overlaps b size r.1 r.2) && hit.all (fun e => decide (mainUnits e.2.regs ≤ size) && e.2.st == .resident) then
      (match s.compact die core ((b, size) :: keep) (skeys hit) with
       | some t => some (hit.length, t)
       | none => best)
    else best) none

/-- What waits for room, as the compactor sees it (R411, R414): the dies allowed, the waves of its block, which are equal, and the
main-file registers and tiles of each. -/
structure Wanted where
  dies : Nat
  waves : Nat
  regs : Nat
  tiles : Nat
  deriving DecidableEq, Repr

/-- What waits for room, in the order of waiting. -/
def State.roomWanted (s : State) : List Wanted :=
  s.runQueue.filterMap (fun e => (sget s.blocks e.block).bind (fun b =>
    (b.waves.findSome? s.wave).map (fun w => { dies := e.dies, waves := b.waves.length, regs := w.regs, tiles := w.tileCount }))) ++
  s.launches.filterMap (fun e =>
    let v := leNat e.2.packet
    if e.2.started && e.2.deal.isNone && decide (e.2.next < bitsOf v 159 128 + 1) then
      some { dies := bitsOf v 173 168, waves := bitsOf v 167 160, regs := 8 * bitsOf v 197 192, tiles := bitsOf v 214 211 }
    else none)

/-- The free ranges that up to k waves of a size would take one after another (R413). -/
def rangesFor (size k : Nat) (taken : List (Nat × Nat)) : List (Nat × Nat) :=
  match k with
  | 0 => []
  | k + 1 =>
    match buddyFind size 1024 taken with
    | none => []
    | some b => (b, size) :: rangesFor size k ((b, size) :: taken)

/-- How many more waves of a number of tiles a core has slots and tiles for (R413). -/
def slotRoom (ws : Sparse Wave) (tiles : Nat) : Nat :=
  let free := 96 - ws.length
  if tiles = 0 then free else min free ((8 - (ws.map (fun e => e.2.tileSlots.length)).sum) / tiles)

/-- The free ranges of a core that the waves of what waits would take. -/
def State.rangesOn (s : State) (die core : Nat) (x : Wanted) : List (Nat × Nat) :=
  let ws := s.wavesOn die core
  rangesFor (mainUnits x.regs) (min x.waves (slotRoom ws x.tiles)) (mainTaken ws)

/-- COMPACTOR_MOVE (R414): room made on a core for the first that waits, does not fit the core's quad, and of whose waves one more would
fit here but for its main-file range. DEDUCED, log entry 78. -/
def State.compactFor (s : State) (core : Nat) : Option State :=
  let die := core / 64
  let c := core % 64
  let ws := s.wavesOn die c
  s.roomWanted.findSome? (fun x =>
    let here := s.rangesOn die c x
    if !bitOf x.dies die || decide (x.waves ≤ ((s.quadCores die c).map (fun d => (s.rangesOn die d x).length)).sum) ||
        decide (min x.waves (slotRoom ws x.tiles) ≤ here.length) then none
    else (s.compactBest die c (mainUnits x.regs) ws here).map Prod.snd)

/-- COMPACTOR_MOVE (R414). -/
def execCompactorMove (s : State) : Host.Outcome State Fault Refusal :=
  match s.input with
  | some (.compactorMove core) =>
    match s.compactFor core with
    | some s1 => .next s1
    | none => .next s
  | _ => .next s

/-- MOVE_DONE (R415). -/
def execMoveDone (s : State) : Host.Outcome State Fault Refusal :=
  match s.input with
  | some (.moveDone u) => .next (s.modWave u (fun w => if w.st = .moving then { w with st := .resident } else w))
  | _ => .next s

/-- The tile task of a core's Kiln is lost (R335, R341). -/
def State.loseKiln (s : State) (core : Nat) : State :=
  { (s.modCore core (fun c => { c with kiln := none })).dropClient (.kiln core) with
    setters := s.setters.map (fun t => { t with running := t.running.map (fun r =>
      if r.core == some core && r.outcome.isNone then { r with outcome := some (7, 0, 0, 0) } else r) }) }

/-- The waves of a quad instance whose own instances are still complete, by position (R330). -/
def State.quadArrived (s : State) (k : Block) (pc : VA) : Sparse Nat :=
  (sgetD k.quadInsts pc.toNat []).filter (fun e => match s.wave e.2 with
    | some w => match instAt w pc with
      | some x => x.complete && w.onCore
      | none => false
    | none => false)

/-- The quad instance of a block that is running on the quad's Kilns: its PC, its C tile and its waves (R330, R335). -/
def State.quadRuns (s : State) (k : Block) : Option (VA × Nat × List Nat) :=
  match k.quadOn with
  | none => none
  | some (pc, c) =>
    let us := (s.quadArrived k pc).map Prod.snd
    if us.length = 4 then some (pc, c, us) else none

/-- Another block's TMMAQ is running on the quad of a wave (R330). -/
def State.quadBusy (s : State) (w : Wave) : Bool :=
  s.blocks.any (fun e => e.1 != w.block && e.2.placed && e.2.die == w.die && s.quadOf e.2.die e.2.core == s.quadOf w.die w.core &&
    (s.quadRuns e.2).isSome)

/-- The instance in which a wave's lanes wait is dissolved, and they take TILE_LOST (R335). -/
def State.lostInst (s : State) (u : Nat) (w : Wave) (x : XInst) : State :=
  let w' := { w with insts := w.insts.filter (fun y => y.pc != x.pc) }
  let s1 := (s.setWave u w').modBlock w.block (fun b => { b with quadInsts := b.quadInsts.map (fun e => (e.1, e.2.filter (fun y => y.2 != u))) })
  x.arrived.foldl (fun t a => takeTrap t u a.lane (Trap.mk 0x21 0 0) false 4) s1

/-- One of the other waves of an aborted TMMAQ: its C tile is zero, and it takes TILE_LOST at the TMMAQ (R335). -/
def State.loseQuadTile (pc : VA) (c : Nat) (s : State) (u : Nat) : State :=
  match s.wave u with
  | none => s
  | some w =>
    match instAt w pc with
    | some x => s.lostInst u { w with tiles := sdel w.tiles c } x
    | none => s

/-- A TMMAQ that is running with a wave of a core whose Kiln is reset is aborted on the other three (R335). -/
def State.abortQuad (s : State) (u : Nat) : State :=
  match (s.wave u).bind (fun w => (sget s.blocks w.block).bind s.quadRuns) with
  | some (pc, c, us) => if us.contains u then (us.filter (fun v => v != u)).foldl (State.loseQuadTile pc c) s else s
  | none => s

/-- One wave of a core whose Kiln is reset (R335): its tiles are lost and zero; where it waits in KLN instances, or runs one, it takes
its trap at once. -/
def State.loseTiles (s : State) (u : Nat) : State :=
  let s1 := s.abortQuad u
  match s1.wave u with
  | none => s1
  | some w =>
    let open_ := w.insts.filter (fun x => x.kln)
    open_.foldl (fun t x => match t.wave u with | some v => t.lostInst u v x | none => t)
      (s1.setWave u { w with tiles := [], tileLost := open_.isEmpty })

/-- A Kiln reset (R335): tiles lost and zero, their waves marked, a running TMMAQ aborted; TSHAPE and KSTATUS stay. -/
def State.resetKiln (s : State) (core : Nat) : State :=
  let hit := s.waves.filter (fun e => e.2.onCore && e.2.coreKey == core && e.2.tileCount != 0)
  (skeys hit).foldl State.loseTiles (s.loseKiln core)

/-- The slots that a lost job's bytes were counted for are POISONED (R126, R240): who waits for one traps. -/
def State.loseSlots (s : State) (core : Nat) (j : SlipJob) : State :=
  if j.phase == .queued then s else j.counted.foldl (fun t e => t.failTransfer core e.1 e.2.1 e.2.2 0) s

/-- A started Slip job that is lost (R240, R432): one that has faulted is still at the head of its channel, and one whose FAULTED record
is being signalled is lost after that. -/
def SlipJob.lose (j : SlipJob) : SlipJob :=
  match j.phase with
  | .running | .faulted => { j with phase := .ending, status := 3, cur := none }
  | .ending => if j.status = 1 then { j with status := 3, cur := none } else j
  | .signalling => if j.status = 1 then { j with lost := true } else j
  | .queued => j

/-- The lane copies of some waves that have not completed are lost (R126, R432): each fails the slot it would have counted for. -/
def State.loseCopies (s : State) (p : Nat → Bool) : State :=
  s.cores.foldl (fun t e =>
    let lost := e.2.copies.filter (fun c => p c.wave)
    let t1 := t.modCore e.1 (fun c => { c with copies := c.copies.filter (fun x => !p x.wave) })
    lost.foldl (fun v c => (v.failTransfer e.1 c.slot c.gen c.inbound 0).dropClient (.copy c.issue c.lane)) t1) s

/-- The waves on a core. -/
def State.wavesAt (s : State) (core : Nat) : List Nat := skeys (s.waves.filter (fun e => e.2.onCore && e.2.coreKey == core))

/-- A block stands on a core (R432): its scratchpad range, if it has one, or one of its waves. -/
def State.blockOn (s : State) (core k : Nat) (b : Block) : Bool :=
  (b.placed && b.scratchBytes != 0 && b.slotCore == core) || s.waves.any (fun x => x.2.block == k && x.2.onCore && x.2.coreKey == core)

/-- A core reset (R16, R432): its coalescer's copies and its blocks are lost, blocks whole; its started job and task are lost, the job's
slots POISONED before the reset leaves every slot EMPTY (R126; DEDUCED, log entry 114); what is queued stays. -/
def State.resetCore (s : State) (core : Nat) : State :=
  let us := s.wavesAt core
  let hit := (s.blocks.filter (fun e => s.blockOn core e.1 e.2)).map Prod.fst
  let gone := skeys (s.waves.filter (fun e => hit.contains e.2.block))
  let s1 := ((s.loseCopies (fun u => us.contains u)).resetKiln core).dropRequests (fun u => gone.contains u)
  let s2 := ((hit.foldl State.loseBlock s1).dropClient (.kiln core)).dropClient (.slip core)
  ((s2.core core).jobs.foldl (fun t j => t.loseSlots core j) s2).modCore core (fun c => { CoreState.reset with jobs := c.jobs.map SlipJob.lose })

/-- Every Slip job of a die is lost with its uncore (R434). -/
def State.loseJobs (s : State) (core : Nat) : State :=
  (s.modCore core (fun c => { c with jobs := c.jobs.map (fun j =>
    match j.phase with
    | .queued => { j with phase := .ending, status := 3 }
    | .running | .faulted | .ending | .signalling => j.lose) })).dropClient (.slip core)

/-- A line that an L2 holds in M or O, as the reset of its die or of its home meets it (R180, R181): written back to its home, or
marked POISON there where the copy holds an uncorrectable error or no route to the home, over Pavilion to the host, exists (R164). -/
def State.flushLine (s : State) (line : Nat) : State :=
  match sget s.dir line with
  | none => s
  | some d =>
    let clean := { s with dir := sput s.dir line { d with st := .s, back := [] } }
    let home := s.lineHome line
    let reached := (s.way d.owner (min home 6)).isSome && (home != 7 || s.host.up)
    if s.ecc.contains line || !reached then clean.addPoison line
    else if home = 7 then s.writeBack line
    else clean

/-- The lines that an L2 holds in M or O. -/
def State.heldBy (s : State) (die : Nat) : List Nat := skeys (s.dir.filter (fun e => e.2.dirty && e.2.owner == die))

/-- The lines homed on a die that another agent holds in M or O. -/
def State.heldElsewhereOf (s : State) (die : Nat) : List Nat :=
  skeys (s.dir.filter (fun e => e.2.dirty && e.2.owner != die && s.lineHome e.1 == die))

/-- A core's caches without the lines that are homed on a die. -/
def State.dropHomed (s : State) (die : Nat) (c : CoreState) : CoreState :=
  { c with l1 := c.l1.filter (fun e => s.lineHome (e.1 / 8) != die), icache := c.icache.filter (fun e => s.lineHome e.1 != die) }

/-- The directory once a die's uncore has been reset (R180): no copy of a line homed there, in an L2 or a core's caches, and none in that
die's L2. -/
def State.resetDir (s : State) (die : Nat) : State :=
  let kept := s.dir.filter (fun e => s.lineHome e.1 != die && e.2.present != 2 ^ die)
  { s with dir := kept.map (fun e => (e.1, if bitOf e.2.present die then { e.2 with present := e.2.present - 2 ^ die } else e.2)),
           cores := s.cores.map (fun e => (e.1, s.dropHomed die e.2)) }

/-- An uncore reset (R180, R434): the die's cores reset, its Slips' jobs lost, what its L2 holds written back, then what other
agents hold of its lines; its three links reset and training, until which BUSY reads 1. HBM contents stay. DEDUCED, log entry 34. -/
def State.resetUncore (s : State) (die : Nat) : State :=
  if 6 ≤ die then s
  else
    let cores := (List.range (s.coreCount die)).map (coreKey die)
    let s1 := cores.foldl (fun t c => (t.resetCore c).loseJobs c) s
    let s2 := (s1.heldBy die).foldl State.flushLine s1
    let s3 := ((s2.heldElsewhereOf die).foldl State.flushLine s2).resetDir die
    let s4 := ((s3.resetLink die).resetLink (6 + die)).resetLink (6 + (die + 5) % 6)
    { s4 with linkCtl := { s4.linkCtl with resetBusy := true, resetDie := some die }, freeCtr := s4.freeCtr + 1 }

/-- UNCRST (R180). -/
def execUncrst (s : State) : Host.Outcome State Fault Refusal :=
  match s.input with
  | some (.uncrst die) => .next (s.resetUncore die)
  | _ => .next s

end Sys2Proof.Machine
end

