-- ==== Sys2Proof/Machine/Mmio.lean ====
section
/-! DEFINITION. What a write to the register blocks of MMIO does (R5, R97, R166 to R169, R179, R198, R217, R398, R407, R440). -/

namespace Sys2Proof.Machine

/-- An engine works for some context: a lane copy, a Slip job or a tile task is live (R97). -/
def State.engineLive (s : State) : Bool :=
  s.cores.any (fun e => !e.2.copies.isEmpty || !e.2.jobs.isEmpty || e.2.kiln.isSome) || s.setters.any (fun t => !t.running.isEmpty)

/-- A write to MEMSPLIT (R97). -/
def State.writeMemsplit (s : State) (v : Word) : State :=
  if s.cfg.lock || s.waves.any (fun e => e.2.onCore) || s.engineLive then s
  else { s with cfg := { s.cfg with wingib := min 128 (wbits v 7 0) } }

/-- MEMSPLIT_WRITE (R97). -/
def execMemsplitWrite (s : State) : Host.Outcome State Fault Refusal :=
  match s.input with
  | some (.memsplitWrite v) => .next (s.writeMemsplit v)
  | _ => .next s

/-- The bytes of the device information page (R22, R23), the reserved ones after them being 0. -/
def State.infoBytes (s : State) (accept : Nat) : List Byte :=
  let phys (d : Nat) : List Nat := (List.range 36).filter (fun p => bitOf (s.harvest.getD d 0) p)
  natLe 4 0x1C090101 ++ natLe 4 0x00010000 ++ natLe 4 s.pkgid ++ natLe 4 s.podsize ++ natLe 8 accept ++ natLe 8 1 ++
    (List.range 6).flatMap (fun d => natLe 8 (s.harvest.getD d 0 % 2 ^ 36)) ++
    (List.range 6).map (fun d => BitVec.ofNat 8 (s.coreCount d)) ++ List.replicate 10 0 ++
    (List.range 6).flatMap (fun d => (List.range 36).map (fun l => BitVec.ofNat 8 ((phys d).getD l 255))) ++ List.replicate 8 0 ++
    natLe 4 1050 ++ natLe 4 ((List.range 6).foldl (fun n d => n + s.coreCount d) 0) ++ natLe 8 0xC000000000 ++ natLe 8 0x18000000 ++
    natLe 4 32 ++ natLe 4 0x040810

/-- PODSIZE and PKGID as they settle (R443). -/
def settledPod (ilpaip : Bool) (pkgid podsize : Nat) : Nat × Nat :=
  if !ilpaip then (0, 1)
  else
    let n := max 1 (min 512 podsize)
    (if n ≤ pkgid then 0 else pkgid, n)

/-- A 2w write to DRVACCEPT (R442, R443, R444). -/
def State.writeDrvaccept (s : State) (v : BitVec 64) : State :=
  if !s.bringup.done || s.bringup.failed || s.bringup.accepted then s
  else
    let kept := v.toNat &&& features0
    let accept := if bitOf kept 2 then kept else kept &&& 0x17
    let pod := settledPod (bitOf accept 1) s.pkgid s.podsize
    let s1 := { s with cfg := { s.cfg with lock := true }, pkgid := pod.1, podsize := pod.2,
                       bringup := { s.bringup with drvaccept := accept, accepted := true } }
    let s2 := { s1 with infoPage := some (s1.infoBytes accept) }
    (List.range 16).foldl (fun t p => if t.fabric.ports.getD p 0 = 2 then t.announce p else t) s2

/-- DRVACCEPT_WRITE (R442). -/
def execDrvacceptWrite (s : State) : Host.Outcome State Fault Refusal :=
  match s.input with
  | some (.drvacceptWrite v) => .next (s.writeDrvaccept v)
  | _ => .next s

/-- The bytes of a frame (R398). -/
def Frame.bytes (f : Frame) : Nat := 4096 * 4 ^ f.size

/-- A frame added to the grant pool, or the write counted as rejected (R398). -/
def State.addFrame (s : State) (v : BitVec 64) : State :=
  let f : Frame := { pa := bitsOf v.toNat 55 12 * 4096, size := bitsOf v.toNat 1 0 }
  if pkgOf f.pa == s.pkgid && decide (localOf f.pa + f.bytes ≤ hbmEnd) && f.pa % f.bytes == 0 &&
      !s.pool.any (fun g => overlaps f.pa f.bytes g.pa g.bytes) then
    { s with pool := f :: s.pool }
  else { s with gpReject := s.gpReject + 1 }

/-- GRANT_POOL_ADD (R398). -/
def execGrantPoolAdd (s : State) : Host.Outcome State Fault Refusal :=
  match s.input with
  | some (.grantPoolAdd v) => .next (s.addFrame v)
  | _ => .next s

/-- The ring size of a queue. -/
def HostQueue.ring (q : HostQueue) : Nat := 2 ^ q.log2

/-- Of a queue's doorbells those that announce packets from a head on (R408): those written since a doorbell left the ring empty or its
packets were all read. -/
def HostQueue.rung (x : HostQueue) (bells : List (Nat × Nat)) (head : Nat) : List (Nat × Nat) :=
  (bells.reverse.takeWhile (fun b => b.1 % x.ring != head % x.ring)).reverse

/-- A write to QTAIL (R407): a doorbell, with its place among doorbells; all of them are kept while the ring's size can change. -/
def State.writeTail (s : State) (q v : Nat) : State :=
  let x := s.queue q
  let tail := v % 4096
  let bells := x.bells ++ [(tail, s.ticket)]
  { s.setQueue q { x with tail := tail, bells := if x.en then x.rung bells x.head else bells } with ticket := s.ticket + 1 }

/-- DOORBELL (R407). -/
def execDoorbell (s : State) : Host.Outcome State Fault Refusal :=
  match s.input with
  | some (.doorbell q v) => if q < 64 then .next (s.writeTail q v.toNat) else .next s
  | _ => .next s

/-- A word written to a queue's block (R407, R445). DEDUCED, log entry 46. -/
def State.writeQueue (s : State) (q o v : Nat) : State :=
  let x := s.queue q
  match o with
  | 0x00 =>
    let size := bitsOf v 19 16
    let en := if s.bringup.accepted then bitOf v 31 else x.en
    let x1 := { x with en := en, irq := bitOf v 30 }
    s.setQueue q (if x.en then x1
      else { x1 with privq := bitOf v 29, log2 := if 5 ≤ size && size ≤ 12 then size else 5, prio := bitsOf v 10 8 })
  | 0x04 => if x.en then s else s.setQueue q { x with asid := v % 2 ^ 16 }
  | 0x08 => if x.en then s else s.setQueue q { x with base := bitsOf (setHalf (x.base * 4096) false v) 55 12 }
  | 0x0C => if x.en then s else s.setQueue q { x with base := bitsOf (setHalf (x.base * 4096) true v) 55 12 }
  | 0x10 => if x.en then s else s.setQueue q { x with comp := bitsOf (setHalf (x.comp * 32) false v) 55 5 }
  | 0x14 => if x.en then s else s.setQueue q { x with comp := bitsOf (setHalf (x.comp * 32) true v) 55 5 }
  | 0x18 => s.writeTail q v
  | _ => s

/-- A word written to a link's block (R166 to R169). -/
def State.writeLinkWord (s : State) (i o : Nat) (v : Word) : State :=
  match o with
  | 0x00 => s.writeLkrate i v
  | 0x08 => s.setLink i { s.link i with replay := v.toNat }
  | 0x0C => s.setLink i { s.link i with crcErr := v.toNat }
  | 0x18 => s.setLink i { s.link i with replayMax := wbits v 15 0 }
  | _ => s

/-- A word written to the fabric block (R197, R198, R201). -/
def State.writeFabricWord (s : State) (o : Nat) (v : Word) : State :=
  match o with
  | 0x08 => s.writePlanemap v
  | 0x10 => { s with fabric := { s.fabric with timeout := max 1 (wbits v 15 0) } }
  | 0x18 => { s with fabric := { s.fabric with authErr := v.toNat } }
  | 0x20 => s.writeFabrekey (wbits v 3 0)
  | _ => s

/-- A die's number written to UNCRST (R179, R180): the management controller resets its uncore next. -/
def State.requestUncrst (s : State) (d : Nat) : State :=
  if s.linkCtl.resetBusy || 6 ≤ d then s
  else { s with linkCtl := { s.linkCtl with resetBusy := true }, agenda := s.agenda ++ [.step (.uncrst d)] }

/-- A word written by MMIO (R5). -/
def State.mmioWordWrite (s : State) (off : Nat) (v : Word) : State :=
  if 0x2000 ≤ off && off < 0x2300 then s.writeLinkWord ((off - 0x2000) / 64) (off % 64) v
  else if 0x5000 ≤ off && off < 0x6000 then s.writeQueue ((off - 0x5000) / 64) (off % 64) v.toNat
  else if 0x3000 ≤ off && off < 0x4000 then s.writeFabricWord (off - 0x3000) v
  else
    match off with
    | 0x1000 => s.writeMemsplit v
    | 0x1008 => { s with cfg := { s.cfg with ctxroot := bitsOf (setHalf s.cfg.root false v.toNat) 55 12, xlaten := v.getLsbD 0 } }
    | 0x100C => { s with cfg := { s.cfg with ctxroot := bitsOf (setHalf s.cfg.root true v.toNat) 55 12 } }
    | 0x2400 => { s with linkCtl := { s.linkCtl with evPort := v } }
    | 0x2408 => { s with linkCtl := { s.linkCtl with evLost := v.toNat } }
    | 0x2418 => s.requestUncrst (wbits v 2 0)
    | 0x4004 => { s with rxDrop := v }
    | 0x4008 => { s with ethMsgUdp := wbits v 15 0 }
    | 0x6018 => { s with bringup := { s.bringup with pwrLimit := min 2800 (wbits v 11 0) } }
    | 0x601C => if s.bringup.accepted then s else { s with hostgib := wbits v 16 0 }
    | 0x6020 => if s.bringup.accepted then s else { s with pkgid := wbits v 8 0 }
    | 0x6024 => if s.bringup.accepted then s else { s with podsize := wbits v 9 0 }
    | 0x7018 => { s with gpReject := v }
    | _ => s

/-- A w or 2w write by MMIO; POISCRUB, DRVACCEPT and GPFRAME take 2w writes only (R179, R398, R442). -/
def State.mmioWrite (s : State) (off n : Nat) (v : BitVec 64) : State :=
  if n = 8 then
    if off = 0x2410 then s.writePoiscrub v
    else if off = 0x6008 then s.writeDrvaccept v
    else if off = 0x7000 then s.addFrame v
    else (s.mmioWordWrite (off + 4) (v.extractLsb' 32 32)).mmioWordWrite off (v.extractLsb' 0 32)
  else s.mmioWordWrite off (v.extractLsb' 0 32)

/-- REGISTER_WRITE (R5): a write by the host or another bus agent through BAR0 (R438). -/
def execRegisterWrite (s : State) : Host.Outcome State Fault Refusal :=
  match s.input with
  | some (.registerWrite off size v) =>
    if (size = 4 || size = 8) && off % size = 0 && off < 2 ^ 32 then .next (s.mmioWrite off size v) else .next s
  | _ => .next s

end Sys2Proof.Machine
end

