-- ==== Sys2Proof/Machine/Memory.lean ====
section
/-! DEFINITION. Loads and stores (R135 to R145): effective addresses and the checks of each space, the access at its home, in
L1, over the fabric (R186 to R190) or in MMIO, and the instructions LD, ST, LDO, STO, LDS and STS. -/

namespace Sys2Proof.Machine

/-- Bytes of a size (R37). -/
def sizeBytes (z : Size) : Nat :=
  match z with
  | .b => 1
  | .bu => 1
  | .h => 2
  | .hu => 2
  | .w => 4
  | .w2 => 8
  | .w4 => 16

/-- A scope wider than .core: it includes a lane on another core (R350). -/
def State.wide (s : State) (w : Wave) (scope : Scope) : Bool :=
  match scope with
  | .lane | .wave | .core | .eng | .io => false
  | .block => s.blockSpans w
  | .quad | .die | .pkg | .sys | .plane | .pod => true

/-- The L1 invalidation of an acquire wider than .core (R116). -/
def State.acquire (s : State) (w : Wave) (wide : Bool) : State := if wide then s.dropL1 w.coreKey else s

/-- The level of the leaf an address translates by, for TRAPAUX. -/
def State.leafLevel (s : State) (a : Acc) (va : Nat) : Nat :=
  match s.translate a va with
  | .ok t => match t.page with | some p => p.level | none => 0
  | .error _ => 0

/-- The VA of a wait that has failed: the host's stands after the time and the generation, another one at the end. -/
def Wait.failedVa (wt : Wait) : Nat :=
  if wt.kind == .cxl then leNat ((wt.bytes.drop 16).take 8) else leNat (wt.bytes.drop (wt.bytes.length - 8))

/-- What a lane had from remote replies before the wait that has failed. -/
def Wait.before (wt : Wait) : List Byte := if wt.kind == .cxl then wt.bytes.drop 24 else wt.bytes.take (wt.bytes.length - 8)

/-- The trap of a wait that has failed (R103, R182, R190, R426). -/
def State.failTrap (s : State) (a : Acc) (wt : Wait) (status : Nat) : Trap :=
  let va := wt.failedVa
  if wt.kind == .cxl then hostTrap va 3
  else if status = remoteRefused then pageFault a va (s.leafLevel a va) reasonUnbacked
  else if status = remoteTimedOut then Trap.mk 0x29 va wt.value
  else poisonTrap va

/-- What a lane that has waited does first: nothing more while it waits for an answer, its trap when the wait has failed; a lane that
waited for room or for a link tries again. -/
def State.resumed (s : State) (a : Acc) (ln : Lane) : Option Out :=
  match ln.wait with
  | none => none
  | some wt =>
    match wt.kind, wt.status with
    | .requests, _ | .dieLink _ _, _ | .acks _, _ | .copies, _ | .turn, _ => none
    | _, none => some .hold
    | k, some st => if st = remoteDone && k != .cxl then none else some (.trap (s.failTrap a wt st) false)

/-- The answer to a lane's last remote access has come, and it had all it needed before. -/
def Lane.answered (ln : Lane) : Bool := match ln.wait with | some wt => wt.value == 1 | none => false

/-- The words that came with the writes and atomics of a lane's instruction so far. -/
def Lane.acks (ln : Lane) : List Word := match ln.wait with | some wt => wt.acks | none => []

/-- A lane waits for a remote reply (R188): bytes it has, and whether this is its last request. DEDUCED, log entry 36. -/
def State.remoteWait (s : State) (fo : Focus) (l req : Nat) (bytes : List Byte) (final : Bool) : State :=
  (s.waitWith fo.wave l (.remote req) (if final then 1 else 0) bytes).modLane fo.wave l (fun ln => { ln with split := fo.lanes })

/-- A lane's request to another package, its last one or one before its access; it waits while its core has 1,536 outstanding (R14). -/
def State.askRemote (s : State) (fo : Focus) (w : Wave) (l : Nat) (ln : Lane) (va pa n : Nat) (op : HomeOp) (data : List Byte)
    (expected : Word) (final : Bool) : State × Out :=
  if !s.requestRoom w.coreKey then (s.waitWith fo.wave l .requests 0 ln.got, .set)
  else
    let r := s.request (s.laneReq fo.wave w.asid [(l, 0)] none va pa n op data expected)
    (r.2.remoteWait fo l r.1 ln.got final, .set)

/-- A lane waits for the host's answer (R426): since when, under which translation generation (R108), for which VA, what it has, and
whether it may have written. -/
def State.cxlWait (s : State) (fo : Focus) (w : Wave) (l : Nat) (ln : Lane) (va : Nat) (write : Bool) : State :=
  s.waitWith fo.wave l .cxl (if write then 1 else 0) (natLe 8 s.time ++ natLe 8 (s.ctx w.asid).gen ++ natLe 8 va ++ ln.got)

/-- A host-homed access that fails (R426): no answer yet, which is one of the requests that its core may have outstanding (R14), or the
trap; done is the state with what has been performed all the same. -/
def State.hostFails (s done : State) (fo : Focus) (w : Wave) (l : Nat) (ln : Lane) (va kind : Nat) (write : Bool) : State × Out :=
  if kind != 3 then (done, .trap (hostTrap va kind) false)
  else if !s.requestRoom w.coreKey then (s.waitWith fo.wave l .requests 0 ln.got, .set)
  else (done.cxlWait fo w l ln va write, .set)

/-- A lane's atomic of its own at a home here, whose result its instruction keeps when it goes on (R92). -/
def State.pinHere (s : State) (fo : Focus) (l : Nat) (ln : Lane) (pa : Nat) (op : HomeOp) (data : List Byte) : State :=
  let r := s.atomHere pa op data
  (r.2.waitWith fo.wave l .requests 0 ln.got).modLane fo.wave l (fun x => { x with wait := x.wait.map (fun wt => { wt with acks := ln.acks ++ [r.1] }) })

/-- A lane takes a trap, or asks for what its step needs first, or waits for a link or for the host (R171, R186, R426). -/
def State.trapOrAsk (s : State) (fo : Focus) (w : Wave) (l : Nat) (ln : Lane) (t : Trap) : State × Out :=
  match t.need with
  | some (.access pa n op data expected) =>
    if pkgOf pa = s.pkgid then (s.pinHere fo l ln pa op data, .set) else s.askRemote fo w l ln t.va pa n op data expected false
  | some (.link src dst) => s.linkWait fo l ln src dst
  | none =>
    if t.cause = 0 then (s, .hold)
    else if t.cause = 0x15 && t.aux == 3 then s.hostFails s fo w l ln t.va 3 false
    else (s, .trap t false)

/-- What came with a lane's accesses so far, for the operations of the part that its step makes. -/
def State.withAcks (s : State) (ln : Lane) : State := { s with run := { s.run with acks := ln.acks } }

/-- The step's engine operations are over. -/
def State.noRun (s : State) : State := { s with run := Runner.idle }

/-- A lane waits at a store that it has yet to make or to send. -/
def Wait.stalls (wt : Wait) : Bool :=
  match wt.kind with
  | .remote _ => wt.value != 1
  | .requests | .dieLink _ _ | .acks _ | .turn => true
  | .cxl => wt.value != 1
  | _ => false

/-- A lower lane of the wave has yet to make its store at the PC of the group (R137, R161): the higher lanes store after it. -/
def State.behind (s : State) (fo : Focus) (l : Nat) : Bool :=
  match s.wave fo.wave with
  | none => false
  | some w => w.lanes.any (fun e => decide (e.1 < l) && e.2.pc == fo.pc && (match e.2.wait with | some wt => wt.stalls | none => false))

/-- The remote stores from which a lane has gone on and that have not been acknowledged (R187): those of one logical plane, or all. -/
def State.posted (s : State) (u l : Nat) (plane : Option Nat) : Bool :=
  s.fabric.out.any (fun e => e.2.posted.isSome && e.2.wave == u && e.2.lanes.any (fun x => x.1 == l) &&
    (match plane with | some p => bitsOf e.2.pa 9 7 == p | none => true))

/-- Where an access goes once its space is checked (R139 steps 3 and 4, but translation). -/
inductive Place where
  /-- A trap, or what is needed first. -/
  | trap (t : Trap)
  /-- A physical scratchpad offset. -/
  | scratch (off : Nat)
  | priv (off : Nat)
  | vm (va : Nat)
  deriving DecidableEq, Repr

/-- A tensor-relative address (R141): the entry is read before its id's high bits are looked at. -/
def State.tensorPlace (s : State) (w : Wave) (l : Nat) (ln : Lane) (a : Opd) (n : Nat) (write : Bool) : Place :=
  let acc := laneAcc w ln write
  let off := (readOpd w l ln a).toNat
  let odd := readOpd w l ln (opdPlus a 1)
  if off % n != 0 then .trap (Trap.mk 0x12 off 0)
  else
    match s.readTensor w.asid (wbits odd 15 0) false ln.got with
    | .error t => .trap t
    | .ok (e, _) =>
      if wbits odd 31 16 != 0 || !e.ok then .trap (noTensor acc off)
      else if e.span < off + n then .trap (protFault acc off 0 reasonTensorRange)
      else .vm ((e.live + off) % 2 ^ 64)

/-- The effective address of an access and the checks of its space (R118, R121, R135, R136, R141). -/
def State.place (s : State) (w : Wave) (l : Nat) (ln : Lane) (k : Block) (space : Space) (a : Opd) (off : Int) (n : Nat)
    (write : Bool) : Place :=
  let acc := laneAcc w ln write
  match space with
  | .global =>
    let va := addrPlus (readPair w l ln a) off
    if va % n != 0 then .trap (Trap.mk 0x12 va 0) else .vm va
  | .scratch =>
    let o := (readOpd w l ln a + BitVec.ofInt 32 off).toNat
    if o % n != 0 then .trap (Trap.mk 0x12 o 0)
    else if k.scratchBytes < o + n then .trap (protFault acc o 0 reasonScrRange)
    else .scratch (k.origin + o)
  | .priv =>
    let o := (readOpd w l ln a + BitVec.ofInt 32 off).toNat
    if o % n != 0 then .trap (Trap.mk 0x12 o 0)
    else if w.privBytes < o + n then .trap (protFault acc o 0 reasonPrivRange)
    else .priv o
  | .tensor => s.tensorPlace w l ln a n write

/-- The words a load writes (R143). -/
def loadWords (z : Size) (bs : List Byte) : List Word :=
  let v := leNat bs
  match z with
  | .b => [BitVec.ofInt 32 (signed 8 v)]
  | .bu => [BitVec.ofNat 32 v]
  | .h => [BitVec.ofInt 32 (signed 16 v)]
  | .hu => [BitVec.ofNat 32 v]
  | .w => [wordAt bs 0]
  | .w2 => [wordAt bs 0, wordAt bs 4]
  | .w4 => [wordAt bs 0, wordAt bs 4, wordAt bs 8, wordAt bs 12]

/-- The bytes a store takes from its data operand (R143). -/
def storeBytes (w : Wave) (l : Nat) (ln : Lane) (v : Opd) (n : Nat) : List Byte :=
  ((List.range 4).flatMap (fun k => natLe 4 (readOpd w l ln (opdPlus v k)).toNat)).take n

/-- Bytes of the device information page (R20, R22). -/
def State.infoRead (s : State) (o n : Nat) : List Byte := (List.range n).map (fun i => (s.infoPage.getD []).getD (o + i) 0)

/-- How an access to memory of this package ends: with bytes, or not. -/
inductive Got where
  | bytes (bs : List Byte)
  | poison
  | host (kind : Nat)
  deriving DecidableEq, Repr

/-- A read at the home (R151, R359): what an access that L1 does not serve sees. -/
def State.loadHome (s : State) (la n : Nat) : Got × State :=
  match s.hostFault la with
  | some k => (.host k, s)
  | none => if s.poisoned la n then (.poison, s.found la) else (.bytes (s.home la n), s.receive la)

/-- What L1 serves of a read, where it serves all of it. -/
def State.l1Hit (s : State) (core la n : Nat) : Option (List Byte) := if la % 16 + n ≤ 16 then s.l1Serves core la n else none

/-- A read that L1 may serve (R359); alloc says whether a miss fills L1 (R144). -/
def State.loadCached (s : State) (core la n : Nat) (alloc : Bool) : Got × State :=
  match s.hostFault la with
  | some k =>
    match s.l1Hit core la n with
    | some bs => (.bytes bs, s)
    | none => (.host k, s)
  | none =>
    match s.loadL1 core la n alloc with
    | (some bs, s1) => (.bytes bs, s1)
    | (none, s1) => (.poison, s1)

/-- How a load is to be performed (R116, R144): as an acquire wider than .core, or as one that may find its bytes in L1, and whether it
fills L1. -/
structure LoadWay where
  wide : Bool
  alloc : Bool
  deriving DecidableEq, Repr

/-- A load's result: its words, after the invalidation of a wide acquire (R116, R138). -/
def loadDone (s : State) (w : Wave) (v : Opd) (z : Size) (wide : Bool) (bs : List Byte) : State × Out :=
  (s.acquire w wide, .done (some v) (loadWords z bs) 0)

/-- A load from memory of this package (R139, R143). -/
def State.loadMem (s : State) (fo : Focus) (w : Wave) (l : Nat) (ln : Lane) (v : Opd) (z : Size) (how : LoadWay) (t : Target) (va : Nat) :
    State × Out :=
  let la := localOf t.pa
  let r := if how.wide then s.loadHome la (sizeBytes z) else s.loadCached w.coreKey la (sizeBytes z) how.alloc
  match r.1 with
  | .bytes bs => loadDone (r.2.noteTlb w.asid t) w v z how.wide bs
  | .poison => (r.2, .trap (poisonTrap va) false)
  | .host k => s.hostFails s fo w l ln va k false

/-- A load from a virtual address (R103, R139, R143); one that L1 does not serve waits for a die link on its way (R171). -/
def State.loadVm (s : State) (fo : Focus) (w : Wave) (l : Nat) (ln : Lane) (v : Opd) (z : Size) (how : LoadWay) (va : Nat) : State × Out :=
  match s.translate (laneAcc w ln false) va with
  | .error t => s.trapOrAsk fo w l ln t
  | .ok t =>
    let served := t.kind.cached && !how.wide && (s.l1Hit w.coreKey (localOf t.pa) (sizeBytes z)).isSome
    if !served && !s.reachable t then s.linkWait fo l ln s.agent (s.homeOf t.kind t.pa)
    else
      match t.kind with
      | .hbm | .host => s.loadMem fo w l ln v z how t va
      | .remote => (s.noteTlb w.asid t).askRemote fo w l ln va t.pa (sizeBytes z) .load [] 0 true
      | .info => loadDone s w v z how.wide (s.infoRead t.pa (sizeBytes z))
      | .mmio =>
        if mmioForm va (sizeBytes z) then
          loadDone (s.noteTlb w.asid t) w v z how.wide (s.mmioRead (localOf t.pa - mmioBase) (sizeBytes z))
        else (s, .trap (Trap.mk 0x12 va 0) false)

/-- A private load (R115, R117). -/
def State.loadPriv (s : State) (fo : Focus) (w : Wave) (l : Nat) (ln : Lane) (v : Opd) (z : Size) (o : Nat) : State × Out :=
  match s.privTrap fo.wave l o (sizeBytes z) (fun _ => false) with
  | some t => (s, trapOrLink t)
  | none => loadDone s w v z false (s.privRead l ln o (sizeBytes z))

/-- One lane's load (R143, R145). -/
def State.loadLane (s : State) (fo : Focus) (w : Wave) (l : Nat) (ln : Lane) (v a : Opd) (z : Size) (space : Space) (off : Int)
    (how : LoadWay) : State × Out :=
  match sget s.blocks w.block with
  | none => (s, .set)
  | some k =>
    match s.resumed (laneAcc w ln false) ln with
    | some o => (s, o)
    | none =>
      if ln.answered then loadDone s w v z how.wide (ln.got.drop (ln.got.length - (sizeBytes z)))
      else
        match s.place w l ln k space a off (sizeBytes z) false with
        | .trap t => s.trapOrAsk fo w l ln t
        | .scratch o => loadDone s w v z how.wide (s.scratchRead k.slotCore o (sizeBytes z))
        | .priv o => s.loadPriv fo w l ln v z o
        | .vm va => s.loadVm fo w l ln v z how va

/-- The local address that a lane of the group stores to in one instruction, where it is memory of this package. -/
def State.storePlace (s : State) (w : Wave) (k : Block) (space : Space) (a : Opd) (off : Int) (n l : Nat) : Option Nat :=
  match w.lane l with
  | none => none
  | some ln =>
    match s.place w l ln k space a off n true with
    | .vm va =>
      match s.translate (laneAcc w ln true) va with
      | .ok t => match t.kind with
        | .hbm | .host => some (localOf t.pa)
        | .remote | .mmio | .info => none
      | .error _ => none
    | .trap _ | .scratch _ | .priv _ => none

/-- The stores of one instruction by its issue group cover a line (R182). -/
def coversLine (places : List Nat) (n line : Nat) : Bool :=
  (List.range 128).all (fun i => places.any (fun p => decide (p ≤ 128 * line + i) && decide (128 * line + i < p + n)))

/-- A store at its home, with the L1 block of its core (R115, R182, R426). DESIGN CHOICE, log entry 37. -/
def State.storeLocal (s : State) (fo : Focus) (w : Wave) (l : Nat) (ln : Lane) (la va : Nat) (bs : List Byte) (cover : Bool) : State × Out :=
  match s.hostFault la with
  | some kind =>
    s.hostFails (if decide (3 ≤ kind) && Config.choice s.freeCtr la then (s.storeHome la bs).patchL1 w.coreKey la bs else s) fo w l ln va kind true
  | none =>
    if s.poisoned la bs.length && !cover then (s.found la, .trap (poisonTrap va) false)
    else
      let s1 := if s.poisoned la bs.length then s.unpoison (lineOf la) else s
      ((s1.storeHome la bs).patchL1 w.coreKey la bs, .done none [] 0)

/-- A store to another package (R187): in a body the lane goes on, its region staying open until the store is acknowledged; in a tail,
where its faults are precise (R139), it waits. -/
def State.storeRemote (s : State) (fo : Focus) (w : Wave) (l : Nat) (ln : Lane) (va pa : Nat) (bs : List Byte) : State × Out :=
  if ln.bank.tail != 0 then s.askRemote fo w l ln va pa bs.length .store bs 0 true
  else if !s.requestRoom w.coreKey then (s.waitWith fo.wave l .requests 0 ln.got, .set)
  else
    ((s.request (s.laneReq fo.wave w.asid [(l, 0)] (some { pc := fo.pc, inTrap := ln.inTrap }) va pa bs.length .store bs 0)).2, .done none [] 0)

/-- The remote stores whose acknowledgement a release store waits for (R187), by the plane of what it writes: all at .pod, those of its
plane at .plane. -/
def releasePlanes (scope : Scope) (plane : Nat) : Option (Option Nat) :=
  match scope with
  | .pod => some none
  | .plane => some (some plane)
  | .lane | .wave | .core | .block | .quad | .die | .pkg | .sys | .eng | .io => none

/-- A release that has to wait for acknowledgements (R138, R187): which. -/
def State.releaseWait (s : State) (u l : Nat) (rel : Option Scope) (plane : Nat) : Option (Option Nat) :=
  match rel.bind (fun sc => releasePlanes sc plane) with
  | some p => if s.posted u l p then some p else none
  | none => none

/-- A store to a virtual address (R103, R139, R143), a release of a scope or not; it waits for the lower lanes' stores (R137). -/
def State.storeVm (s : State) (fo : Focus) (w : Wave) (l : Nat) (ln : Lane) (va : Nat) (bs : List Byte) (rel : Option Scope)
    (cover : Nat → Bool) : State × Out :=
  match s.translate (laneAcc w ln true) va with
  | .error t => s.trapOrAsk fo w l ln t
  | .ok t =>
    let la := localOf t.pa
    if s.behind fo l then (s.waitWith fo.wave l .turn 0 ln.got, .set)
    else
    match s.releaseWait fo.wave l rel (bitsOf t.pa 9 7) with
    | some p => (s.waitWith fo.wave l (.acks p) 0 ln.got, .set)
    | none =>
      if !s.reachable t then s.linkWait fo l ln s.agent (s.homeOf t.kind t.pa)
      else
        match t.kind with
        | .hbm | .host => (s.noteTlb w.asid t).storeLocal fo w l ln la va bs (s.poisoned la bs.length && cover (lineOf la))
        | .remote => (s.noteTlb w.asid t).storeRemote fo w l ln va t.pa bs
        | .info => (s, .trap (protFault (laneAcc w ln true) va 0 reasonInfoPage) false)
        | .mmio =>
          if mmioForm va bs.length then
            ((s.noteTlb w.asid t).mmioWrite (la - mmioBase) bs.length (BitVec.ofNat 64 (leNat bs)), .done none [] 0)
          else (s, .trap (Trap.mk 0x12 va 0) false)

/-- The words that a lane of the group stores to in private space by one instruction (R117). -/
def State.privWords (s : State) (w : Wave) (k : Block) (a : Opd) (off : Int) (n l : Nat) : List Nat :=
  match w.lane l with
  | none => []
  | some ln =>
    match s.place w l ln k .priv a off n true with
    | .priv o => if n < 4 then [] else (List.range (n / 4)).map (fun j => w.privPlace l (o + 4 * j))
    | .trap _ | .scratch _ | .vm _ => []

/-- A private store (R115, R117, R182); full says which lines the group's stores cover. -/
def State.storePriv (s : State) (fo : Focus) (w : Wave) (l o : Nat) (bs : List Byte) (full : Nat → Bool) : State × Out :=
  match s.privTrap fo.wave l o bs.length full with
  | some t => (s, trapOrLink t)
  | none =>
    let lines := (w.privSectors l o bs.length).map (fun sec => sec / 8)
    ((lines.foldl (fun t line => if t.badLine line && full line then t.unpoison line else t) s).privStore fo.wave l o bs, .done none [] 0)

/-- One lane's store (R143, R145). -/
def State.storeLane (s : State) (fo : Focus) (w : Wave) (l : Nat) (ln : Lane) (v a : Opd) (z : Size) (space : Space) (off : Int)
    (rel : Option Scope) : State × Out :=
  match sget s.blocks w.block with
  | none => (s, .set)
  | some k =>
    match s.resumed (laneAcc w ln true) ln with
    | some o => (s, o)
    | none =>
      if ln.answered then (s, .done none [] 0)
      else
        let n := sizeBytes z
        let bs := storeBytes w l ln v n
        match s.place w l ln k space a off n true with
        | .trap t => s.trapOrAsk fo w l ln t
        | .scratch o => (s.scratchWrite k.slotCore o bs, .done none [] 0)
        | .priv o => s.storePriv fo w l o bs (coversLine (fo.lanes.flatMap (s.privWords w k a off n)) 4)
        | .vm va => s.storeVm fo w l ln va bs rel (coversLine (fo.lanes.filterMap (s.storePlace w k space a off n)) n)

/-- A lane's read of bytes within one line, as a relaxed load of them sees it; pod-remote bytes come from rem. -/
def State.laneReadChunk (s : State) (core : Nat) (a : Acc) (va n : Nat) (rem : List Byte) : Except Trap (List Byte × List Byte × State) :=
  match s.translate a va with
  | .error t => .error t
  | .ok t =>
    match t.kind with
    | .hbm | .host =>
      if (s.l1Hit core (localOf t.pa) n).isNone && !s.reachable t then .error (s.linkTrap t)
      else
        let r := s.loadCached core (localOf t.pa) n true
        match r.1 with
        | .bytes bs => .ok (bs, rem, r.2.noteTlb a.asid t)
        | .poison => .error (s.poisonIn va (localOf t.pa) n)
        | .host k => .error (hostTrap va k)
    | .remote => if rem.length < n then .error (s.needs a va t n .load [] 0) else .ok (rem.take n, rem.drop n, s.noteTlb a.asid t)
    | .info => .ok (s.infoRead t.pa n, rem, s)
    | .mmio =>
      if !mmioForm va n then .error (Trap.mk 0x12 va 0)
      else if !s.reachable t then .error (s.linkTrap t)
      else .ok (s.mmioRead (localOf t.pa - mmioBase) n, rem, s.noteTlb a.asid t)

/-- A lane's read, line by line over k lines. -/
def State.laneReadLines (s : State) (core : Nat) (a : Acc) (va n : Nat) (rem : List Byte) (k : Nat) :
    Except Trap (List Byte × List Byte × State) :=
  match k with
  | 0 => .ok ([], rem, s)
  | k + 1 =>
    if n = 0 then .ok ([], rem, s)
    else
      let c := chunkOf va n
      match s.laneReadChunk core a va c rem with
      | .error t => .error t
      | .ok (bs, rem1, s1) =>
        match s1.laneReadLines core a (va + c) (n - c) rem1 k with
        | .error t => .error t
        | .ok (rest, rem2, s2) => .ok (bs ++ rest, rem2, s2)

/-- A lane's read of a record or an array (R139, R385). -/
def State.laneRead (s : State) (core : Nat) (a : Acc) (va n : Nat) (rem : List Byte) : Except Trap (List Byte × List Byte × State) :=
  s.laneReadLines core a va n rem (n / 128 + 2)

/-- A lane reads a record at an aligned address, then acts on it (R139): ALIGN, the faults of the read, and waits for bytes of
a pod-remote record. -/
def State.withRecord (s : State) (fo : Focus) (w : Wave) (l : Nat) (ln : Lane) (va align n : Nat)
    (f : State → List Byte → List Byte → State × Out) : State × Out :=
  let acc := laneAcc w ln false
  match s.resumed acc ln with
  | some o => (s, o)
  | none =>
    if va % align != 0 then (s, .trap (Trap.mk 0x12 va 0) false)
    else
      match s.laneRead w.coreKey acc va n ln.got with
      | .error t => s.trapOrAsk fo w l ln t
      | .ok (bs, rem, s1) => f s1 bs rem

/-- A load by the issue group. -/
def loadInstr (s : State) (v a : Opd) (z : Size) (space : Space) (off : Int) (acq : Option Scope) (alloc : Bool) : State :=
  runInto s v (fun s' fo w l ln =>
    s'.loadLane fo w l ln v a z space off { wide := match acq with | some sc => s'.wide w sc | none => false, alloc := alloc })

/-- A store by the issue group. -/
def storeInstr (s : State) (v a : Opd) (z : Size) (space : Space) (off : Int) (rel : Option Scope) : State :=
  match s.focus with
  | none => s
  | some fo => runSeen s (fun s' w l ln => s'.storeLane fo w l ln v a z space off rel)

/-- The offset of an MO form in bytes (R135, R145). -/
def moOffset (off : BitVec 10) (z : Size) : Int := off.toInt * ((sizeBytes z) : Int)

/-- LD (R143): a streaming load does not fill L1; the other hints change timing only (R144). -/
def execLd (v a : Opd) (size : Size) (sem : Sem) (scope : Scope) (space : Space) (hint : Hint) (s : State) :
    Host.Outcome State Fault Refusal :=
  .next (loadInstr s v a size space 0 (if sem = .acquire then some scope else none) (hint != .streaming))

/-- ST (R143, R187): a release at .pod or .plane waits for remote acknowledgements; the lane's other earlier stores have been performed
when it stores (R138). -/
def execSt (v a : Opd) (size : Size) (sem : Sem) (scope : Scope) (space : Space) (_hint : Hint) (s : State) :
    Host.Outcome State Fault Refusal :=
  .next (storeInstr s v a size space 0 (if sem = .release then some scope else none))

/-- LDO (R145). -/
def execLdo (v a : Opd) (size : Size) (off : BitVec 10) (s : State) : Host.Outcome State Fault Refusal :=
  .next (loadInstr s v a size .global (moOffset off size) none true)

/-- STO (R145). -/
def execSto (v a : Opd) (size : Size) (off : BitVec 10) (s : State) : Host.Outcome State Fault Refusal :=
  .next (storeInstr s v a size .global (moOffset off size) none)

/-- LDS (R145). -/
def execLds (v a : Opd) (size : Size) (off : BitVec 10) (s : State) : Host.Outcome State Fault Refusal :=
  .next (loadInstr s v a size .scratch (moOffset off size) none true)

/-- STS (R145). -/
def execSts (v a : Opd) (size : Size) (off : BitVec 10) (s : State) : Host.Outcome State Fault Refusal :=
  .next (storeInstr s v a size .scratch (moOffset off size) none)

/-- A literal (R147), one aligned word by one translation with the X permission: through the instruction cache; of an MMIO page, as the
w read that R103 allows there. DEDUCED, log entry 21. -/
def State.literal (s : State) (w : Wave) (priv : Bool) (va : Nat) : Except Trap (Word × State) :=
  let a := fetchAcc w.asid priv
  match s.translate a va with
  | .error t => .error t
  | .ok t =>
    if t.kind == .mmio then
      if s.reachable t then .ok (s.mmioWord (localOf t.pa - mmioBase), s.noteTlb w.asid t) else .error (s.linkTrap t)
    else
      match s.fetchFrom w.coreKey a va 4 t with
      | .error e => .error e
      | .ok (bs, s1) => .ok (wordAt bs 0, s1)

/-- LDL (R147). -/
def execLdl (d : Opd) (imm : BitVec 19) (s : State) : Host.Outcome State Fault Refusal :=
  .next (runInto s d (fun s' fo w l ln =>
    let va := (s.here &&& 0xFFFFFFFFFFFFFFFC) + 4 * imm.zeroExtend 64
    match s'.literal w ln.isPriv va.toNat with
    | .error t => s'.fetchOut fo w l ln t
    | .ok (v, s1) => (s1, .done (some d) [v] 0)))

/-- CXL_TIMEOUT (R426): 4 ms without an answer. -/
def execCxlTimeout (s : State) : Host.Outcome State Fault Refusal :=
  match s.input with
  | some (.cxlTimeout u l) =>
    match (s.lane u l).bind Lane.wait with
    | some wt =>
      if wt.kind == .cxl && wt.status.isNone then
        .next ((s.atLeast (leNat (wt.bytes.take 8) + 4000000)).modLane u l (fun ln => { ln with wait := some { wt with status := some 3 } }))
      else .next s
    | none => .next s
  | _ => .next s

end Sys2Proof.Machine
end

