-- ==== Sys2Proof/Machine/Atomic.lean ====
section
/-! DEFINITION. The atomics (R148 to R152, R191) and FENCE (R153 to R155). -/

namespace Sys2Proof.Machine

/-- An atomic scope wider than .core (R350). -/
def State.wideAtomic (s : State) (w : Wave) (scope : AScope) : Bool :=
  match scope with
  | .wave | .core => false
  | .block => s.blockSpans w
  | .quad | .die | .pkg | .sys | .pod => true

/-- The floating operations (R150). -/
def floatAtomic (op : AtomOp) : Bool := op == .fadd || op == .fmin || op == .fmax

/-- What an atomic takes besides its data: the expected word of CAS, FPMODE[3:0] of a floating one (R149, R150). -/
def atomSide (op : AtomOp) (ln : Lane) (d : Word) : Word := if floatAtomic op then ln.fpmode &&& 0xF else d

/-- The end of an atomic that has been performed (R116, R148, R150): the old word, or FP_EXC with resume NEXT; an acquire either way. -/
def atomDone (s : State) (w : Wave) (ln : Lane) (d : Opd) (op : AtomOp) (old b side : Word) (wide : Bool) : State × Out :=
  let fl := (atomNew op side old b side).2
  if fpTraps ln fl then (s.acquire w wide, .trap (fpTrap fl) true) else (s.acquire w wide, .done (some d) [old] fl)

/-- An atomic on memory of this package (R151). -/
def State.atomLocal (s : State) (fo : Focus) (w : Wave) (l : Nat) (ln : Lane) (d : Opd) (op : AtomOp) (la va : Nat) (b side : Word)
    (wide : Bool) : State × Out :=
  let old := wordAt (s.home la 4) 0
  let done := s.atomStore la (atomNew op side old b side).1
  match s.hostFault la with
  | some k => s.hostFails (if decide (3 ≤ k) && Config.choice s.freeCtr la then done else s) fo w l ln va k true
  | none => if s.poisoned la 4 then (s.found la, .trap (poisonTrap va) false) else atomDone done w ln d op old b side wide

/-- The request of this instruction that a combinable add joins (R191): one to the same word made since a number. -/
def State.joinable (s : State) (first wave pa : Nat) : Option (Nat × OutReq) :=
  s.fabric.out.find? (fun e => decide (first ≤ e.1) && e.2.wave == wave && e.2.pa == pa && e.2.op == .atomic .add)

/-- An atomic on a pod-remote word (R151, R186): adds at .pod of one issue group to one word leave as one request (R191).
DEDUCED, log entry 27. -/
def State.atomRemote (s : State) (fo : Focus) (w : Wave) (l first : Nat) (op : AtomOp) (va pa : Nat) (b side : Word) (pod : Bool) :
    State × Out :=
  match if pod && op == .add then s.joinable first fo.wave pa else none with
  | some (n, r) =>
    let sum := wordAt r.data 0
    let r' := { r with lanes := r.lanes ++ [(l, sum)], data := natLe 4 (sum + b).toNat }
    ({ s with fabric := { s.fabric with out := sput s.fabric.out n r' } }.remoteWait fo l n [] true, .set)
  | none =>
    if !s.requestRoom w.coreKey then (s.waitWith fo.wave l .requests 0 [], .set)
    else
      let q := s.hold (s.laneReq fo.wave w.asid [(l, 0)] none va pa 4 (.atomic op) (natLe 4 b.toNat) side)
      (q.2.remoteWait fo l q.1 [] true, .set)

/-- One lane's atomic (R139, R148 to R152), after the lower lanes' (R137). -/
def State.atomLane (s : State) (fo : Focus) (first : Nat) (w : Wave) (l : Nat) (ln : Lane) (d a b : Opd) (op : AtomOp) (scope : AScope)
    (acq : Bool) : State × Out :=
  let acc := laneAcc w ln true
  let wide := acq && s.wideAtomic w scope
  match s.resumed acc ln with
  | some o => (s, o)
  | none =>
    if ln.answered then atomDone s w ln d op (wordAt ln.got 0) (wordAt ln.got 4) (wordAt ln.got 8) wide
    else
      let x := readOpd w l ln b
      let side := atomSide op ln (readOpd w l ln d)
      let va := (readPair w l ln a).toNat
      match if floatAtomic op then uninit ln [x] else none with
      | some t => (s, .trap t false)
      | none =>
        if va % 4 != 0 then (s, .trap (Trap.mk 0x12 va 0) false)
        else
          match s.translate acc va with
          | .error t => s.trapOrAsk fo w l ln t
          | .ok t =>
            if s.behind fo l then (s.waitWith fo.wave l .turn 0 ln.got, .set)
            else if !s.reachable t then s.linkWait fo l ln s.agent (s.homeOf t.kind t.pa)
            else
            match t.kind with
            | .hbm | .host => (s.noteTlb w.asid t).atomLocal fo w l ln d op (localOf t.pa) va x side wide
            | .remote => (s.noteTlb w.asid t).atomRemote fo w l first op va t.pa x side (scope == .pod)
            | .info => (s, .trap (protFault acc va 0 reasonInfoPage) false)
            | .mmio => (s, .trap (protFault acc va t.level reasonNoAtom) false)

/-- An atomic by the issue group: its lanes in increasing number, then its remote requests leave. -/
def atomInstr (s : State) (d a b : Opd) (op : AtomOp) (scope : AScope) (acq : Bool) : State :=
  match s.focus with
  | none => s
  | some fo => (s.settled (runSeen s (fun s' w l ln => s'.atomLane fo s.fabric.nextReq w l ln d a b op scope acq)) d 1).sendHeld

/-- ATOM (R148). -/
def execAtom (d a b : Opd) (op : AtomOp) (scope : AScope) (s : State) : Host.Outcome State Fault Refusal :=
  .next (atomInstr s d a b op scope false)

/-- ATOMA (R148): an acquire. -/
def execAtoma (d a b : Opd) (op : AtomOp) (scope : AScope) (s : State) : Host.Outcome State Fault Refusal :=
  .next (atomInstr s d a b op scope true)

/-- ATOML (R148): a release, which finds the lane's earlier accesses performed: it closes its region (R152, R187). -/
def execAtoml (d a b : Opd) (op : AtomOp) (scope : AScope) (s : State) : Host.Outcome State Fault Refusal :=
  .next (atomInstr s d a b op scope false)

/-- ATOMAL (R148): both. -/
def execAtomal (d a b : Opd) (op : AtomOp) (scope : AScope) (s : State) : Host.Outcome State Fault Refusal :=
  .next (atomInstr s d a b op scope true)

/-- The domain a fence acts as (R155). -/
def fenceDomain (scope : Scope) (dom : FenceDomain) : FenceDomain :=
  match scope, dom with
  | .eng, .mem => .eng
  | .eng, .io => .all
  | .io, .mem => .io
  | .io, .eng => .all
  | _, k => k

/-- What a release FENCE waits for (R154, R155, R187): at .pod the acknowledgements of all remote stores, at .plane those of plane 0,
and in a domain with engines the lane's copies. -/
def State.fenceWait (s : State) (u l : Nat) (scope : Scope) (dom : FenceDomain) : Option WaitKind :=
  match s.releaseWait u l (some scope) 0 with
  | some p => some (.acks p)
  | none => if (dom == .eng || dom == .all) && s.copying u l then some .copies else none

/-- FENCE (R154, R155, R366): the lane's other earlier operations have been performed, and a Setter has read a task's record when MTASK
completes; an acquire clears L1 when its scope is wider than .core, and in domain .dall the instruction cache. DEDUCED, log entry 50. -/
def execFence (scope : Scope) (kind : FenceKind) (dom : FenceDomain) (s : State) : Host.Outcome State Fault Refusal :=
  .next (runLanes s (fun s' w l _ =>
    match s.focus with
    | none => (s', .set)
    | some fo =>
      match if kind = .acq then none else s'.fenceWait fo.wave l scope (fenceDomain scope dom) with
      | some k => (s', .wait k)
      | none =>
        if kind = .rel then (s', .done none [] 0)
        else
          let s1 := s'.acquire w (s'.wide w scope)
          let s2 := if fenceDomain scope dom = .all then s1.modCore w.coreKey (fun c => { c with icache := [] }) else s1
          (s2, .done none [] 0)))

end Sys2Proof.Machine
end

