-- ==== Sys2Proof/Machine/Memx.lean ====
section
/-! DEFINITION. MEMX (R156 to R161): multicast stores, the allocator (R132 to R134), cache maintenance and prefetch, and
tensor elements. -/

namespace Sys2Proof.Machine

/-- A member on another package, before it has answered. -/
def McMember.waiting (m : McMember) (i : Nat) : CastMember :=
  { member := i, pkg := m.pkg, asid := m.asid, winVa := m.winVa, winSize := m.winSize, suspended := 0, resumes := 0 }

/-- A multicast's members (R157, R193, R474): those here are written with the lane's privilege; those still to answer, and those that
failed. -/
def State.castMembers (s : State) (priv : Bool) (off : Nat) (v : Word) (ms : List McMember) (i : Nat) :
    State × List CastMember × List Nat :=
  match ms with
  | [] => (s, [], [])
  | m :: rest =>
    if m.pkg = s.pkgid then
      let r := (s.memberStore m.asid priv m.winVa m.winSize off v).getD (s, some outOfWindow)
      let q := r.1.castMembers priv off v rest (i + 1)
      (q.1, q.2.1, if r.2.isNone then q.2.2 else i :: q.2.2)
    else
      let q := s.castMembers priv off v rest (i + 1)
      if s.podsize ≤ m.pkg then (q.1, q.2.1, i :: q.2.2) else (q.1, m.waiting i :: q.2.1, q.2.2)

/-- The die link that a member's write here waits for (R171). -/
def State.memberLink (s : State) (priv : Bool) (off : Nat) (m : McMember) : Option (Nat × Nat) :=
  if m.pkg != s.pkgid || (s.memberStore m.asid priv m.winVa m.winSize off 0).isSome then none
  else
    match s.translate (Acc.mk m.asid priv true false false) (m.winVa + off) with
    | .ok t => some (s.agent, s.homeOf t.kind t.pa)
    | .error t => match t.need with
      | some (.link src dst) => some (src, dst)
      | some (.access _ _ _ _ _) | none => none

/-- A multicast leaves the package: one of the requests that its core may have outstanding (R14). -/
def State.castsAway (s : State) (ms : List McMember) : Bool := ms.any (fun m => m.pkg != s.pkgid && decide (m.pkg < s.podsize))

/-- The end of a multicast: done, or MULTICAST_PARTIAL with the failed members (R157). -/
def castDone (s : State) (map : Word) : State × Out :=
  if map = 0 then (s, .done none [] 0) else (s, .trap (Trap.mk 0x28 0 map) false)

/-- A lane's multicast to members that it waits for (R157, R193): its flit leaves when its plane's port is free. -/
def State.cast (s : State) (fo : Focus) (l : Nat) (ln : Lane) (off : Nat) (v : Word) (waiting : List CastMember) (failed : List Nat) : State :=
  let req := s.fabric.nextReq
  let c : CastReq := { wave := fo.wave, lane := l, priv := ln.isPriv, offset := off, data := v, waiting := waiting, failed := failed,
                       held := true, port := 0, plane := 0, seq := 0, sentAt := s.time }
  let s1 := { s with fabric := { s.fabric with casts := sput s.fabric.casts req c, nextReq := req + 1 } }
  (s1.waitWith fo.wave l (.multicast req) 0 []).tryCast req

/-- STMC (R157, R193); ALIGN comes before KERNEL_OBJ. DEDUCED, log entry 83. DESIGN CHOICE, log entry 98. -/
def execStmc (d a b : Opd) (s : State) : Host.Outcome State Fault Refusal :=
  .next (runSeen s (fun s' w l ln =>
    match s.focus with
    | none => (s', .set)
    | some fo =>
      match ln.wait.filter (fun wt => match wt.kind with | .multicast _ => true | _ => false) with
      | some wt => if wt.status.isSome then castDone s' wt.value else (s', .hold)
      | none =>
        let off := (readPair w l ln a).toNat
        let h := readOpd w l ln d
        if off % 4 != 0 then (s', .trap (Trap.mk 0x12 off 0) false)
        else
          match s'.live h w.asid with
          | some (_, .mcgroup ms) =>
            match ms.findSome? (s'.memberLink ln.isPriv off) with
            | some (src, dst) => s'.linkWait fo l ln src dst
            | none =>
              if s'.castsAway ms && !s'.requestRoom w.coreKey then (s'.waitWith fo.wave l .requests 0 ln.got, .set)
              else
              let r := s'.castMembers ln.isPriv off (readOpd w l ln b) ms 0
              if r.2.1.isEmpty then castDone r.1 (BitVec.ofNat 32 (r.2.2.foldl (fun n m => n + 2 ^ m) 0))
              else (r.1.cast fo l ln off (readOpd w l ln b) r.2.1 r.2.2, .set)
          | _ => (s', .trap (kernelObj h) false)))

/-- The class of a size, 0 to 7 (R132); none when it is served by no class. -/
def sizeClass (n : Nat) : Option Nat := if n = 0 then none else (List.range 8).find? (fun c => decide (n ≤ 64 * 2 ^ c))

/-- The quad of a wave, over all dies. -/
def State.quadKey (s : State) (w : Wave) : Nat := w.die * 16 + s.quadOf w.die w.core

/-- A context's allocator. -/
def State.alloc (s : State) (asid : Nat) : Alloc := sgetD s.allocs asid Alloc.reset

/-- The blocks of a chunk (R132). -/
def chunkBlocks (va c : Nat) : List Nat := (List.range (1024 / 2 ^ c)).map (fun i => va + i * (64 * 2 ^ c))

/-- A free block of a list, any one of them, and the rest. DESIGN CHOICE, log entry 35. -/
def pickBlock (free : List Nat) (n : Nat) : Option (Nat × List Nat) :=
  match free[n % free.length]? with
  | some v => some (v, free.eraseIdx (n % free.length))
  | none => none

/-- The free list that serves an allocation (R133): the quad's own, with its return list once that is empty, then the
blocks of a fresh chunk, any that is in the pool; the chunk's pages must translate, and a walk that a die link holds is waited for. -/
def State.freeList (s : State) (acc : Acc) (al : Alloc) (quad c base chunks pick : Nat) : Except Trap (List Nat × Alloc) :=
  let key := 8 * quad + c
  let own := sgetD al.free key []
  if !own.isEmpty then .ok (own, al)
  else
    let back := sgetD al.returned key []
    if !back.isEmpty then .ok (back, { al with returned := sdel al.returned key })
    else
      let fresh := (List.range chunks).filter (fun i => (sget al.taken i).isNone)
      match fresh[pick % fresh.length]? with
      | none => .ok ([], al)
      | some i =>
        let va := base * 2 ^ 16 + i * 2 ^ 16
        match s.pagesFault acc va 65536 17 with
        | some t => if t.cause = 0 then .error t else .ok ([], al)
        | none => .ok (chunkBlocks va c, { al with taken := sput al.taken i (quad, c) })

/-- The chunk of a context's pool that an address lies in, if it lies at or above the pool. -/
def poolChunk (base va : Nat) : Option Nat := if base ≤ va / 2 ^ 16 then some (va / 2 ^ 16 - base) else none

/-- MALLOC (R132, R133, R158): 0 when nothing is left; an acquire at .pkg. The block's bytes are what its memory holds: their values are
left open. DESIGN CHOICE, log entry 35. -/
def execMalloc (d a : Opd) (s : State) : Host.Outcome State Fault Refusal :=
  .next (s.settled (runSeen s (fun s' w l ln =>
    let give (t : State) (va : Nat) : State × Out := (t.acquire w true, .done (some d) [BitVec.ofNat 32 va, BitVec.ofNat 32 (va / 2 ^ 32)] 0)
    match sizeClass (readOpd w l ln a).toNat, s'.spaceOf w.asid with
    | some c, some (_, base, chunks) =>
      let quad := s'.quadKey w
      match s'.freeList (laneAcc w ln true) (s'.alloc w.asid) quad c base chunks (Config.freeNat s'.freeCtr (1000 + l)) with
      | .error t => (s', trapOrLink t)
      | .ok r =>
      match pickBlock r.1 (Config.freeNat s'.freeCtr (1100 + l)) with
      | none => give s' 0
      | some (va, rest) => give { s' with allocs := sput s'.allocs w.asid { r.2 with free := sput r.2.free (8 * quad + c) rest } } va
    | _, _ => give s' 0)) d 2)

/-- MFREE (R134, R158): pushed onto the freeing quad's list, or sent to the chunk's owner. An address in a chunk that is taken is freed
as it stands, be it no block or free already; any other is freed as nothing. DESIGN CHOICE, log entry 51. -/
def execMfree (a : Opd) (s : State) : Host.Outcome State Fault Refusal :=
  .next (runLanes s (fun s' w l ln =>
    let va := (readPair w l ln a).toNat
    match s'.spaceOf w.asid with
    | none => (s', .done none [] 0)
    | some (_, base, _) =>
      let al := s'.alloc w.asid
      match if va = 0 then none else (poolChunk base va).bind (sget al.taken) with
      | none => (s', .done none [] 0)
      | some (quad, c) =>
        if quad = s'.quadKey w then
          let key := 8 * quad + c
          ({ s' with allocs := sput s'.allocs w.asid { al with free := sput al.free key (va :: sgetD al.free key []) } }, .done none [] 0)
        else ({ s' with exchanges := s'.exchanges ++ [(w.asid, va)] }, .done none [] 0)))

/-- MFREE_EXCHANGE (R134): the n-th block on its way reaches its owner quad's return list. -/
def execMfreeExchange (s : State) : Host.Outcome State Fault Refusal :=
  match s.input with
  | some (.mfreeExchange n) =>
    match s.exchanges[n]? with
    | none => .next s
    | some (asid, va) =>
      let s1 := { s with exchanges := s.exchanges.eraseIdx n }
      let al := s1.alloc asid
      match (s1.spaceOf asid).bind (fun r => (poolChunk r.2.1 va).bind (sget al.taken)) with
      | none => .next s1
      | some (quad, c) =>
        let key := 8 * quad + c
        .next { s1 with allocs := sput s1.allocs asid { al with returned := sput al.returned key (va :: sgetD al.returned key []) } }
  | _ => .next s

/-- The lines CFLUSH, CINV and PREF act on (R159), by number. -/
def rangeLines (va b : Nat) : List Nat :=
  let n := if b = 0 then 1 else min b 65536
  (List.range ((va + n - 1) / 128 - va / 128 + 1)).map (fun i => (va / 128 + i) % 2 ^ 57)

/-- A line written back by CFLUSH (R159), which faults as a load does (R139, R182, R426) at the line's own address. DEDUCED, log entry
39. DESIGN CHOICE, log entry 99. -/
def State.flushVa (s : State) (acc : Acc) (va : Nat) : Except Trap State :=
  match s.translate acc va with
  | .error t => .error t
  | .ok t =>
    let line := lineOf (localOf t.pa)
    match t.kind with
    | .hbm | .host =>
      if !s.reachable t then .error (s.linkTrap t)
      else
        match s.hostFault (localOf t.pa) with
        | some k => .error (hostTrap va k)
        | none =>
          if s.badLine line then .error (poisonAt va line)
          else if t.kind == .host && s.dirtyLine line && !s.host.up then .error (hostTrap va 4)
          else .ok ((s.noteTlb acc.asid t).writeBack line)
    | .remote | .mmio | .info => .ok (s.noteTlb acc.asid t)

/-- The lines of a range written back, up to the first fault. -/
def State.flushLines (s : State) (acc : Acc) (lines : List Nat) : State × Option Trap :=
  match lines with
  | [] => (s, none)
  | n :: rest =>
    match s.flushVa acc (n * 128) with
    | .error t => (s, some t)
    | .ok s1 => s1.flushLines acc rest

/-- CFLUSH (R159). -/
def execCflush (a b : Opd) (s : State) : Host.Outcome State Fault Refusal :=
  match s.focus with
  | none => .next s
  | some fo =>
    .next (runSeen s (fun s' w l ln =>
      match s'.resumed (laneAcc w ln false) ln with
      | some o => (s', o)
      | none =>
        match s'.flushLines (laneAcc w ln false) (rangeLines (readPair w l ln a).toNat (readOpd w l ln b).toNat) with
        | (s1, some t) => s1.trapOrAsk fo w l ln t
        | (s1, none) => (s1, .done none [] 0)))

/-- The local line of a virtual line where a load of it would succeed. -/
def State.cacheable (s : State) (acc : Acc) (n : Nat) : Option Nat :=
  match s.translate acc (n * 128) with
  | .ok t => match t.kind with
    | .hbm | .host => some (lineOf (localOf t.pa))
    | .remote | .mmio | .info => none
  | .error _ => none

/-- CINV (R159): the L1 blocks of the lines are discarded. -/
def execCinv (a b : Opd) (s : State) : Host.Outcome State Fault Refusal :=
  .next (runLanes s (fun s' w l ln =>
    let lines := (rangeLines (readPair w l ln a).toNat (readOpd w l ln b).toNat).filterMap (s'.cacheable (laneAcc w ln false))
    (s'.modCore w.coreKey (fun c => { c with l1 := c.l1.filter (fun e => !lines.contains (e.1 / 8)) }), .done none [] 0)))

/-- A line brought into its home L2, or a host-homed one into the die's, and into L1 by PREF (R159). -/
def State.prefetch (s : State) (core line : Nat) : State :=
  if (s.hostFault (128 * line)).isSome || s.badLine line || !s.reach s.agent (if s.lineHome line = 7 then 6 else s.lineHome line) then s
  else
    let room := l1Sectors - s.privSectors core
    (s.receiveBy (if s.lineHome line = 7 then s.agent else s.lineHome line) line).modCore core (fun c =>
      { c with l1 := fitL1 s.freeCtr room (((List.range 8).map (fun i => 8 * line + i)).foldl (fun xs sec => sput xs sec (s.home (16 * sec) 16)) c.l1) 8 })

/-- PREF (R159). -/
def execPref (a b : Opd) (s : State) : Host.Outcome State Fault Refusal :=
  .next (runLanes s (fun s' w l ln =>
    let lines := (rangeLines (readPair w l ln a).toNat (readOpd w l ln b).toNat).filterMap (s'.cacheable (laneAcc w ln false))
    (lines.foldl (fun t n => t.prefetch w.coreKey n) s', .done none [] 0)))

/-- The element that LDT and STT name (R160): coordinates from the pair and the plane index. -/
def Tensor.coords (e : Tensor) (i0 i1 p : Nat) : List Nat :=
  let ext (k : Nat) : Nat := if k < e.ndim then e.dims.getD k 1 else 1
  [i0, i1, p % ext 2, p / ext 2 % ext 3, p / (ext 2 * ext 3)]

/-- The entry and coordinates of LDT and STT (R160), with what is left of the lane's remote bytes. -/
def State.elemAt (s : State) (w : Wave) (l : Nat) (ln : Lane) (a b : Opd) (write : Bool) : Except Trap (Tensor × List Nat × List Byte) :=
  let x := readOpd w l ln b
  let acc := laneAcc w ln write
  match s.readTensor w.asid (wbits x 15 0) false ln.got with
  | .error t => .error t
  | .ok (e, rem) =>
    let i := e.coords (readOpd w l ln a).toNat (readOpd w l ln (opdPlus a 1)).toNat (wbits x 31 16)
    if !e.ok then .error (noTensor acc 0)
    else if !e.inside i then .error (protFault acc 0 0 reasonTensorRange)
    else .ok (e, i, rem)

/-- A scale, where the format has one (R85). DEDUCED, log entry 41. -/
def State.elemScale (s : State) (a : Acc) (e : Tensor) (i : List Nat) (rem : List Byte) : Except Trap (Int × List Byte) :=
  if e.fmt = 3 || e.fmt = 4 then s.scaleOf a e (i.getD 1 0) (i.getD 0 0) rem else .ok (0, rem)

/-- The bytes of an element as a lane reads them (R161). -/
def State.elemLoad (s : State) (core : Nat) (acc : Acc) (va n : Nat) (rem : List Byte) : Except Trap (List Byte × State) :=
  match s.laneReadChunk core acc va n rem with
  | .error t => .error t
  | .ok (bs, _, s1) => .ok (bs, s1)

/-- LDT of one lane (R160, R161). -/
def State.ldtLane (s : State) (fo : Focus) (w : Wave) (l : Nat) (ln : Lane) (d a b : Opd) : State × Out :=
  let acc := laneAcc w ln false
  match s.resumed acc ln with
  | some o => (s, o)
  | none =>
    match s.elemAt w l ln a b false with
    | .error t => s.trapOrAsk fo w l ln t
    | .ok (e, i, rem) =>
      match s.elemScale acc e i rem with
      | .error t => s.trapOrAsk fo w l ln t
      | .ok (sc, rem1) =>
        let idx := e.index i
        match s.elemLoad w.coreKey acc ((e.live + e.byteOf idx) % 2 ^ 64) (elemBytes e.fmt) rem1 with
        | .error t => s.trapOrAsk fo w l ln t
        | .ok (bs, s1) => (s1, .done (some d) [BitVec.ofNat 32 (widenElem false e.fmt sc (elemOf e.fmt idx (leNat bs)))] 0)

/-- LDT (R161). -/
def execLdt (d a b : Opd) (s : State) : Host.Outcome State Fault Refusal :=
  .next (runInto s d (fun s' fo w l ln => s'.ldtLane fo w l ln d a b))

/-- The bits an STT stores and the flags it raises, but for outliers (R90, R161). -/
def sttBits (e : Tensor) (sc : Int) (v : Nat) : Narrow × Flags :=
  if e.fmt = 3 || e.fmt = 4 then (narrowTo e.fmt sc false v, 0)
  else if e.fmt = 1 || e.fmt = 2 then
    let r := roundElem (FpCtx.mk .rne false false) e.fmt v
    (.q (r.bits : Int), r.flags)
  else (.q (v : Int), 0)

/-- The address an STT of a lane stores to in this package, with its size. -/
def State.sttPlace (s : State) (w : Wave) (a b : Opd) (l : Nat) : Option (Nat × Nat) :=
  match w.lane l with
  | none => none
  | some ln =>
    match s.elemAt w l ln a b true with
    | .error _ => none
    | .ok (e, i, _) =>
      match s.translate (laneAcc w ln true) ((e.live + e.byteOf (e.index i)) % 2 ^ 64) with
      | .ok t => match t.kind with
        | .hbm | .host => if e.fmt = 4 then none else some (localOf t.pa, elemBytes e.fmt)
        | .remote | .mmio | .info => none
      | .error _ => none

/-- The STTs of one instruction cover a line (R182). -/
def placesCover (ps : List (Nat × Nat)) (line : Nat) : Bool :=
  (List.range 128).all (fun i => ps.any (fun p => decide (p.1 ≤ 128 * line + i) && decide (128 * line + i < p.1 + p.2)))

/-- The lane as its STT is sent to another package: the flags that it raises once it is performed stand in its wait (R161). -/
def Lane.keeping (ln : Lane) (fl : Flags) : Lane :=
  { ln with wait := some { kind := .requests, ticket := 0, status := none, value := 0, bytes := natLe 1 fl.toNat, acks := match ln.wait with | some wt => wt.acks | none => [] } }

/-- STT's store (R161): a T4 store changes its nibble alone, as one update of the byte at its home. -/
def State.sttStore (s : State) (fo : Focus) (w : Wave) (l : Nat) (ln : Lane) (e : Tensor) (va idx bits : Nat) (t : Target)
    (cover : Nat → Bool) : State × Out :=
  let high := idx % 2 == 1
  match t.kind with
  | .hbm | .host =>
    let la := localOf t.pa
    let bs := if e.fmt = 4 then natLe 1 (nibbleOf (leNat (s.home la 1)) high bits) else natLe (elemBytes e.fmt) bits
    s.storeLocal fo w l ln la va bs (s.poisoned la bs.length && cover (lineOf la))
  | .remote =>
    if e.fmt = 4 then s.askRemote fo w l ln va t.pa 1 (.nibble high) (natLe 1 (bits % 16)) 0 true
    else s.askRemote fo w l ln va t.pa (elemBytes e.fmt) .store (natLe (elemBytes e.fmt) bits) 0 true
  | .info => (s, .trap (protFault (laneAcc w ln true) va 0 reasonInfoPage) false)
  | .mmio =>
    if mmioForm va (elemBytes e.fmt) then (s.mmioWrite (localOf t.pa - mmioBase) 4 (BitVec.ofNat 64 bits), .done none [] 0)
    else (s, .trap (Trap.mk 0x12 va 0) false)

/-- How a store to memory of this package would fail at its target (R139 step 5, R182, R426): none where it does not, or where a host
that fails may yet have performed it. -/
def State.targetBad (s : State) (t : Target) (va n : Nat) (cover : Nat → Bool) : Option Trap :=
  let la := localOf t.pa
  if !t.kind.cached then none
  else
    match s.hostFault la with
    | some k => if 3 ≤ k && Config.choice s.freeCtr la then none else some (hostTrap va k)
    | none => if s.poisoned la n && !cover (lineOf la) then some (s.poisonIn va la n) else none

/-- A lane's end of an STT, its flags raised when the store is complete (R161). -/
def Out.withFlags (o : Out) (fl : Flags) : Out :=
  match o with
  | .done none ws _ => .done none ws fl
  | .done (some d) ws f => .done (some d) ws f
  | .masked d v => .masked d v
  | .jump pc e => .jump pc e
  | .trap t n => .trap t n
  | .wait k => .wait k
  | .hold => .hold
  | .exit => .exit
  | .shared c i v => .shared c i v
  | .set => .set

/-- The lane as its STT goes on with a sherd-list entry reserved at an index (R92). -/
def Lane.pinned (ln : Lane) (n : Word) : Lane :=
  { ln with wait := some { kind := .requests, ticket := 0, status := none, value := 0, bytes := ln.got, acks := [n] } }

/-- The reservation of a lane's outlier (R92): made once, whatever the store has to wait for afterwards. -/
def State.sttReserve (s : State) (asid : Nat) (e : Tensor) (ln : Lane) : Except Trap (Word × State) :=
  match ln.acks with
  | n :: _ => .ok (n, s)
  | [] => s.entryAtomic asid false e.va 4 .add 1

/-- STT of an outlier (R90 to R92): its entry of the sherd list, then the element. -/
def State.sttOutlier (s : State) (fo : Focus) (w : Wave) (l : Nat) (ln : Lane) (e : Tensor) (i : List Nat) (sc : Int) (v kind va idx : Nat)
    (t : Target) (cover : Nat → Bool) : State × Out :=
  match s.sttReserve w.asid e ln with
  | .error x => s.trapOrAsk fo w l ln x
  | .ok (n, s1) =>
    let ln1 := { ln.pinned n with wait := (ln.pinned n).wait.map (fun wt => { wt with acks := n :: ln.acks.drop 1 }) }
    let s2 := { s1 with run := { s1.run with acks := ln.acks.drop 1 } }
    match s2.placeOutlier (laneAcc w ln true) e n.toNat (i.getD 1 0) (i.getD 0 0) v kind sc with
    | .error x => ((s1.modLane fo.wave l (fun _ => ln1)).noRun).trapOrAsk fo w l ln1 x
    | .ok (bits, s3) => s3.noRun.sttStore fo w l ln1 e va idx bits t cover

/-- STT of one lane (R139, R160, R161), after the lower lanes' (R137). DEDUCED, log entry 49. -/
def State.sttLane (s : State) (fo : Focus) (w : Wave) (l : Nat) (ln : Lane) (d a b : Opd) (cover : Nat → Bool) : State × Out :=
  let acc := laneAcc w ln true
  let v := (readOpd w l ln d).toNat
  match s.resumed acc ln with
  | some o => (s, o)
  | none =>
    if ln.answered then (s, .done none [] (BitVec.ofNat 6 (leNat ln.got)))
    else
    match s.elemAt w l ln a b true with
    | .error t => s.trapOrAsk fo w l ln t
    | .ok (e, i, rem) =>
      match s.elemScale { acc with write := false } e i rem with
      | .error t => s.trapOrAsk fo w l ln t
      | .ok (sc, _) =>
        let r := sttBits e sc v
        let idx := e.index i
        let va := (e.live + e.byteOf idx) % 2 ^ 64
        match s.translate acc va with
        | .error t => s.trapOrAsk fo w l ln t
        | .ok t =>
          if t.kind == .mmio && !mmioForm va (elemBytes e.fmt) then (s, .trap (Trap.mk 0x12 va 0) false)
          else if fpTraps ln r.2 then (s, .trap (fpTrap r.2) false)
          else if s.behind fo l then (s.waitWith fo.wave l .turn 0 ln.got, .set)
          else if !s.reachable t then s.linkWait fo l ln s.agent (s.homeOf t.kind t.pa)
          else if (t.kind == .remote || t.kind == .host) && !s.requestRoom w.coreKey then (s.waitWith fo.wave l .requests 0 ln.got, .set)
          else
            match s.targetBad t va (elemBytes e.fmt) cover with
            | some x => s.trapOrAsk fo w l ln x
            | none =>
              let s1 := s.noteTlb w.asid t
              match r.1 with
              | .q x =>
                let o := s1.sttStore fo w l (if t.kind == .remote then ln.keeping r.2 else ln) e va idx (BitVec.ofInt 32 x).toNat t cover
                (o.1, o.2.withFlags r.2)
              | .outlier kind => s1.sttOutlier fo w l ln e i sc v kind va idx t cover

/-- STT (R161). -/
def execStt (d a b : Opd) (s : State) : Host.Outcome State Fault Refusal :=
  match s.focus with
  | none => .next s
  | some fo => .next (runSeen s (fun s' w l ln =>
      s'.sttLane fo w l ln d a b (placesCover (fo.lanes.filterMap (s'.sttPlace w a b)))))

end Sys2Proof.Machine
end

