-- ==== Sys2Proof/Machine/Sys.lean ====
section
/-! DEFINITION. The SYS functions (R425, R429 to R433) and the advance of a translation generation (R108). -/

namespace Sys2Proof.Machine

/-- A SYS function by the issue group: PRIV outside privileged mode, before anything else (R47, R48). -/
def privLanes (s : State) (f : State → Wave → Nat → Lane → State × Out) : State :=
  runSeen s (fun s' w l ln => if ln.isPriv then f s' w l ln else (s', .trap (privTrap s) false))

/-- ERET (R425): outside a handler ILLEGAL_INSTR; a bad control word, or an odd address to resume at (R26), is a nested trap. DEDUCED, log
entry 79. -/
def execEret (a b : Opd) (s : State) : Host.Outcome State Fault Refusal :=
  .next (privLanes s (fun s' w l ln =>
    match s.focus with
    | none => (s', .set)
    | some fo =>
      let c := readOpd w l ln b
      if !ln.inTrap then (s', .trap (Trap.mk 0x01 0 s.word) false)
      else if wbits c 30 5 != 0 then (s', .trap (operandTrap s) false)
      else if (ln.leaveTrap (readOpd w l ln a) c).pc.getLsbD 0 then (s', .trap (oddTarget (ln.leaveTrap (readOpd w l ln a) c).pc) false)
      else (s'.modLane fo.wave l (fun x => x.leaveTrap (readOpd w l ln a) c), .set)))

/-- What TLBINV and TLBGEN do as an acq_rel FENCE at .pkg in domain .dall (R430). -/
def State.fenceAll (s : State) (w : Wave) : State := (s.dropL1 w.coreKey).modCore w.coreKey (fun c => { c with icache := [] })

/-- The contexts for which accesses are on their way. -/
def State.busyCtxs (s : State) : List Nat := s.cores.flatMap (fun e => e.2.copies.map LaneCopy.asid) ++ s.fabric.out.map (fun e => e.2.asid) ++
    s.waves.map (fun e => e.2.asid)

/-- Every context's generation advanced (R430). -/
def State.advanceAll (s : State) : State :=
  let s1 := s.busyCtxs.foldl (fun t a => t.modCtx a (fun c => c)) s
  { s1 with tlb := [], ctxs := s1.ctxs.map (fun e => (e.1, { e.2 with gen := e.2.gen + 1 })) }

/-- A lane's advance of one context's generation, or of every one's (R108, R430): a release first, then the advance, which is complete
once every access translated under an older generation has been performed, then the acquire. -/
def advanceLane (s : State) (fo : Focus) (w : Wave) (l : Nat) (ln : Lane) (asid : Option Nat) : State × Out :=
  match ln.wait.map Wait.kind with
  | some (.advance _ _) => (s.fenceAll w, .done none [] 0)
  | _ =>
    match s.fenceWait fo.wave l .pkg .all with
    | some k => (s, .wait k)
    | none =>
      let s1 := match asid with | some a => s.advanceGen a | none => s.advanceAll
      let gen := match asid with | some a => (s1.ctx a).gen | none => 0
      if s1.olderAccess asid gen then (s1, .wait (.advance asid gen)) else (s1.fenceAll w, .done none [] 0)

/-- TLBINV and TLBGEN by the issue group (R430). -/
def advanceInstr (s : State) (asid : Wave → Nat → Lane → Option Nat) : State :=
  privLanes s (fun s' w l ln =>
    match s.focus with
    | none => (s', .set)
    | some fo => advanceLane s' fo w l ln (asid w l ln))

/-- TLBINV (R430). -/
def execTlbinv (a : Opd) (s : State) : Host.Outcome State Fault Refusal :=
  .next (advanceInstr s (fun w l ln => some (wbits (readOpd w l ln a) 15 0)))

/-- TLBGEN (R430). -/
def execTlbgen (s : State) : Host.Outcome State Fault Refusal := .next (advanceInstr s (fun _ _ _ => none))

/-- GENERATION_ADVANCE (R108). -/
def execGenerationAdvance (s : State) : Host.Outcome State Fault Refusal :=
  match s.input with
  | some (.generationAdvance asid) => .next (s.advanceGen asid)
  | _ => .next s

/-- The block of the wave a WAVE handle names, in any context (R431); none is KERNEL_OBJ. -/
def State.blockOf (s : State) (h : Word) : Option (Option Nat) :=
  match s.entry h with
  | some (_, .wave u _ _) => some ((s.wave u).map Wave.block)
  | _ => none

/-- Every wave of a block that is on a core begins to save (R415). -/
def State.startSaving (s : State) (k : Nat) : State :=
  { s with waves := s.waves.map (fun e =>
      (e.1, if e.2.block = k && (e.2.st = .resident || e.2.st = .moving) then { e.2 with st := .saving } else e.2)) }

/-- A block that is RESIDENT or MOVING: some wave of it is, and none is saving. -/
def State.blockRuns (s : State) (k : Nat) : Bool :=
  s.waves.any (fun e => e.2.block == k && (e.2.st == .resident || e.2.st == .moving)) &&
  !s.waves.any (fun e => e.2.block == k && e.2.st == .saving)

/-- PREEMPT (R431). -/
def execPreempt (a b : Opd) (s : State) : Host.Outcome State Fault Refusal :=
  .next (s.settled (privLanes s (fun s' w l ln =>
    let h := readOpd w l ln a
    match ln.wait with
    | some wt => if wt.status.isSome then (s', .done (some b) [0] 0) else (s', .hold)
    | none =>
      match s'.blockOf h with
      | none => (s', .trap (kernelObj h) false)
      | some none => (s', .done (some b) [5] 0)
      | some (some k) =>
        if k = w.block || !s'.blockRuns k then (s', .done (some b) [5] 0) else (s'.startSaving k, .wait (.saved k)))) b 1)

/-- A saved block made runnable: it enters the run queue of the quad it left (R412, R415). -/
def State.resumeBlock (s : State) (k : Nat) (b : Block) : State :=
  { s with
    waves := s.waves.map (fun (e : Nat × Wave) => (e.1, if e.2.block = k && e.2.st = .saved then { e.2 with st := .queued } else e.2)),
    runQueue := s.runQueue ++ [{ block := k, quad := b.die * 16 + s.quadOf b.die b.core, dies := b.dies, prio := b.prio, ticket := s.ticket }],
    ticket := s.ticket + 1 }

/-- RESUMEW (R431). -/
def execResumew (a b : Opd) (s : State) : Host.Outcome State Fault Refusal :=
  .next (privLanes s (fun s' w l ln =>
    let h := readOpd w l ln a
    match s'.blockOf h with
    | none => (s', .trap (kernelObj h) false)
    | some none => (s', .done (some b) [5] 0)
    | some (some k) =>
      match sget s'.blocks k with
      | none => (s', .done (some b) [5] 0)
      | some blk =>
        if s'.waves.any (fun e => e.2.block == k && e.2.st == .saved) then (s'.resumeBlock k blk, .done (some b) [0] 0)
        else (s', .done (some b) [5] 0)))

/-- A core word (R429): the core's key, or none for BADARG. -/
def State.coreWord (s : State) (v : Word) : Option Nat :=
  let die := wbits v 2 0
  let core := wbits v 13 8
  if (v &&& 0xFFFFC0F8) != 0 || 6 ≤ die || s.coreCount die ≤ core then none else some (coreKey die core)

/-- CORERST is refused where the issuing lane's own block stands (R432). -/
def State.ownCore (s : State) (w : Wave) (core : Nat) : Bool :=
  w.coreKey == core || s.waves.any (fun e => e.2.block == w.block && e.2.onCore && e.2.coreKey == core) ||
  (match sget s.blocks w.block with | some b => s.blockOn core w.block b | none => false)

/-- CORERST (R432). -/
def execCorerst (a b : Opd) (s : State) : Host.Outcome State Fault Refusal :=
  .next (privLanes s (fun s' w l ln =>
    match s'.coreWord (readOpd w l ln a) with
    | none => (s', .done (some b) [12] 0)
    | some core => if s'.ownCore w core then (s', .done (some b) [5] 0) else (s'.resetCore core, .done (some b) [0] 0)))

/-- ENGRST (R433). -/
def execEngrst (a b : Opd) (s : State) : Host.Outcome State Fault Refusal :=
  .next (privLanes s (fun s' w l ln =>
    match s'.coreWord (readOpd w l ln a) with
    | none => (s', .done (some b) [12] 0)
    | some core => (s'.resetKiln core, .done (some b) [0] 0)))

end Sys2Proof.Machine
end

