-- ==== Sys2Proof/Machine/Streams.lean ====
section
/-! DEFINITION. Slip jobs (R234 to R241), halos (R242), and the definition and publishing of tensors (R243, R244). -/

namespace Sys2Proof.Machine

/-- A stream command record (R234). -/
structure StreamCmd where
  jobId : Nat
  kind : Nat
  nloops : Nat
  tileLoop : Nat
  shadow : Bool
  srcRing : Bool
  dstRing : Bool
  srcTid : Nat
  dstTid : Nat
  slot0 : Nat
  nslots : Nat
  ringLog2 : Nat
  run : Nat
  srcOff : Nat
  dstOff : Nat
  ringVa : Nat
  signal : Word
  bounds : List Nat
  srcStrides : List Int
  dstStrides : List Int
  deriving DecidableEq, Repr

/-- A record from its 128 bytes; loops from NLOOPS on run once (R234). -/
def StreamCmd.ofBytes (bs : List Byte) : StreamCmd :=
  let v := leNat bs
  let n := bitsOf v 38 36
  let loops := List.range 5
  { jobId := bitsOf v 31 0, kind := bitsOf v 35 32, nloops := n, tileLoop := bitsOf v 41 39, shadow := bitOf v 42, srcRing := bitOf v 45,
    dstRing := bitOf v 46, srcTid := bitsOf v 63 48, dstTid := bitsOf v 79 64, slot0 := bitsOf v 85 80, nslots := bitsOf v 91 86,
    ringLog2 := bitsOf v 95 92, run := bitsOf v 127 96, srcOff := bitsOf v 175 128, dstOff := bitsOf v 223 176,
    ringVa := bitsOf v 274 224 * 64, signal := BitVec.ofNat 32 (bitsOf v 319 288),
    bounds := loops.map (fun k => if k < n then bitsOf v (96 * k + 351) (96 * k + 320) else 1),
    srcStrides := loops.map (fun k => if k < n then signed 32 (bitsOf v (96 * k + 383) (96 * k + 352)) else 0),
    dstStrides := loops.map (fun k => if k < n then signed 32 (bitsOf v (96 * k + 415) (96 * k + 384)) else 0) }

/-- A job's record. -/
def SlipJob.cmd (j : SlipJob) : StreamCmd := StreamCmd.ofBytes j.record

/-- The conditions of R235 on the record's own fields. -/
def StreamCmd.formed (c : StreamCmd) : Bool :=
  (match c.kind with
   | 0 => c.dstRing && !c.srcRing
   | 1 => c.srcRing && !c.dstRing
   | 2 => !c.srcRing && !c.dstRing
   | _ => false) &&
  decide (1 ≤ c.nloops) && decide (c.nloops ≤ 5) && c.bounds.all (fun b => b != 0) &&
  decide (4 ≤ c.run) && decide (c.run ≤ 65536) && c.run % 4 == 0 && decide (c.ringLog2 ≤ 12) && (!c.shadow || !c.dstRing) &&
  (!(c.srcRing || c.dstRing) ||
    (decide (1 ≤ c.tileLoop) && decide (c.tileLoop ≤ c.nloops) && decide (1 ≤ c.nslots) && decide (c.slot0 + c.nslots ≤ 64)))

/-- The digits of a linear iteration count, loop 0 first (R236). -/
def digits (bounds : List Nat) (n : Nat) : List Nat :=
  match bounds with
  | [] => []
  | b :: r => n % b :: digits r (n / b)

/-- The iterations of a job, and of one slot tile (R236). -/
def StreamCmd.total (c : StreamCmd) : Nat := c.bounds.foldl (· * ·) 1
/-- R236. -/
def StreamCmd.perTile (c : StreamCmd) : Nat := (c.bounds.take c.tileLoop).foldl (· * ·) 1

/-- A sum of indices times strides over the first n loops. -/
def strideSum (i : List Nat) (strides : List Int) (n : Nat) : Int :=
  (List.range n).foldl (fun t k => t + (i.getD k 0 : Int) * strides.getD k 0) 0

/-- The tensor sides of a record are defined (R235). -/
def State.sidesOk (s : State) (asid : Nat) (c : StreamCmd) (rem : List Byte) : Except Trap Bool :=
  let src : Except Trap (Bool × List Byte) :=
    if c.srcRing then .ok (true, rem)
    else
      match s.readTensor asid c.srcTid false rem with
      | .error t => .error t
      | .ok (e, rem1) => .ok (e.ok, rem1)
  match src with
  | .error t => .error t
  | .ok (good, rem1) =>
    if c.dstRing then .ok good
    else
      match s.readTensor asid c.dstTid false rem1 with
      | .error t => .error t
      | .ok (e, _) => .ok (good && e.ok && (!c.shadow || e.shadow != 0))

/-- SIGNAL is 0 or a live queue-mode PORT handle of the context (R235): the port here, or a reference to one that is not closed here. -/
def State.signalOk (s : State) (asid : Nat) (h : Word) : Bool :=
  if h = 0 then true
  else
    match s.live h asid with
    | some (_, .port p) => !p.matched
    | some (_, .ref pkg q matched) => !matched && (pkg != s.pkgid || (s.entry q).isSome)
    | _ => false

/-- A job just accepted. -/
def SlipJob.new (record : List Byte) (asid : Nat) (priv : Bool) : SlipJob :=
  { record := record, asid := asid, priv := priv, phase := .queued, status := 0, bases := none, iter := 0, bytes := 0, cur := none,
    faultCode := 0, faultVa := 0, faultReason := 0, out := [] }

/-- A status for d. -/
def statusOut (d : Opd) (v : Nat) : Out := .done (some d) [BitVec.ofNat 32 v] 0

/-- A KRN, STRM or TASK function with a result for d, which needs the block of each lane; its parts may be outstanding (R247, R248). -/
def engineInstr (s : State) (d : Opd) (f : State → Focus → Wave → Nat → Lane → Block → State × Out) : State :=
  runInto s d (fun s' fo w l ln =>
    match sget s'.blocks w.block with
    | some k => f s' fo w l ln k
    | none => (s', .set))

/-- A lane that waits for nothing but a way to where its instruction acts. -/
def Lane.crosses (ln : Lane) : Bool :=
  match ln.wait with
  | some wt => (match wt.kind with | .dieLink _ _ => true | _ => false)
  | none => true

/-- A KRN function (R385): a lane reaches Logen, on Pavilion, over a die link (R164, R171). -/
def krnInstr (s : State) (d : Opd) (f : State → Focus → Wave → Nat → Lane → Block → State × Out) : State :=
  engineInstr s d (fun s' fo w l ln k => if ln.crosses && !s'.reach w.die 6 then s'.linkWait fo l ln w.die 6 else f s' fo w l ln k)

/-- A function that an engine acts on after it (R155): a release in domain .deng, which waits for the lane's copies. -/
def State.afterCopies (s : State) (fo : Focus) (l : Nat) (f : State × Out) : State × Out :=
  if s.copying fo.wave l then (s, .wait .copies) else f

/-- SCMD once its record is read (R235, R241). -/
def State.scmdRecord (s : State) (fo : Focus) (w : Wave) (l : Nat) (ln : Lane) (k : Block) (d : Opd) (bs rem : List Byte) : State × Out :=
  let c := StreamCmd.ofBytes bs
  let core := k.slotCore
  if 16 ≤ (s.core core).jobs.length then (s, statusOut d 1)
  else if !c.formed then (s, statusOut d 2)
  else
    match s.sidesOk w.asid c rem with
    | .error t => s.trapOrAsk fo w l ln t
    | .ok good =>
      if good && s.signalOk w.asid c.signal then
        (({ s with ticket := s.ticket + 1 } : State).modCore core (fun x =>
          { x with jobs := x.jobs ++ [{ SlipJob.new bs w.asid ln.isPriv with serial := s.ticket }] }), statusOut d 0)
      else (s, statusOut d 2)

/-- SCMD (R235, R241): a release, after its record has been read. -/
def execScmd (d a : Opd) (s : State) : Host.Outcome State Fault Refusal :=
  .next (engineInstr s d (fun s' fo w l ln k =>
    s'.withRecord fo w l ln (readPair w l ln a).toNat 128 128 (fun s1 bs rem => s1.afterCopies fo l (s1.scmdRecord fo w l ln k d bs rem))))

/-- The state with a job of a channel changed. -/
def State.modJob (s : State) (core n : Nat) (f : SlipJob → SlipJob) : State :=
  s.modCore core (fun c => { c with jobs := c.jobs.modify n f })

/-- SRESUME (R241). -/
def execSresume (d a : Opd) (s : State) : Host.Outcome State Fault Refusal :=
  .next (engineInstr s d (fun s' _ w l ln k =>
    match (s'.core k.slotCore).jobs with
    | j :: _ =>
      if j.phase == .faulted && j.cmd.jobId == (readOpd w l ln a).toNat then
        (s'.modJob k.slotCore 0 (fun x => { x with phase := if x.bases.isSome then .running else .queued, status := 0, faultCode := 0, faultVa := 0, faultReason := 0 }), statusOut d 0)
      else (s', statusOut d 3)
    | [] => (s', statusOut d 3)))

/-- A job ends CANCELLED (R241): the slots that it was filling or draining are poisoned (R126). -/
def State.endCancelled (s : State) (core n : Nat) (j : SlipJob) : State :=
  (s.modJob core n (fun x => { x with phase := .ending, status := 2, cur := none, stopping := false })).loseSlots core j

/-- The Slip of a core has an access of its running job outstanding, or answers of an iteration that is not over (R186). -/
def State.slipBusy (s : State) (core : Nat) : Bool :=
  s.fabric.out.any (fun e => e.2.client == some (.slip core)) || s.fabric.answers.any (fun e => e.1 == .slip core)

/-- SCANCEL on a job (R241): one that is within an iteration stops at its boundary, any other one now. -/
def State.cancelJob (s : State) (core n : Nat) (j : SlipJob) : State :=
  if j.phase == .running && s.slipBusy core then s.modJob core n (fun x => { x with stopping := true })
  else (if n = 0 then s.dropClient (.slip core) else s).endCancelled core n j

/-- A job that SCANCEL acts on. -/
def SlipJob.cancellable (j : SlipJob) : Bool := (j.phase == .queued || j.phase == .running || j.phase == .faulted) && !j.stopping

/-- SCANCEL (R241). -/
def execScancel (d a : Opd) (s : State) : Host.Outcome State Fault Refusal :=
  .next (engineInstr s d (fun s' _ w l ln k =>
    let jobs := (s'.core k.slotCore).jobs
    let id := (readOpd w l ln a).toNat
    match jobs.findIdx? (fun j => j.cancellable && j.cmd.jobId == id) with
    | some n =>
      match jobs[n]? with
      | some j => (s'.cancelJob k.slotCore n j, statusOut d 0)
      | none => (s', statusOut d 3)
    | none => (s', statusOut d 3)))

/-- SPOLL (R241): an acquire at .pkg of the SEQ word, then STATUS. DEDUCED, log entry 42. -/
def execSpoll (d a b : Opd) (s : State) : Host.Outcome State Fault Refusal :=
  .next (engineInstr s d (fun s' fo w l ln _ =>
    let acc := laneAcc w ln false
    let idx := (readOpd w l ln b).toNat
    let va := addrPlus (readPair w l ln a) ((64 + 64 * idx : Nat) : Int)
    match s'.resumed acc ln with
    | some o => (s', o)
    | none =>
      if va % 4 != 0 then (s', .trap (Trap.mk 0x12 va 0) false)
      else
        match s'.engRead acc va 4 ln.got with
        | .error t => s'.trapOrAsk fo w l ln t
        | .ok (bs, rem, s1) =>
          if leNat bs != (idx + 1) % 2 ^ 32 then (s1.acquire w true, .done (some d) [0xFFFFFFFF] 0)
          else
            match s1.engRead acc (va + 8) 1 rem with
            | .error t => s1.trapOrAsk fo w l ln t
            | .ok (st, _, s2) => (s2.acquire w true, statusOut d (leNat st))))

/-- The first job of a channel, with which a step of its Slip is concerned. -/
def State.headJob (s : State) (core : Nat) : Option SlipJob := (s.core core).jobs.head?

/-- A fault of a job (R240): it ends FAULTED at its iteration. -/
def State.faultJob (s : State) (core : Nat) (t : Trap) : State :=
  (s.noteBad t).modJob core 0 (fun j => { j with
    phase := .ending, status := 1, faultCode := t.cause, faultVa := t.va,
    faultReason := if t.cause = 0x10 || t.cause = 0x11 then t.aux.toNat % 32 else 0 })

/-- MMIO pages are NOCOPY to a job (R223). DEDUCED, log entry 44. -/
def slipTrap (a : Acc) (t : Trap) : Trap := if t.cause = 0x12 then protFault a t.va 0 reasonNoCopy else t

/-- The base and span of a tensor side (R141, R236), with what is left of the bytes read. -/
def State.sideBase (s : State) (asid tid : Nat) (ring shadow : Bool) (rem : List Byte) : Except Trap ((Nat × Nat) × List Byte) :=
  if ring then .ok ((0, 0), rem)
  else
    match s.readTensor asid tid true rem with
    | .error t => .error t
    | .ok (e, rem1) =>
      if !e.ok || (shadow && e.shadow = 0) then .error (noTensor (engAcc asid false) e.va)
      else .ok ((if shadow then e.shadow else e.live, e.span), rem1)

/-- The bases and spans of a job's two sides. -/
def State.slipBases (s : State) (j : SlipJob) (rem : List Byte) : Except Trap (Nat × Nat × Nat × Nat) :=
  let c := j.cmd
  match s.sideBase j.asid c.srcTid c.srcRing false rem with
  | .error t => .error t
  | .ok (src, rem1) =>
    match s.sideBase j.asid c.dstTid c.dstRing c.shadow rem1 with
    | .error t => .error t
    | .ok (dst, _) => .ok (src.1, src.2, dst.1, dst.2)

/-- The boundary of an iteration (R241): a job that SCANCEL has found ends there. -/
def State.boundary (s : State) (core : Nat) : State :=
  match s.headJob core with
  | some j => if j.stopping then s.endCancelled core 0 j else s
  | none => s

/-- A step of the Slip of a core for its head job, with its accesses to other packages (R186): a fault ends the job FAULTED (R240). -/
def State.slipRun (s : State) (core : Nat) (j : SlipJob) (f : State → List Byte → Except Trap State) : Option State :=
  s.engine (.slip core) 0 j.asid (core / 64) (fun t rem =>
    match f t rem with
    | .ok t1 => .ok (t1.boundary core)
    | .error e => if e.cause = 0 then .error e else .ok ((t.faultJob core e).boundary core))

/-- SLIP_JOB_START (R236, R237): the head of a channel starts when nothing before it is still completing, and reads its entries. -/
def State.slipStart (s : State) (core : Nat) : Option State :=
  match (s.core core).jobs with
  | [] => none
  | j :: rest =>
    if j.phase != .queued || rest.any (fun x => x.phase == .ending || x.phase == .signalling) then none
    else
      s.slipRun core j (fun t rem =>
        match t.slipBases j rem with
        | .error e => .error e
        | .ok bases => .ok (t.modJob core 0 (fun x => { x with phase := .running, bases := some bases })))

/-- SLIP_JOB_START (R237). -/
def execSlipJobStart (s : State) : Host.Outcome State Fault Refusal :=
  match s.input with
  | some (.slipJobStart core) => .next ((s.slipStart core).getD s)
  | _ => .next s

/-- The slot tile of a job's next iteration and its slot (R236). -/
def StreamCmd.tileOf (c : StreamCmd) (iter : Nat) : Nat × Nat :=
  let t := iter / c.perTile
  (t, c.slot0 + t % c.nslots)

/-- A job has a ring of slots. -/
def StreamCmd.ring (c : StreamCmd) : Bool := c.srcRing || c.dstRing

/-- The job needs a slot for its next iteration (R236). -/
def SlipJob.needsTile (j : SlipJob) : Bool :=
  j.cmd.ring && (match j.cur with | some (t, _, _) => t != (j.cmd.tileOf j.iter).1 | none => true)

/-- SLIP_TILE_START (R236): the tile's slot is FILLING or DRAINING, and the job's context owns it. -/
def State.slipTile (s : State) (core : Nat) : Option State :=
  match s.headJob core with
  | none => none
  | some j =>
    if j.phase != .running || !j.needsTile then none
    else
      let (t, slot) := j.cmd.tileOf j.iter
      let x := s.slot core slot
      if x.asid == j.asid && x.st == (if j.cmd.dstRing then SlotState.filling else .draining) then
        some (s.modJob core 0 (fun y => { y with cur := some (t, slot, x.gen), counted := (slot, x.gen, y.cmd.dstRing) :: y.counted.filter (fun e => e.1 != slot) }))
      else none

/-- SLIP_TILE_START (R236). -/
def execSlipTileStart (s : State) : Host.Outcome State Fault Refusal :=
  match s.input with
  | some (.slipTileStart core) => .next ((s.slipTile core).getD s)
  | _ => .next s

/-- The tensor address of an iteration, within its span (R236). -/
def tensorSide (a : Acc) (base span off run : Nat) (delta : Int) : Except Trap Nat :=
  let p : Int := (off : Int) + delta
  if p < 0 || (span : Int) < p + (run : Int) then .error (protFault a ((BitVec.ofInt 64 ((base : Int) + p)).toNat) 0 reasonTensorRange)
  else .ok ((base + p.toNat) % 2 ^ 64)

/-- The scratch address of an iteration, within its slot (R236). -/
def ringSide (a : Acc) (x : Slot) (run : Nat) (off : Int) : Except Trap Nat :=
  if off < 0 || ((256 * x.size : Nat) : Int) < off + (run : Int) then .error (protFault a ((BitVec.ofInt 64 off).toNat) 0 reasonScrRange)
  else .ok (256 * x.base + off.toNat)

/-- The bytes of an iteration's source. -/
def State.slipSource (s : State) (core : Nat) (j : SlipJob) (a : Acc) (i : List Nat) (bases : Nat × Nat × Nat × Nat) (rem : List Byte) :
    Except Trap (List Byte × State) :=
  let c := j.cmd
  if c.srcRing then
    match j.cur with
    | none => .ok ([], s)
    | some (_, slot, _) =>
      match ringSide a (s.slot core slot) c.run (strideSum i c.srcStrides c.tileLoop) with
      | .error t => .error t
      | .ok p => .ok (s.scratchRead core p c.run, s)
  else
    match tensorSide a bases.1 bases.2.1 c.srcOff c.run (strideSum i c.srcStrides 5) with
    | .error t => .error t
    | .ok va =>
      match s.engRead a va c.run rem with
      | .error t => .error (slipTrap a t)
      | .ok (bs, _, s1) => .ok (bs, s1)

/-- The bytes of an iteration put to its destination and counted once they are there: what lies below a fault stays written (R240). -/
def State.slipDest (s : State) (core : Nat) (j : SlipJob) (a : Acc) (i : List Nat) (bases : Nat × Nat × Nat × Nat) (bs : List Byte) :
    State × Option Trap :=
  let c := j.cmd
  if c.dstRing then
    match j.cur with
    | none => (s, none)
    | some (_, slot, gen) =>
      match ringSide a (s.slot core slot) c.run (strideSum i c.dstStrides c.tileLoop) with
      | .error t => (s, some t)
      | .ok p => ((s.scratchWrite core p bs).countBytes core slot gen true c.run, none)
  else
    match tensorSide { a with write := true } bases.2.2.1 bases.2.2.2 c.dstOff c.run (strideSum i c.dstStrides 5) with
    | .error t => (s, some t)
    | .ok va =>
      match s.engWrite a va bs with
      | (s1, some t) => (s1, some (slipTrap { a with write := true } t))
      | (s1, none) =>
        match c.srcRing, j.cur with
        | true, some (_, slot, gen) => (s1.countBytes core slot gen false c.run, none)
        | _, _ => (s1, none)

/-- One iteration done: the job goes on, or ends OK after the last (R237). -/
def SlipJob.advance (j : SlipJob) : SlipJob :=
  let j1 := { j with iter := j.iter + 1, bytes := j.bytes + j.cmd.run }
  if j.cmd.total ≤ j.iter + 1 then { j1 with phase := .ending, status := 0 } else j1

/-- SLIP_ITERATION (R236, R240). -/
def State.slipIterate (s : State) (core : Nat) : Option State :=
  match s.headJob core with
  | none => none
  | some j =>
    match j.bases with
    | none => none
    | some bases =>
      if j.phase != .running || j.needsTile then none
      else
        let a := engAcc j.asid j.priv
        let i := digits j.cmd.bounds j.iter
        s.slipRun core j (fun t rem =>
          match t.slipSource core j a i bases rem with
          | .error e => .error e
          | .ok (bs, t1) =>
            match t1.slipDest core j a i bases bs with
            | (t2, some e) => if e.cause = 0 then .error e else .ok (t2.faultJob core e)
            | (t2, none) => .ok (t2.modJob core 0 SlipJob.advance))

/-- SLIP_ITERATION (R236). -/
def execSlipIteration (s : State) : Host.Outcome State Fault Refusal :=
  match s.input with
  | some (.slipIteration core) => .next ((s.slipIterate core).getD s)
  | _ => .next s

/-- The completion record of a job (R239). -/
def SlipJob.completion (j : SlipJob) (seq : Nat) : List Byte :=
  let i := digits j.cmd.bounds j.iter
  natLe 64 (seq % 2 ^ 32 + j.cmd.jobId * 2 ^ 32 + j.status * 2 ^ 64 + j.faultCode * 2 ^ 72 + j.faultReason * 2 ^ 80 +
    j.bytes % 2 ^ 64 * 2 ^ 96 + j.faultVa % 2 ^ 64 * 2 ^ 160 +
    (List.range 5).foldl (fun n k => n + i.getD k 0 * 2 ^ (256 + 32 * k)) 0)

/-- The place taken on a completion ring by one atomic add of 1 to WIDX (R238), of which SEQ and the place need the low word; none when
it faults. -/
def State.takeRing (s : State) (a : Acc) (va : Nat) : Except Trap (Option Nat × State) :=
  match s.engPinnedOp { a with write := true } va 8 .increment [] with
  | .error t => if t.cause = 0 then .error t else .ok (none, s.noteBad t)
  | .ok (low, s1) => .ok (some low.toNat, s1)

/-- A job's record is written: it is signalled, or it leaves the channel, or stays at its head FAULTED (R238, R240). -/
def SlipJob.recorded (j : SlipJob) (out : List Byte) : SlipJob := { j with phase := .signalling, out := out }

/-- A job that has been signalled: a FAULTED one stays, unless it has been lost since (R240); another one leaves. -/
def State.jobDone (s : State) (core n : Nat) (j : SlipJob) : State :=
  if j.status = 1 then
    s.modJob core n (fun x => if j.lost then { x with phase := .ending, status := 3, cur := none, lost := false, sig := none }
                              else { x with phase := .faulted, sig := none })
  else s.modCore core (fun c => { c with jobs := c.jobs.eraseIdx n })

/-- Bytes of a completion record written; a fault discards them (R238). -/
def State.writeRing (s : State) (a : Acc) (va : Nat) (bs : List Byte) : Except Trap State :=
  match s.engWrite a va bs with
  | (s1, some t) => if t.cause = 0 then .error t else .ok (s1.noteBad t)
  | (s1, none) => .ok s1

/-- The record of a job put into its place on the ring, SEQ last (R238). -/
def State.ringRecord (s : State) (a : Acc) (va : Nat) (out : List Byte) : Except Trap State :=
  match s.writeRing a (va + 4) (out.drop 4) with
  | .error t => .error t
  | .ok s1 => s1.writeRing a va (out.take 4)

/-- A job's record has been written: it is signalled next, if its record asks for that. -/
def State.jobRecorded (s : State) (core n : Nat) (j : SlipJob) (out : List Byte) : State :=
  let s1 := s.modJob core n (fun x => x.recorded out)
  if j.cmd.signal = 0 then s1.jobDone core n j else s1

/-- The record of the n-th job of a channel into its ring (R238). A ring that cannot be reached gives a SEQ the manual leaves open. -/
def State.completeJob (s : State) (core n : Nat) (j : SlipJob) : Except Trap State :=
  let c := j.cmd
  let a := engAcc j.asid j.priv
  match s.takeRing a c.ringVa with
  | .error t => .error t
  | .ok (none, s1) => .ok (s1.jobRecorded core n j (j.completion (Config.freeNat s.freeCtr 3)))
  | .ok (some w, s1) =>
    let out := j.completion (w + 1)
    match s1.ringRecord a (c.ringVa + 64 + 64 * (w % 2 ^ c.ringLog2)) out with
    | .error t => .error t
    | .ok s2 => .ok (s2.jobRecorded core n j out)

/-- The first job of a channel in a phase, with its place. -/
def State.jobIn (s : State) (core : Nat) (p : JobPhase) : Option (Nat × SlipJob) :=
  let jobs := (s.core core).jobs
  match jobs.findIdx? (fun j => j.phase == p) with
  | none => none
  | some n => (jobs[n]?).map (fun j => (n, j))

/-- SLIP_JOB_COMPLETE (R238). -/
def State.slipComplete (s : State) (core : Nat) : Option State :=
  match s.jobIn core .ending with
  | none => none
  | some (n, j) => s.engine (.slipRing core j.serial) 0 j.asid (core / 64) (fun t _ => t.completeJob core n j)

/-- SLIP_JOB_COMPLETE (R238). -/
def execSlipJobComplete (s : State) : Host.Outcome State Fault Refusal :=
  match s.input with
  | some (.slipJobComplete core) => .next ((s.slipComplete core).getD s)
  | _ => .next s

/-- The signal of a job to a port of another package (R238): sent, and over once that package has answered, which it does when the
message is in the queue. -/
def State.signalAway (s : State) (core n : Nat) (j : SlipJob) (pkg : Nat) (port : Word) : Option State :=
  match j.sig with
  | some k => if (sget s.kmsgs k).isSome then none else some (s.jobDone core n j)
  | none =>
    let m : PortMessage :=
      { port := port, source := s.ownSource, tag := BitVec.ofNat 64 j.cmd.jobId, bytes := j.out, len := j.out.length, grants := [],
        byref := false, time := 0 }
    let k := s.newKmsg { wave := 0, lane := 0, asid := j.asid, dest := pkg, seq := 0, body := .message m, pages := [], port := 0, sentAt := 0 }
    some (k.2.modJob core n (fun x => { x with sig := some k.1 }))

/-- SLIP_SIGNAL (R238): the record as a message with tag JOBID, once its port has room; the manual names no SOURCE for it.
DEDUCED, log entry 45. -/
def State.slipSignal (s : State) (core : Nat) : Option State :=
  match s.jobIn core .signalling with
  | none => none
  | some (n, j) =>
    match s.portOf j.cmd.signal j.asid with
    | some (.here idx p) =>
      if p.matched then some (s.jobDone core n j)
      else if p.capacity ≤ s.queueLen idx p then none
      else some ((s.enqueue idx p { source := s.ownSource, tag := j.cmd.jobId, bytes := j.out, grants := [] } none).jobDone core n j)
    | some (.away pkg port) => s.signalAway core n j pkg port
    | some .closed => some (s.jobDone core n j)
    | none => some (s.jobDone core n j)

/-- SLIP_SIGNAL (R238). -/
def execSlipSignal (s : State) : Host.Outcome State Fault Refusal :=
  match s.input with
  | some (.slipSignal core) => .next ((s.slipSignal core).getD s)
  | _ => .next s

/-- A halo record (R242). -/
structure Halo where
  pos : Nat
  slot : Nat
  rows : Nat
  srcOff : Nat
  rowBytes : Nat
  srcPitch : Nat
  dst : Nat
  dstPitch : Nat
  deriving DecidableEq, Repr

/-- A halo record from its 32 bytes (R242). -/
def Halo.ofBytes (bs : List Byte) : Halo :=
  let v := leNat bs
  { pos := bitsOf v 1 0, slot := bitsOf v 13 8, rows := bitsOf v 31 16, srcOff := bitsOf v 63 32, rowBytes := bitsOf v 95 64,
    srcPitch := bitsOf v 127 96, dst := bitsOf v 159 128, dstPitch := bitsOf v 191 160 }

/-- The logical core at a physical one, where it is enabled (R18). -/
def State.logicalCore (s : State) (die phys : Nat) : Option Nat :=
  (List.range (s.coreCount die)).find? (fun c => physCore (s.harvest.getD die 0) c == phys)

/-- The rows of a halo copied (R242). -/
def State.haloRows (s : State) (h : Halo) (src srcBase dst dstBase : Nat) : State :=
  (List.range h.rows).foldl (fun t r =>
    t.scratchWrite dst (dstBase + h.dst + r * h.dstPitch) (t.scratchRead src (srcBase + h.srcOff + r * h.srcPitch) h.rowBytes)) s

/-- SHALO's copy, once its record is read (R242). -/
def State.haloLane (s : State) (fo : Focus) (w : Wave) (l : Nat) (ln : Lane) (k : Block) (d : Opd) (va : Nat) (bs : List Byte) : State × Out :=
  let h := Halo.ofBytes bs
  match ln.slotLost with
  | some t => (s, .trap t false)
  | none =>
  match s.logicalCore w.die (4 * s.quadOf w.die w.core + h.pos) with
  | none => (s, statusOut d 4)
  | some c =>
    let src := coreKey w.die c
    let x := s.slot src h.slot
    if h.srcPitch % 8 != 0 || h.dstPitch % 8 != 0 || h.rowBytes % 8 != 0 then (s, .trap (Trap.mk 0x12 va 0) false)
    else if h.rows = 0 || 256 < h.rows || h.rowBytes < 8 || 4096 < h.rowBytes then (s, statusOut d 2)
    else
      match x.st with
      | .poisoned => (s, .trap (tilePoison h.slot x) false)
      | .empty | .filling | .draining => (s.waitWith fo.wave l (.slotReady src h.slot) 0 bs, .set)
      | .ready =>
        if x.asid != w.asid then (s, .trap (slotProt w ln false 0 reasonSlotOwner) false)
        else if 256 * x.size < h.srcOff + (h.rows - 1) * h.srcPitch + h.rowBytes then
          (s, .trap (slotProt w ln false h.srcOff reasonScrRange) false)
        else if k.scratchBytes < h.dst + (h.rows - 1) * h.dstPitch + h.rowBytes then
          (s, .trap (slotProt w ln true h.dst reasonScrRange) false)
        else (s.haloRows h src (256 * x.base) k.slotCore k.origin, statusOut d 0)

/-- The record that a lane waiting in SHALO has read (R242). -/
def Lane.haloRecord (ln : Lane) : Option (List Byte) :=
  match ln.wait with
  | some wt => match wt.kind with
    | .slotReady _ _ => some wt.bytes
    | _ => none
  | none => none

/-- SHALO (R242): its record is read once. -/
def execShalo (d a : Opd) (s : State) : Host.Outcome State Fault Refusal :=
  .next (engineInstr s d (fun s' fo w l ln k =>
    let va := (readPair w l ln a).toNat
    match ln.haloRecord with
    | some bs => s'.haloLane fo w l ln k d va bs
    | none => s'.withRecord fo w l ln va 32 32 (fun s1 bs _ => s1.haloLane fo w l ln k d va bs)))

/-- A record's bytes as TDEF writes them into the entry (R243): PUBGEN, SHERD_OVF and the reserved bits 0 (R6, R130), VALID 1. -/
def definedEntry (bs : List Byte) : List Byte :=
  let v := leNat bs
  natLe 64 (v - bitsOf v 299 284 * 2 ^ 284 - bitsOf v 31 18 * 2 ^ 18 - bitAt (bitOf v 0) 0 + 1)

/-- TDEF once its record is read (R243). -/
def State.tdefRecord (s : State) (fo : Focus) (w : Wave) (l : Nat) (ln : Lane) (d : Opd) (id : Word) (bs : List Byte) : State × Out :=
  if wbits id 31 16 != 0 then (s, .trap (noTensor (laneAcc w ln false) 0) false)
  else if !(Tensor.ofBytes 0 bs).formed then (s, statusOut d 2)
  else
    match s.entryVa w.asid (wbits id 15 0) with
    | none => (s, .trap (noTensor (laneAcc w ln true) 0) false)
    | some va =>
      match (s.withAcks ln).writeEntry w.asid false va (definedEntry bs) with
      | .error t => s.trapOrAsk fo w l ln t
      | .ok s1 => (s1.noRun, statusOut d 0)

/-- TDEF (R241, R243). DEDUCED, log entry 43. -/
def execTdef (d a b : Opd) (s : State) : Host.Outcome State Fault Refusal :=
  .next (engineInstr s d (fun s' fo w l ln _ =>
    s'.withRecord fo w l ln (readPair w l ln b).toNat 64 64 (fun s1 bs _ => s1.tdefRecord fo w l ln d (readOpd w l ln a) bs)))

/-- TUNDEF's clearing of VALID (R243): one update at the entry's home, whose old value says whether the entry was valid. -/
def State.undefEntry (s : State) (fo : Focus) (w : Wave) (l : Nat) (ln : Lane) (d : Opd) (va : Nat) : State × Out :=
  match (s.withAcks ln).entryAtomic w.asid false va 0 .and 0xFFFFFFFE with
  | .error t => s.trapOrAsk fo w l ln t
  | .ok (old, s1) => (s1.noRun, statusOut d (if old.getLsbD 0 then 0 else 6))

/-- TUNDEF of one lane (R243). -/
def State.tundefLane (s : State) (fo : Focus) (w : Wave) (l : Nat) (ln : Lane) (d : Opd) (id : Word) : State × Out :=
  match s.resumed (laneAcc w ln false) ln with
  | some o => (s, o)
  | none =>
    if wbits id 31 16 != 0 then (s, .trap (noTensor (laneAcc w ln false) 0) false)
    else
      match s.readTensor w.asid (wbits id 15 0) false ln.got with
      | .error t => s.trapOrAsk fo w l ln t
      | .ok (e, _) => if !e.ok then (s, statusOut d 6) else s.undefEntry fo w l ln d e.va

/-- TUNDEF (R243). -/
def execTundef (d a : Opd) (s : State) : Host.Outcome State Fault Refusal :=
  .next (engineInstr s d (fun s' fo w l ln _ => s'.tundefLane fo w l ln d (readOpd w l ln a)))

/-- SPUB after its publish point, of the entry as it was (R244): it is complete once the translation generation has advanced (R108). -/
def State.spubDone (s : State) (fo : Focus) (w : Wave) (l : Nat) (ln : Lane) (d : Opd) (e : Tensor) : State × Out :=
  if !e.publishes then (s, .trap (noTensor (laneAcc w ln true) 0) false)
  else
    let s1 := s.advanceGen w.asid
    let gen := (s1.ctx w.asid).gen
    let new := (e.pubGen + 1) % 65536
    if s1.olderAccess (some w.asid) gen then (s1.waitWith fo.wave l (.advance (some w.asid) gen) 1 (natLe 4 new), .set)
    else (s1.acquire w true, statusOut d new)

/-- SPUB's publish point (R244): one indivisible update of the entry at its home. -/
def State.spubEntry (s : State) (fo : Focus) (w : Wave) (l : Nat) (ln : Lane) (d : Opd) (va : Nat) : State × Out :=
  match s.translate (entryAcc w.asid false) va with
  | .error t => s.trapOrAsk fo w l ln (t.entryWrite va)
  | .ok t =>
    let la := localOf t.pa
    match t.kind with
    | .hbm | .host =>
      if !s.reachable t then s.linkWait fo l ln s.agent (s.homeOf t.kind t.pa)
      else
        match s.hostFault la with
        | some k => s.hostFails s fo w l ln va k true
        | none =>
          if s.poisoned la 64 then (s, .trap (s.poisonIn va la 64) false)
          else
            let e := Tensor.ofBytes va (s.home la 64)
            let s1 := s.noteTlb w.asid t
            (if e.publishes then s1.storeRun (la + 8) e.published else s1).spubDone fo w l ln d e
    | .remote => (s.noteTlb w.asid t).askRemote fo w l ln va t.pa 64 .publish [] 0 true
    | .info => (s, .trap (protFault (laneAcc w ln true) va 0 reasonInfoPage) false)
    | .mmio => (s, .trap (Trap.mk 0x12 va 0) false)

/-- SPUB of one lane (R244, R362): first a release, which waits for the lane's copies. -/
def State.spubLane (s : State) (fo : Focus) (w : Wave) (l : Nat) (ln : Lane) (d : Opd) (id : Word) : State × Out :=
  match ln.wait.map Wait.kind with
  | some (.advance _ _) => (s.acquire w true, statusOut d (leNat ln.got))
  | _ =>
    match s.resumed (laneAcc w ln false) ln with
    | some o => (s, o)
    | none =>
      if ln.answered then s.spubDone fo w l ln d (Tensor.ofBytes 0 (ln.got.drop (ln.got.length - 64)))
      else
        s.afterCopies fo l (
          if wbits id 31 16 != 0 then (s, .trap (noTensor (laneAcc w ln false) 0) false)
          else
            match s.entryVa w.asid (wbits id 15 0) with
            | none => (s, .trap (noTensor (laneAcc w ln true) 0) false)
            | some va => s.spubEntry fo w l ln d va)

/-- SPUB (R244). -/
def execSpub (d a : Opd) (s : State) : Host.Outcome State Fault Refusal :=
  .next (engineInstr s d (fun s' fo w l ln _ => s'.spubLane fo w l ln d (readOpd w l ln a)))

end Sys2Proof.Machine
end

