-- ==== Sys2Proof/Machine/Kiln.lean ====
section
/-! DEFINITION. The Kiln (R310 to R335): KLN instances, tiles and their shapes, the Wheel's arithmetic (R86 to R89), TLD to
TFILL, TMMA and TMMAQ, and the drain (R331 to R334). -/

namespace Sys2Proof.Machine

/-- A tile's shape (R256). -/
structure TileShape where
  rows : Nat
  cols : Nat
  fmt : Nat
  layout : Nat
  deriving DecidableEq, Repr

/-- The shape in TSHAPEn (R256, R311). -/
def Wave.shape (w : Wave) (t : Nat) : TileShape :=
  let v := sgetD w.ctl (8 + t) 0
  { rows := wbits v 8 0, cols := wbits v 17 9, fmt := wbits v 21 18, layout := wbits v 23 22 }

/-- A side of 16 to 256 in multiples of 16. -/
def sideOk (n : Nat) : Bool := decide (16 ≤ n) && decide (n ≤ 256) && n % 16 == 0

/-- The REASON of a bad shape (R311, R312). -/
def TileShape.bad (p : TileShape) : Option Nat :=
  if !sideOk p.rows || !sideOk p.cols then some 1
  else if 5 < p.fmt then some 3
  else if 1 < p.layout then some 4
  else if 524288 < p.rows * p.cols * elemBits p.fmt then some 2
  else none

/-- KILN_SHAPE (R312). DEDUCED, log entry 48. -/
def kilnShape (tile reason : Nat) : Trap := Trap.mk 0x23 0 (BitVec.ofNat 32 (tile * 256 + reason))

/-- The shape of a tile that an instruction names, or its trap. -/
def Wave.checkShape (w : Wave) (t : Nat) : Except Trap TileShape :=
  match (w.shape t).bad with
  | some r => .error (kilnShape t r)
  | none => .ok (w.shape t)

/-- Two tiles of one size. -/
def TileShape.same (p q : TileShape) : Bool := p.rows == q.rows && p.cols == q.cols

/-- Elements of n items out of bytes, of a format (R84). -/
def unpackElems (fmt n : Nat) (bs : List Byte) : List Nat :=
  (List.range n).map (fun k =>
    if fmt = 4 then elemOf 4 k (leNat ((bs.drop (k / 2)).take 1)) else leNat ((bs.drop (k * elemBytes fmt)).take (elemBytes fmt)))

/-- The bytes of a run of elements (R84). -/
def packElems (fmt : Nat) (xs : List Nat) : List Byte :=
  if fmt = 4 then (List.range ((xs.length + 1) / 2)).map (fun k => BitVec.ofNat 8 (xs.getD (2 * k) 0 % 16 + xs.getD (2 * k + 1) 0 % 16 * 16))
  else xs.flatMap (natLe (elemBytes fmt))

/-- A tile's elements, row by row, whatever its LAYOUT (R324). DESIGN CHOICE, log entry 47. -/
def Wave.tile (w : Wave) (t : Nat) (p : TileShape) : List Nat :=
  unpackElems p.fmt (p.rows * p.cols) (zread (sgetD w.tiles t []) 0 (p.rows * p.cols * elemBits p.fmt / 8))

/-- A tile with its elements replaced. -/
def Wave.setTile (w : Wave) (t fmt : Nat) (xs : List Nat) : Wave :=
  { w with tiles := sput w.tiles t (zwrite (sgetD w.tiles t []) 0 (packElems fmt xs)) }

/-- How a KLN instruction ends once its instance is complete. -/
inductive KlnOut where
  | done
  /-- Every lane of the set takes the trap (R316). -/
  | trap (t : Trap)
  /-- It stalls on a slot (R320). -/
  | stall (core slot : Nat)
  /-- It needs an access to another package, or a die link, or the host first. -/
  | need (t : Trap)
  /-- Its wave waits for the other waves of the quad (R330). -/
  | quad
  /-- It has ended its lanes itself. -/
  | ended
  deriving DecidableEq, Repr

/-- A trap of the instance, with what it has done before; or what it needs first: then nothing has been done on this package. -/
def klnTrap (s s1 : State) (t : Trap) : State × KlnOut :=
  if t.cause = 0 || (t.cause == 0x15 && t.aux == 3 && s.run.failed.isNone) then (s, .need t) else (s1, .trap t)

/-- The lanes of an instance put in a wait, those that are in one of that kind staying as they are. -/
def State.instWait (s : State) (fo : Focus) (x : XInst) (k : WaitKind) : State :=
  x.arrived.foldl (fun t a =>
    match (t.lane fo.wave a.lane).bind Lane.wait with
    | some wt => if wt.kind == k then t else (applyOut t fo a.lane false (.wait k)).1
    | none => (applyOut t fo a.lane false (.wait k)).1) s

/-- An instance ends: it closes, and its lanes end alike. -/
def State.instEnd (s : State) (fo : Focus) (x : XInst) (o : Out) : State :=
  let s1 := s.modWave fo.wave (fun w => w.setInst x.pc none)
  x.arrived.foldl (fun t a => (applyOut t fo a.lane false o).1) s1

/-- What becomes of an instance after its instruction has been tried: its lowest lane makes the accesses (R315). -/
def State.instOut (s : State) (fo : Focus) (x : XInst) (w : Wave) (l : Nat) (ln : Lane) (o : KlnOut) : State :=
  match o with
  | .done => s.instEnd fo x (.done none [] 0)
  | .trap t => s.instEnd fo x (.trap t false)
  | .stall core slot => s.instWait fo x (.slotReady core slot)
  | .need t => (s.trapOrAsk fo w l ln t).1
  | .quad => s.instWait fo x .quad
  | .ended => s

/-- One lane arrives at a KLN instruction (R314): in a handler it is a nested trap (R422). -/
def klnArrive (fo : Focus) (lanes : List Nat) (s : State) (l : Nat) : State :=
  match s.wave fo.wave with
  | none => s
  | some w =>
    match w.lane l with
    | none => s
    | some ln =>
      if ln.inTrap then s.fatal fo.wave l
      else
        let x := (instAt w fo.pc).getD { pc := fo.pc, kln := true, set := lanes, arrived := [] }
        if x.arrived.any (fun a => a.lane == l) then s
        else
          let a : Arrival := { lane := l, a := 0, n := 0, contributes := true, ftz := false }
          (applyOut (s.setWave fo.wave (w.setInst fo.pc (some { x with arrived := insertArrival a x.arrived }))) fo l false (.wait .inst)).1

/-- The lane of an instance as its accesses have left it: waits for the instance itself, for a slot or for the quad apart. -/
def Lane.accessing (ln : Lane) : Lane :=
  { ln with wait := ln.wait.filter (fun wt => match wt.kind with
    | .remote _ | .requests | .dieLink _ _ | .acks _ | .copies | .cxl => true
    | _ => false) }

/-- The lane of an instance, one of whose accesses has failed: with what it had before. -/
def Lane.unfailed (ln : Lane) : Lane := { ln with wait := ln.wait.map (fun wt => { wt with bytes := wt.before }) }

/-- The instruction is to run again and meet the failure of its last access: what precedes it stays done (R334). -/
def State.meeting (s : State) (t : Trap) : State := { s with run := { s.run with failed := some (t.cause, t.aux) } }

/-- A KLN instruction (R313 to R316): its lanes arrive; when all have, tile numbers, TILE_LOST, then the instruction for the
lowest-numbered lane. -/
def klnInstr (s : State) (tiles : Wave → List Nat) (f : State → Focus → Wave → Lane → State × KlnOut) : State :=
  match s.focus with
  | none => s
  | some fo =>
    match s.wave fo.wave with
    | none => s
    | some w0 =>
      let s1 := fo.lanes.foldl (klnArrive fo (skeys w0.lanes)) s
      match s1.wave fo.wave with
      | none => s1
      | some w =>
        match instAt w fo.pc with
        | none => s1
        | some x =>
          if !x.complete then s1
          else
            match x.arrived with
            | [] => s1
            | a :: _ =>
              match w.lane a.lane with
              | none => s1
              | some ln =>
                if (tiles w).any (fun t => decide (w.tileCount ≤ t)) then s1.instEnd fo x (.trap (operandTrap s) false)
                else if w.tileLost then
                  (s1.setWave fo.wave { w with tileLost := false }).instEnd fo x (.trap (Trap.mk 0x21 0 0) false)
                else
                  match s1.resumed (laneAcc w ln false) ln.accessing with
                  | some (.trap t _) =>
                    let r := f ((s1.withAcks ln).meeting t) fo w ln.unfailed
                    r.1.noRun.instOut fo x w a.lane ln r.2
                  | some _ => s1
                  | none =>
                    let r := f (s1.withAcks ln) fo w ln
                    r.1.noRun.instOut fo x w a.lane ln r.2

/-- A parameter register g(8+P) (R313). -/
def klnParam (w : Wave) (p : BitVec 3) : Word := w.greg (8 + p.toNat)

/-- A tile's line layout in scratchpad: lines, elements a line, bytes a line (R319). -/
def TileShape.lines (p : TileShape) : Nat := if p.layout = 0 then p.rows else p.cols
/-- R319. -/
def TileShape.lineElems (p : TileShape) : Nat := if p.layout = 0 then p.cols else p.rows
/-- R319. -/
def TileShape.lineBytes (p : TileShape) : Nat := p.lineElems * elemBits p.fmt / 8

/-- Row-major elements as lines of a layout, and back (R319). -/
def TileShape.toLines (p : TileShape) (xs : List Nat) : List (List Nat) :=
  (List.range p.lines).map (fun n => (List.range p.lineElems).map (fun x =>
    xs.getD (if p.layout = 0 then n * p.cols + x else x * p.cols + n) 0))

/-- R319. -/
def TileShape.ofLines (p : TileShape) (ls : List (List Nat)) : List Nat :=
  (List.range (p.rows * p.cols)).map (fun k =>
    let i := k / p.cols
    let j := k % p.cols
    if p.layout = 0 then (ls.getD i []).getD j 0 else (ls.getD j []).getD i 0)

/-- The checks of TLD and TST (R319, R320): the slot core, the physical offset of line 0 and the pitch, or how it ends; TILE_POISON where
the slot that it waited for has been poisoned (R127). -/
def State.tileSlot (s : State) (w : Wave) (ln : Lane) (t : Nat) (g : Word) (write : Bool) : Except KlnOut (Nat × Nat × Nat × TileShape) :=
  match w.checkShape t, sget s.blocks w.block, ln.slotLost with
  | .error e, _, _ => .error (.trap e)
  | _, _, some e => .error (.trap e)
  | _, none, _ => .error .done
  | .ok p, some k, none =>
    let pitch := if wbits g 31 20 = 0 then p.lineBytes else 16 * wbits g 31 20
    let i := wbits g 5 0
    let x := s.slot k.slotCore i
    if pitch < p.lineBytes then .error (.trap (kilnShape t 9))
    else if wbits g 7 6 != 0 then .error (.trap (slotProt w ln false 0 reasonSlotArg))
    else if x.foreign w.asid then .error (.trap (slotProt w ln false 0 reasonSlotOwner))
    else
      match x.st with
      | .poisoned => .error (.trap (tilePoison i x))
      | .empty | .filling | .draining => .error (.stall k.slotCore i)
      | .ready =>
        if 256 * x.size < 128 * wbits g 19 8 + (p.lines - 1) * pitch + p.lineBytes then
          .error (.trap (slotProt w ln write (128 * wbits g 19 8) reasonScrRange))
        else .ok (k.slotCore, 256 * x.base + 128 * wbits g 19 8, pitch, p)

/-- TLD (R318 to R320). -/
def execTld (t p : BitVec 3) (s : State) : Host.Outcome State Fault Refusal :=
  .next (klnInstr s (fun _ => [t.toNat]) (fun s1 fo w ln =>
    match s1.tileSlot w ln t.toNat (klnParam w p) false with
    | .error o => (s1, o)
    | .ok (core, base, pitch, sh) =>
      let ls := (List.range sh.lines).map (fun n => unpackElems sh.fmt sh.lineElems (s1.scratchRead core (base + n * pitch) sh.lineBytes))
      (s1.setWave fo.wave (w.setTile t.toNat sh.fmt (sh.ofLines ls)), .done)))

/-- TST (R318 to R320). -/
def execTst (t p : BitVec 3) (s : State) : Host.Outcome State Fault Refusal :=
  .next (klnInstr s (fun _ => [t.toNat]) (fun s1 _ w ln =>
    match s1.tileSlot w ln t.toNat (klnParam w p) true with
    | .error o => (s1, o)
    | .ok (core, base, pitch, sh) =>
      let ls := sh.toLines (w.tile t.toNat sh)
      ((List.range sh.lines).foldl (fun u n => u.scratchWrite core (base + n * pitch) (packElems sh.fmt (ls.getD n []))) s1, .done)))

/-- A tile filled with one element's bits (R321). -/
def fillTile (s : State) (t : BitVec 3) (v : Wave → Nat) : State :=
  klnInstr s (fun _ => [t.toNat]) (fun s1 fo w _ =>
    match w.checkShape t.toNat with
    | .error e => (s1, .trap e)
    | .ok sh => (s1.setWave fo.wave (w.setTile t.toNat sh.fmt (List.replicate (sh.rows * sh.cols) (v w % 2 ^ elemBits sh.fmt))), .done))

/-- TZERO (R321). -/
def execTzero (t : BitVec 3) (s : State) : Host.Outcome State Fault Refusal := .next (fillTile s t (fun _ => 0))

/-- TFILL (R321). -/
def execTfill (d p : BitVec 3) (s : State) : Host.Outcome State Fault Refusal := .next (fillTile s d (fun w => (klnParam w p).toNat))

/-- TTRANS (R323). -/
def execTtrans (d a : BitVec 3) (s : State) : Host.Outcome State Fault Refusal :=
  .next (klnInstr s (fun _ => [d.toNat, a.toNat]) (fun s1 fo w _ =>
    match w.checkShape d.toNat, w.checkShape a.toNat with
    | .error e, _ => (s1, .trap e)
    | _, .error e => (s1, .trap e)
    | .ok _, .ok sh =>
      let xs := w.tile a.toNat sh
      let out := (List.range (sh.rows * sh.cols)).map (fun k => xs.getD (k % sh.rows * sh.cols + k / sh.rows) 0)
      let v := BitVec.ofNat 32 (sh.cols + sh.rows * 2 ^ 9 + sh.fmt * 2 ^ 18 + sh.layout * 2 ^ 22)
      (s1.setWave fo.wave ({ w with ctl := sput w.ctl (8 + d.toNat) v }.setTile d.toNat sh.fmt out), .done)))

/-- A floating tile format (R322). -/
def floatFmt (f : Nat) : Bool := decide (f ≤ 2)

/-- The core's format of a floating code. -/
def fmtOf (f : Nat) : Fmt := match f with | 1 => bf16 | 2 => fp16 | _ => fp32

/-- A floating element as FP32, flushed, NaN canonical (R75). -/
def matrixWord (f x : Nat) : Nat := (fpConvert (fmtOf f) fp32 FpCtx.matrix x).bits

/-- FP32 bits into a floating format (R322, R332). -/
def matrixElem (f v : Nat) : Nat := (fpConvert fp32 (fmtOf f) FpCtx.matrix v).bits

/-- The integer an element of T8, T4 or I32 stands for, before its scale. -/
def elemInt (f x : Nat) : Int := signed (elemBits f) x

/-- q · 2^s rounded into a floating format (R322): once, from the exact value. -/
def scaledElem (f : Nat) (q : Int) (e : Int) : Nat :=
  if q = 0 then 0 else (roundTo (fmtOf f) FpCtx.matrix (q < 0) q.natAbs e false).bits

/-- What a conversion into a narrow format leaves to do: bits, or an outlier with its row, column and scale. -/
structure NarrowElem where
  row : Nat
  col : Nat
  v : Nat
  sc : Int
  q : Narrow
  deriving DecidableEq, Repr

/-- Outliers placed in row-major order from a first index (R92); the bits of every element come out in order. The list entries
before one that faults stay written. DESIGN CHOICE, log entry 100. -/
def State.placeAll (s : State) (a : Acc) (t : Tensor) (next : Nat) (xs : List NarrowElem) : State × Except Trap (List Nat) :=
  match xs with
  | [] => (s, .ok [])
  | x :: rest =>
    match x.q with
    | .q q =>
      match s.placeAll a t next rest with
      | (s1, .error e) => (s1, .error e)
      | (s1, .ok bs) => (s1, .ok (narrowBits t.fmt q :: bs))
    | .outlier kind =>
      match s.placeOutlier a t next x.row x.col x.v kind x.sc with
      | .error e => (s, .error e)
      | .ok (b, s1) =>
        match s1.placeAll a t (next + 1) rest with
        | (s2, .error e) => (s2, .error e)
        | (s2, .ok bs) => (s2, .ok (b :: bs))

/-- The number of outliers (R92). -/
def outliers (xs : List NarrowElem) : Nat := (xs.filter (fun x => match x.q with | .outlier _ => true | .q _ => false)).length

/-- Elements narrowed with one reservation (R92); t gives the sherd list, and its format is the one narrowed into. The count stays
raised when writing a list entry faults afterwards. DESIGN CHOICE, log entry 100. -/
def State.narrowAll (s : State) (a : Acc) (t : Tensor) (xs : List NarrowElem) : State × Except Trap (List Nat) :=
  match s.reserveSherd a.asid a.eng t (outliers xs) with
  | .error e => (s, .error e)
  | .ok (i0, s1) => s1.placeAll a t i0 xs

/-- TCVT (R322). -/
def execTcvt (d a p : BitVec 3) (s : State) : Host.Outcome State Fault Refusal :=
  .next (klnInstr s (fun _ => [d.toNat, a.toNat]) (fun s1 fo w ln =>
    match w.checkShape d.toNat, w.checkShape a.toNat with
    | .error e, _ => (s1, .trap e)
    | _, .error e => (s1, .trap e)
    | .ok dh, .ok ah =>
      let narrowD := dh.fmt = 3 || dh.fmt = 4
      if !dh.same ah then (s1, .trap (kilnShape d.toNat 5))
      else if !(floatFmt ah.fmt && (floatFmt dh.fmt || narrowD) || !floatFmt ah.fmt && floatFmt dh.fmt) then (s1, .trap (kilnShape d.toNat 6))
      else
        let g := klnParam w p
        let acc := laneAcc w ln false
        let xs := w.tile a.toNat ah
        let store (t : State) (ys : List Nat) : State × KlnOut := (t.modWave fo.wave (fun v => v.setTile d.toNat dh.fmt ys), .done)
        if floatFmt ah.fmt && floatFmt dh.fmt then store s1 (xs.map (fun x => matrixElem dh.fmt (matrixWord ah.fmt x)))
        else if wbits g 31 16 != 0 then (s1, .trap (noTensor acc 0))
        else
          match s1.readTensor w.asid (wbits g 15 0) false ln.got with
          | .error t => klnTrap s1 s1 t
          | .ok (e, _) =>
            let sc := int8 e.scale
            if !e.ok then (s1, .trap (noTensor acc 0))
            else if floatFmt dh.fmt then store s1 (xs.map (fun x => scaledElem dh.fmt (elemInt ah.fmt x) sc))
            else
              let ys := (List.range xs.length).map (fun k =>
                let v := matrixWord ah.fmt (xs.getD k 0)
                { row := k / ah.cols, col := k % ah.cols, v := v, sc := sc, q := narrowTo dh.fmt sc true v : NarrowElem })
              match s1.narrowAll { acc with write := true } { e with fmt := dh.fmt } ys with
              | (s2, .error t) => klnTrap s1 s2 t
              | (s2, .ok bits) => store s2 bits))

/-- A residue word (R86) with a product added to each channel. -/
def residueAdd (r : Nat) (p : Int) : Nat :=
  let ch (v m : Nat) : Nat := (((v : Int) + p) % (m : Int)).toNat
  ch (bitsOf r 7 0) 255 + ch (bitsOf r 15 8) 256 * 2 ^ 8 + ch (bitsOf r 24 16) 257 * 2 ^ 16 + ch (bitsOf r 31 25) 127 * 2 ^ 25

/-- The sum that a residue word stands for (R87). -/
def crt (r : Nat) : Int :=
  let x := (bitsOf r 7 0 * 8421376 + bitsOf r 15 8 * 16711425 + bitsOf r 24 16 * 8421120) % 16776960
  if 8388480 < x then (x : Int) - 16776960 else (x : Int)

/-- The check of R87. -/
def residueOk (r : Nat) : Bool := (crt r % 127).toNat == bitsOf r 31 25

/-- The addition of a pass to its accumulator, clamped, and whether it was (R87). -/
def passAdd (acc : Word) (y : Int) : Word × Bool :=
  let v := acc.toInt + y
  if 2147483647 < v then (0x7FFFFFFF, true) else if v < -2147483647 then (0x80000001, true) else (BitVec.ofInt 32 v, false)

/-- One floating element over slabs of k (R89): groups of eight exact products, each rounded once, added in order. -/
def floatChain (fmt : Nat) (acc : Word) (ps : List (Nat × Nat)) (groups : Nat) : Word :=
  match groups with
  | 0 => acc
  | n + 1 =>
    if ps.isEmpty then acc
    else
      let term (p : Nat × Nat) : Option FVal := FVal.mul ((fmtOf fmt).read true p.1) ((fmtOf fmt).read true p.2)
      let g := sumTerms fp32 FpCtx.matrix 0 ((ps.take 8).map term)
      floatChain fmt (BitVec.ofNat 32 (fpAdd fp32 FpCtx.matrix acc.toNat g.bits).bits) (ps.drop 8) n

/-- The format pairs of a multiply (R324). -/
def mmaFormats (fa fb : Nat) : Bool := (floatFmt fa && fa == fb) || ((fa == 3 || fa == 4) && (fb == 3 || fb == 4))

/-- The accumulator format of a pair (R324). -/
def accFmt (fa : Nat) : Nat := if floatFmt fa then 0 else 5

/-- The products of an output element: a's row and b's column. -/
def dotPairs (a b : List Nat) (k n i j : Nat) : List (Nat × Nat) :=
  (List.range k).map (fun x => (a.getD (i * k + x) 0, b.getD (x * n + j) 0))

/-- A matrix multiply (R324 to R327): C's words and whether any saturated, or the first element whose check fails. -/
def multiply (fa fb m k n : Nat) (a b c : List Nat) : Except (Nat × Nat) (List Nat × Bool) :=
  if floatFmt fa then
    .ok ((List.range (m * n)).map (fun e =>
      (floatChain fa (BitVec.ofNat 32 (c.getD e 0)) (dotPairs a b k n (e / n) (e % n)) (k / 8 + 1)).toNat), false)
  else
    let rs := (List.range (m * n)).map (fun e =>
      (dotPairs a b k n (e / n) (e % n)).foldl (fun r p => residueAdd r (elemInt fa p.1 * elemInt fb p.2)) 0)
    match rs.findIdx? (fun r => !residueOk r) with
    | some e => .error (e / n, e % n)
    | none =>
      let out := (List.range (m * n)).map (fun e => passAdd (BitVec.ofNat 32 (c.getD e 0)) (crt (rs.getD e 0)))
      .ok (out.map (fun x => x.1.toNat), out.any Prod.snd)

/-- KSTATUS bits set (R77, R327). -/
def Wave.setKstatus (w : Wave) (v : Word) : Wave := { w with ctl := sput w.ctl 21 (sgetD w.ctl 21 0 ||| v) }

/-- KILN_CHECK at an element (R327). DEDUCED, log entry 13. -/
def kilnCheck (e : Nat × Nat) : Trap := Trap.mk 0x22 0 (BitVec.ofNat 32 (e.1 * 65536 + e.2))

/-- The shapes and formats of a multiply agree (R324): the trap otherwise. -/
def mmaTrap (c : Nat) (ch ah bh : TileShape) : Option Trap :=
  if ah.cols != bh.rows || ah.rows != ch.rows || bh.cols != ch.cols then some (kilnShape c 5)
  else if !mmaFormats ah.fmt bh.fmt || ch.fmt != accFmt ah.fmt then some (kilnShape c 6)
  else none

/-- TMMA (R324 to R327); the reuse hints change timing only (R328). -/
def execTmma (c a b : BitVec 3) (_ra _rb : Bool) (s : State) : Host.Outcome State Fault Refusal :=
  .next (klnInstr s (fun _ => [c.toNat, a.toNat, b.toNat]) (fun s1 fo w _ =>
    match w.checkShape a.toNat, w.checkShape b.toNat, w.checkShape c.toNat with
    | .error e, _, _ => (s1, .trap e)
    | _, .error e, _ => (s1, .trap e)
    | _, _, .error e => (s1, .trap e)
    | .ok ah, .ok bh, .ok ch =>
      match mmaTrap c.toNat ch ah bh with
      | some e => (s1, .trap e)
      | none =>
        match multiply ah.fmt bh.fmt ah.rows ah.cols bh.cols (w.tile a.toNat ah) (w.tile b.toNat bh) (w.tile c.toNat ch) with
        | .error e => ({ s1.setWave fo.wave (w.setKstatus 2) with kilnChecks := s1.kilnChecks + 1 }, .trap (kilnCheck e))
        | .ok (out, sat) =>
          let w1 := w.setTile c.toNat ch.fmt out
          (s1.setWave fo.wave (if sat then w1.setKstatus 1 else w1), .done)))

/-- A wave's position in its quad (R329). -/
def State.quadPos (s : State) (w : Wave) : Nat := physCore (s.harvest.getD w.die 0) w.core % 4

/-- The number of enabled cores of a wave's quad. -/
def State.quadSize (s : State) (w : Wave) : Nat :=
  ((List.range 4).filter (fun i => bitOf (s.harvest.getD w.die 0) (4 * s.quadOf w.die w.core + i))).length

/-- The four waves of a quad instance end alike (R330). -/
def State.quadEnd (s : State) (fo : Focus) (us : List Nat) (o : Out) : State :=
  us.foldl (fun t u => match (t.wave u).bind (fun w => instAt w fo.pc) with
    | some x => t.instEnd { fo with wave := u } x o
    | none => t) s

/-- The result of each of the four cores, or how all four end (R329, R330). -/
def quadProducts (c a b : Nat) (w0 w1 w2 w3 : Wave) : Except Trap (List (List Nat × Bool)) :=
  let a0 := w0.shape a
  let b0 := w0.shape b
  let a1 := w3.shape a
  let b1 := w3.shape b
  let ws := [w0, w1, w2, w3]
  let cs := ws.map (fun w => w.shape c)
  let m := a0.rows
  let k := a0.cols
  let n := b0.cols
  if cs.any (fun p => p.rows != m || p.cols != n) || a1.rows != m || a1.cols != k || b0.rows != k || b1.rows != k || b1.cols != n then
    .error (kilnShape c 5)
  else if [a0, a1].any (fun p => [b0, b1].any (fun q => !mmaFormats p.fmt q.fmt)) ||
      cs.any (fun p => p.fmt != accFmt a0.fmt) then .error (kilnShape c 6)
  else
    let one (i : Nat) (w : Wave) : Except (Nat × Nat) (List Nat × Bool) :=
      let ap := if i / 2 = 0 then (w0, a0) else (w3, a1)
      let bp := if i % 2 = 0 then (w0, b0) else (w3, b1)
      multiply ap.2.fmt bp.2.fmt m k n (ap.1.tile a ap.2) (bp.1.tile b bp.2) (w.tile c (w.shape c))
    match one 0 w0, one 1 w1, one 2 w2, one 3 w3 with
    | .ok p, .ok q, .ok r, .ok t => .ok [p, q, r, t]
    | .error e, _, _, _ => .error (kilnCheck e)
    | _, .error e, _, _ => .error (kilnCheck e)
    | _, _, .error e, _ => .error (kilnCheck e)
    | _, _, _, .error e => .error (kilnCheck e)

/-- The quad instance executes (R329, R330). -/
def State.quadRun (s : State) (fo : Focus) (c a b : Nat) (u0 u1 u2 u3 : Nat) : State :=
  let us := [u0, u1, u2, u3]
  match s.wave u0, s.wave u1, s.wave u2, s.wave u3 with
  | some w0, some w1, some w2, some w3 =>
    match quadProducts c a b w0 w1 w2 w3 with
    | .error t =>
      let s1 := if t.cause = 0x22 then
          { us.foldl (fun t u => t.modWave u (fun w => w.setKstatus 2)) s with kilnChecks := s.kilnChecks + 1 } else s
      s1.quadEnd fo us (.trap t false)
    | .ok outs =>
      let s1 := (us.zip outs).foldl (fun t e => t.modWave e.1 (fun w =>
        let w1 := w.setTile c (w.shape c).fmt e.2.1
        if e.2.2 then w1.setKstatus 1 else w1)) s
      s1.quadEnd fo us (.done none [] 0)
  | _, _, _, _ => s

/-- A TMMAQ at which a wave at each position has arrived (R330, R335): it starts to run on the quad's four Kilns once no other block's
runs there, and it executes when it is next selected. -/
def State.quadMet (s : State) (fo : Focus) (w : Wave) (k : Block) (c a b : Nat) (us : List Nat) : State × KlnOut :=
  let close (t : State) : State := t.modBlock w.block (fun x => { x with quadInsts := sdel x.quadInsts fo.pc.toNat, quadOn := none })
  match s.quadRuns k, us with
  | some (pc, _, _), [u0, u1, u2, u3] =>
    if pc = fo.pc then (close (s.quadRun fo c a b u0 u1 u2 u3), .ended) else (s, .quad)
  | none, [_, _, _, _] => (if s.quadBusy w then s else s.modBlock w.block (fun x => { x with quadOn := some (fo.pc, c) }), .quad)
  | _, _ => (s, .quad)

/-- A wave of a block arrives at a TMMAQ at a position (R330). -/
def State.quadJoin (s : State) (fo : Focus) (w : Wave) (k : Block) (pos : Nat) : State :=
  let now := sput (s.quadArrived k fo.pc) pos fo.wave
  s.modBlock w.block (fun x => { x with quadInsts := sput x.quadInsts fo.pc.toNat now,
                                        quadOn := if (s.quadRuns k).isSome then x.quadOn else none })

/-- TMMAQ (R329, R330). -/
def execTmmaq (c a b : BitVec 3) (_ra _rb : Bool) (s : State) : Host.Outcome State Fault Refusal :=
  .next (klnInstr s (fun w => if s.quadPos w = 0 || s.quadPos w = 3 then [c.toNat, a.toNat, b.toNat] else [c.toNat])
    (fun s1 fo w _ =>
      let pos := s1.quadPos w
      let bad := (if pos = 0 || pos = 3 then [c.toNat, a.toNat, b.toNat] else [c.toNat]).findSome? (fun t => match w.checkShape t with
        | .error e => some e
        | .ok _ => none)
      if s1.quadSize w < 4 then (s1, .trap (kilnShape 0 7))
      else
        match bad, sget s1.blocks w.block with
        | some e, _ => (s1, .trap e)
        | none, none => (s1, .done)
        | none, some k =>
          match sget (s1.quadArrived k fo.pc) pos with
          | some u => if u = fo.wave then s1.quadMet fo w k c.toNat a.toNat b.toNat ((s1.quadArrived k fo.pc).map Prod.snd) else (s1, .trap (kilnShape 0 8))
          | none =>
            let s2 := s1.quadJoin fo w k pos
            match sget s2.blocks w.block with
            | some k2 => s2.quadMet fo w k2 c.toNat a.toNat b.toNat ((s2.quadArrived k2 fo.pc).map Prod.snd)
            | none => (s2, .quad)))

/-- What a drain does to each element (R332), whoever makes it. -/
structure DrainSpec where
  /-- The accumulator is I32. -/
  i32 : Bool
  neg : Bool
  act : Nat
  lo : Nat
  hi : Nat
  rscale : Nat
  /-- Dropout: seed, step, threshold, scale (R333). -/
  drop : Option (Nat × Nat × Nat × Nat)
  deriving DecidableEq, Repr

/-- The dropout hash (R333). -/
def dropHash (seed step r c : Nat) : Nat :=
  let z0 : BitVec 64 := BitVec.ofNat 64 seed + 0x9E3779B97F4A7C15 *
    ((BitVec.ofNat 64 step <<< 40) ^^^ (BitVec.ofNat 64 (r % 2 ^ 20) <<< 20) ^^^ BitVec.ofNat 64 (c % 2 ^ 20))
  let z1 := (z0 ^^^ (z0 >>> 30)) * 0xBF58476D1CE4E5B9
  let z2 := (z1 ^^^ (z1 >>> 27)) * 0x94D049BB133111EB
  ((z2 ^^^ (z2 >>> 31)) >>> 40).toNat

/-- NaN bits of FP32. -/
def isNaN32 (v : Nat) : Bool := (fp32.value v).isNaN

/-- Steps 1 to 6 of R332 on one element: FP32 bits. w is the residual as a value. -/
def DrainSpec.elem (p : DrainSpec) (acc : Nat) (sab : Int) (scale bias : Option Nat) (w : Option FVal) (r c : Nat) : Nat :=
  let x := FpCtx.matrix
  let v0 := if p.i32 then scaledWord true (signed 32 acc) sab else matrixWord 0 acc
  let v1 := if p.neg && !isNaN32 v0 then v0 ^^^ 0x80000000 else v0
  let v2 := match scale with | some k => (fpMul fp32 x v1 k).bits | none => v1
  let v3 := match bias with | some k => (fpAdd fp32 x v2 k).bits | none => v2
  let v4 := match w with
    | some u => (sumTerms fp32 x 0 [some (fp32.read true v3), FVal.mul u (fp32.read true p.rscale)]).bits
    | none => v3
  let v5 := match p.drop with
    | some (seed, step, limit, k) => if limit ≤ dropHash seed step r c then (fpMul fp32 x v4 k).bits else 0
    | none => v4
  if isNaN32 v5 then v5
  else if p.act = 1 then (if bitOf v5 31 then 0 else v5)
  else if p.act = 2 then (fpMinMax fp32 x false (fpMinMax fp32 x true v5 p.lo).bits p.hi).bits
  else v5

/-- The residual's value of an element's bits (R332): widened, or q·2^s, exact and not flushed where it is subnormal in FP32 (R75).
DESIGN CHOICE, log entry 115. -/
def residualOf (fmt : Nat) (sc : Int) (x : Nat) : FVal :=
  if floatFmt fmt then (fmtOf fmt).read true x
  else
    let q := elemInt fmt x
    .fin (q < 0) q.natAbs sc

/-- The words of a column vector used by a drain (R332). -/
def State.drainVec (s : State) (a : Acc) (use : Bool) (va c0 n : Nat) (rem : List Byte) : Except Trap (Option (List Nat) × List Byte) :=
  if !use then .ok (none, rem)
  else
    match s.engRead a (va + 4 * c0) (4 * n) rem with
    | .error t => .error t
    | .ok (bs, rem', _) => .ok (some ((List.range n).map (fun j => leNat ((bs.drop (4 * j)).take 4))), rem')

/-- Every destination element lies in a tensor (R160, R334). -/
def Tensor.holds (e : Tensor) (r0 c0 rows cols : Nat) : Bool := e.inside [c0 + cols - 1, r0 + rows - 1, 0, 0, 0]

/-- Every page of a destination row translates (R334, R339). -/
def State.rowFault (s : State) (a : Acc) (e : Tensor) (base r c0 cols : Nat) : Option Trap :=
  let first := base + e.byteOf (e.index [c0, r, 0, 0, 0])
  let last := base + e.byteOf (e.index [c0 + cols - 1, r, 0, 0, 0]) + elemBytes e.fmt
  s.pagesFault a first (last - first) ((last - first) / 4096 + 2)

/-- The scales of destination elements that are narrowed, element by element (R85). -/
def State.drainScales (s : State) (a : Acc) (e : Tensor) (cells : List (Nat × Nat)) (rem : List Byte) : Except Trap (List Int × List Byte) :=
  match cells with
  | [] => .ok ([], rem)
  | (r, c) :: rest =>
    match s.scaleOf a e r c rem with
    | .error t => .error t
    | .ok (sc, rem1) =>
      match s.drainScales a e rest rem1 with
      | .error t => .error t
      | .ok (scs, rem2) => .ok (sc :: scs, rem2)

/-- The elements of a drain stored in order: those before a fault stay written (R334). -/
def State.storeElems (s : State) (a : Acc) (e : Tensor) (base : Nat) (xs : List (Nat × Nat)) : State × Option Trap :=
  match xs with
  | [] => (s, none)
  | (idx, bits) :: rest =>
    match s.elemStore a e base idx bits with
    | (s1, some t) => (s1, some t)
    | (s1, none) => s1.storeElems a e base rest

/-- Step 7 of R332 into a tensor at (r0, c0): converted, narrowed with one reservation, stored. -/
def State.drainTensor (s : State) (a : Acc) (e : Tensor) (shadow : Bool) (r0 c0 cols : Nat) (vs : List Nat) (rem : List Byte) :
    State × Option Trap :=
  let base := if shadow then e.shadow else e.live
  let cells := (List.range vs.length).map (fun k => (r0 + k / cols, c0 + k % cols))
  let at_ (bits : List Nat) : List (Nat × Nat) := (cells.map (fun x => e.index [x.2, x.1, 0, 0, 0])).zip bits
  if e.fmt = 3 || e.fmt = 4 then
    match s.drainScales { a with write := false } e cells rem with
    | .error t => (s, some t)
    | .ok (scs, _) =>
      let xs := (cells.zip (scs.zip vs)).map (fun x =>
        { row := x.1.1, col := x.1.2, v := x.2.2, sc := x.2.1, q := narrowTo e.fmt x.2.1 true x.2.2 : NarrowElem })
      match s.narrowAll a e xs with
      | (s1, .error t) => (s1, some t)
      | (s1, .ok bits) => s1.storeElems a e base (at_ bits)
  else s.storeElems a e base (at_ (vs.map (matrixElem e.fmt)))

/-- A drain record (R331). -/
structure DrainRec where
  ok : Bool
  tid : Nat
  shadow : Bool
  toTile : Bool
  dTile : Nat
  rTile : Nat
  resEn : Bool
  dropEn : Bool
  scEn : Bool
  biEn : Bool
  row0 : Nat
  col0 : Nat
  scaleVa : Nat
  biasVa : Nat
  sab : Int
  el : DrainSpec
  deriving DecidableEq, Repr

/-- A drain record from its 64 bytes, for a wave (R331, R333). -/
def DrainRec.ofBytes (w : Wave) (i32 : Bool) (bs : List Byte) : DrainRec :=
  let v := leNat bs
  let ctl (i : Nat) : Nat := (sgetD w.ctl i 0).toNat
  { ok := bitsOf v 27 26 != 3 && bitsOf v 511 361 == 0 && bitsOf v 351 320 == 0 && bitsOf v 287 275 == 0 && bitsOf v 223 211 == 0 &&
      bitsOf v 95 84 == 0 && bitsOf v 63 52 == 0 && !bitOf v 31,
    tid := bitsOf v 15 0, shadow := bitOf v 16, toTile := bitOf v 17, dTile := bitsOf v 20 18, rTile := bitsOf v 23 21, resEn := bitOf v 24,
    dropEn := bitOf v 25, scEn := bitOf v 29, biEn := bitOf v 30, row0 := bitsOf v 51 32, col0 := bitsOf v 83 64,
    scaleVa := bitsOf v 210 160 * 64, biasVa := bitsOf v 274 224 * 64, sab := signed 9 (bitsOf v 360 352),
    el := { i32 := i32, neg := bitOf v 28, act := bitsOf v 27 26, lo := bitsOf v 127 96, hi := bitsOf v 159 128, rscale := bitsOf v 319 288,
            drop := if bitOf v 25 then some (ctl 17 * 2 ^ 32 + ctl 16, ctl 20 % 2 ^ 24, ctl 18 % 2 ^ 24, ctl 19) else none } }

/-- Checks 2 to 4 of R334: the shape of DTILE and of RTILE where they are named. -/
def DrainRec.tileTrap (d : DrainRec) (w : Wave) (a : Nat) (ah : TileShape) : Option Trap :=
  let named := (if d.toTile then [d.dTile] else []) ++ (if d.resEn then [d.rTile] else [])
  if !d.ok then some (kilnShape a 6)
  else
    match named.find? (fun t => decide (w.tileCount ≤ t)) with
    | some t => some (kilnShape t 10)
    | none =>
      match named.findSome? (fun t => (w.shape t).bad.map (kilnShape t)) with
      | some e => some e
      | none =>
        if d.toTile && !(w.shape d.dTile).same ah then some (kilnShape d.dTile 5)
        else if d.toTile && !floatFmt (w.shape d.dTile).fmt then some (kilnShape d.dTile 6)
        else if d.resEn && !(w.shape d.rTile).same ah then some (kilnShape d.rTile 5)
        else none

/-- Check 5 of R334 on the destination tensor. -/
def DrainRec.tensorTrap (d : DrainRec) (acc : Acc) (a : Nat) (ah : TileShape) (e : Tensor) : Option Trap :=
  if d.toTile then none
  else if !e.ok then some (noTensor acc 0)
  else if 4 < e.fmt then some (kilnShape a 6)
  else if !e.holds d.row0 d.col0 ah.rows ah.cols then some (protFault acc 0 0 reasonTensorRange)
  else if d.shadow && e.shadow = 0 then some (noTensor acc 0)
  else none

/-- Check 6 of R334: every page translates. -/
def State.drainPages (s : State) (d : DrainRec) (acc : Acc) (ah : TileShape) (e : Tensor) : Option Trap :=
  let vec (use : Bool) (va : Nat) : Option Trap :=
    if use then s.pagesFault { acc with write := false } (va + 4 * d.col0) (4 * ah.cols) (4 * ah.cols / 4096 + 2) else none
  (vec d.scEn d.scaleVa).or ((vec d.biEn d.biasVa).or
    (if d.toTile then none
     else (List.range ah.rows).findSome? (fun i => s.rowFault acc e (if d.shadow then e.shadow else e.live) (d.row0 + i) d.col0 ah.cols)))

/-- The drained elements of a TDRAIN, row by row (R332). -/
def DrainRec.values (d : DrainRec) (w : Wave) (a : Nat) (ah : TileShape) (tscale : Int) (scale bias : Option (List Nat)) : List Nat :=
  let acc := w.tile a ah
  let res := if d.resEn then some (w.tile d.rTile (w.shape d.rTile)) else none
  (List.range acc.length).map (fun k =>
    let i := k / ah.cols
    let j := k % ah.cols
    d.el.elem (acc.getD k 0) d.sab (scale.map (fun v => v.getD j 0)) (bias.map (fun v => v.getD j 0))
      (res.map (fun v => residualOf (w.shape d.rTile).fmt tscale (v.getD k 0))) (d.row0 + i) (d.col0 + j))

/-- TDRAIN once its record is read (R332, R334). -/
def State.drainRun (s : State) (fo : Focus) (w : Wave) (a : Nat) (ah : TileShape) (d : DrainRec) (acc : Acc) (rem : List Byte) :
    State × KlnOut :=
  match d.tileTrap w a ah with
  | some t => (s, .trap t)
  | none =>
    let entry : Except Trap (Tensor × List Byte) :=
      if d.toTile && !(d.resEn && 3 ≤ (w.shape d.rTile).fmt) then .ok (Tensor.none, rem) else s.readTensor w.asid d.tid false rem
    match entry with
    | .error t => klnTrap s s t
    | .ok (e, rem1) =>
      match (d.tensorTrap acc a ah e).or (s.drainPages d acc ah e) with
      | some t => klnTrap s s t
      | none =>
        let rd := { acc with write := false }
        match s.drainVec rd d.scEn d.scaleVa d.col0 ah.cols rem1 with
        | .error t => klnTrap s s t
        | .ok (scale, rem2) =>
          match s.drainVec rd d.biEn d.biasVa d.col0 ah.cols rem2 with
          | .error t => klnTrap s s t
          | .ok (bias, rem3) =>
            let vs := d.values w a ah (int8 e.scale) scale bias
            if d.toTile then
              let f := (w.shape d.dTile).fmt
              (s.setWave fo.wave (w.setTile d.dTile f (vs.map (matrixElem f))), .done)
            else
              match s.drainTensor acc e d.shadow d.row0 d.col0 ah.cols vs rem3 with
              | (s1, some t) => klnTrap s s1 t
              | (s1, none) => (s1, .done)

/-- TDRAIN (R331 to R334): the accesses are those of the lowest-numbered lane (R315). -/
def execTdrain (t p : BitVec 3) (s : State) : Host.Outcome State Fault Refusal :=
  .next (klnInstr s (fun _ => [t.toNat]) (fun s1 fo w ln =>
    match w.checkShape t.toNat with
    | .error e => (s1, .trap e)
    | .ok ah =>
      let va := (klnParam w p).toNat + (klnParam w (p + 1)).toNat * 2 ^ 32
      let acc := laneAcc w ln false
      if ah.fmt != 0 && ah.fmt != 5 then (s1, .trap (kilnShape t.toNat 6))
      else if va % 64 != 0 then (s1, .trap (Trap.mk 0x12 va 0))
      else
        match s1.laneRead w.coreKey acc va 64 ln.got with
        | .error e => klnTrap s1 s1 e
        | .ok (bs, rem, s2) => s2.drainRun fo w t.toNat ah (DrainRec.ofBytes w (ah.fmt == 5) bs) (laneAcc w ln true) rem))

end Sys2Proof.Machine
end

