-- ==== Sys2Proof/Machine/Receive.lean ====
section
/-! DEFINITION. The receive engine (R203 to R221): posts, matching, landing and completion, KPOST, Thrumino messages,
ST 2110-20 streams, and the time and address protocols of the Ethernet ports. -/

namespace Sys2Proof.Machine

/-- Bits of a post's record (R205). -/
def Post.bits (p : Post) (hi lo : Nat) : Nat := bitsOf (leNat p.record) hi lo

/-- FRAME. -/
def Post.frame (p : Post) : Bool := p.bits 208 208 == 1

/-- OFFSET. -/
def Post.offset (p : Post) : Nat := p.bits 271 224

/-- CAPACITY. -/
def Post.capacity (p : Post) : Nat := p.bits 319 288

/-- STALLUS. -/
def Post.stall (p : Post) : Nat := p.bits 415 384

/-- SOURCE under SRCMASK (R208). -/
def Post.takesSource (p : Post) (source : Word) : Bool :=
  (source ^^^ BitVec.ofNat 32 (p.bits 159 128)) &&& BitVec.ofNat 32 (p.bits 191 160) == 0

/-- The tag under TAGMASK (R208). -/
def Post.takesTag (p : Post) (tag : Nat) : Bool :=
  (BitVec.ofNat 64 tag ^^^ BitVec.ofNat 64 (p.bits 63 0)) &&& BitVec.ofNat 64 (p.bits 127 64) == 0

/-- SOURCE of a stream (R204). -/
def streamSource (source : Word) : Bool := wbits source 31 29 == 2

/-- A post that has taken no message yet, or holds a frame, and has not ended. -/
def Post.live (p : Post) : Bool := p.landing.isNone && p.ending.isNone && !p.closing

/-- A live post that a message matches (R208), but for the fit of a frame post. -/
def Post.takes (p : Post) (source : Word) (tag : Nat) : Bool :=
  p.live && p.takesSource source && p.takesTag tag && p.frame == streamSource source

/-- The access of the engine for a post (R474). -/
def Post.acc (p : Post) : Acc := engAcc p.asid p.priv

/-- The tensor of a post, as the engine reads its entry to land through it. -/
def State.postTensor (s : State) (p : Post) (rem : List Byte) : Except Trap (Tensor × List Byte) :=
  match s.readTensor p.asid (p.bits 207 192) true rem with
  | .ok (e, rem1) => if e.ok then .ok (e, rem1) else .error (noTensor p.acc e.va)
  | .error t => .error t

/-- The port at an index of the object table. -/
def State.portIdx (s : State) (idx : Nat) : Option Port :=
  match (s.obj idx).body with
  | some (.port p) => some p
  | _ => none

/-- The state with a post of a port changed. -/
def State.modPost (s : State) (idx n : Nat) (f : Post → Post) : State :=
  match s.portIdx idx with
  | some p => s.setPort idx { p with posts := p.posts.modify n f }
  | none => s

/-- A completion without a message (R214, R221). -/
def Completion.bare (status : Nat) : Completion :=
  { status := status, source := 0, tag := 0, bytes := 0, lines := 0, faultCode := 0, faultVa := 0, first := 0, last := 0 }

/-- The record of R212. -/
def Completion.record (c : Completion) (key : Nat) : List Byte :=
  natLe 64 (key + c.tag % 2 ^ 64 * 2 ^ 64 + c.source.toNat * 2 ^ 128 + c.status * 2 ^ 160 + c.faultCode * 2 ^ 168 +
    c.lines % 65536 * 2 ^ 176 + c.bytes % 2 ^ 64 * 2 ^ 192 + c.first % 2 ^ 64 * 2 ^ 256 + c.last % 2 ^ 64 * 2 ^ 320 +
    c.faultVa % 2 ^ 64 * 2 ^ 384)

/-- A port without its n-th post. -/
def Port.without (p : Port) (n : Nat) : Port := { p with posts := p.posts.eraseIdx n }

/-- The n-th post of a port has ended (R212): its writes come next. -/
def State.endPost (s : State) (idx n : Nat) (c : Completion) : State :=
  s.modPost idx n (fun p => { p with landing := none, srds := [], ending := some c })

/-- A payload landed through a post (R211): the completion it gives, or what it needs first. -/
def State.land (s : State) (post : Post) (source : Word) (tag : Nat) (bytes : List Byte) (time : Nat) (rem : List Byte) :
    Except Trap (State × Completion) :=
  let kept := min bytes.length post.capacity
  let c : Completion :=
    { status := if post.capacity < bytes.length then 1 else 0, source := source, tag := tag, bytes := kept, lines := 0, faultCode := 0,
      faultVa := 0, first := time, last := time }
  let fault (t : State) (x : Trap) (done : Nat) : Except Trap (State × Completion) :=
    if x.cause = 0 then .error x else .ok (t.noteBad x, { c with status := 3, bytes := done, faultCode := x.cause, faultVa := x.va })
  match s.postTensor post rem with
  | .error x => fault s x 0
  | .ok (e, _) =>
    let start := e.live + post.offset
    if e.span < post.offset + kept then fault s (protFault { post.acc with write := true } start 0 reasonTensorRange) 0
    else
      match s.engWrite post.acc start (bytes.take kept) with
      | (s1, some x) => fault s1 x (x.va - start)
      | (s1, none) => .ok (s1, c)

/-- A rendezvous that has matched: a lane's is no longer given up (R254), another package's payload is asked for (R210). -/
def State.bindSender (s : State) (x : Option Sender) : State :=
  match x with
  | some (.lane u l n _) => s.modLane u l (fun ln =>
      { ln with wait := ln.wait.map (fun wt => if wt.kind == .rendezvous n then { wt with kind := .send n } else wt) })
  | some (.away pkg seq) => s.tellLogen pkg (.pull seq)
  | none => s

/-- An answer to another package's message, kept so that a repeat is answered alike (R435). -/
def State.replyKmsg (s : State) (pkg seq status value : Nat) : State :=
  { s with kmsgSeen := sput s.kmsgSeen pkg (sput (sgetD s.kmsgSeen pkg []) seq (value * 256 + status)) }.sendFlit 0 (.kmsgReply pkg seq status value)

/-- The sender of a rendezvous gets its status (R394, R214). -/
def State.answerSender (s : State) (x : Option Sender) (status : Nat) : State :=
  match x with
  | some (.lane _ _ n _) => s.release (fun k => k == WaitKind.send n || k == WaitKind.rendezvous n) status 0 []
  | some (.away pkg seq) => s.replyKmsg pkg seq status 0
  | none => s

/-- Whether the sender of a payload that lands is still there (R211): a lane lost to a reset is not. DEDUCED, log entry 57. -/
def State.senderThere (s : State) (x : Sender) : Bool :=
  match x with
  | .away _ _ => true
  | .lane u l n _ =>
    match s.lane u l with
    | some ln => (ln.wait.map Wait.kind == some (.send n)) || ln.parked.any (fun q => q.wait.kind == .send n)
    | none => false

/-- The privilege of a lane's KSEND (R474): of the lane that waits, or of the code that its handler has interrupted in it. -/
def Lane.sendPriv (ln : Lane) (n : Nat) : Bool :=
  if ln.inTrap && ln.parked.any (fun q => !q.inTrap && q.wait.kind == .send n) then ln.privState.getLsbD 30 else ln.isPriv

/-- The payload of a message that has matched (R210): a lane's is read from its memory as it lands. -/
def State.payload (s : State) (e : Unexpected) (rem : List Byte) : Except Trap (List Byte × List Byte) :=
  match e.sender with
  | some (.lane u l n va) =>
    match s.wave u, s.lane u l with
    | some w, some ln =>
      match s.engRead (engAcc w.asid (ln.sendPriv n)) va e.len rem with
      | .ok (bs, rem1, _) => .ok (bs, rem1)
      | .error t => .error t
    | _, _ => .ok ([], rem)
  | some (.away _ _) | none => .ok (e.bytes, rem)

/-- The payload of another package's rendezvous has not come yet (R210). -/
def Unexpected.expects (e : Unexpected) : Bool :=
  match e.sender with
  | some (.away _ _) => e.bytes.length != e.len
  | _ => false

/-- A message that a post has taken lands (R210, R211). -/
def State.landEntry (s : State) (idx n : Nat) (post : Post) (e : Unexpected) (rem : List Byte) : Except Trap State :=
  if !(e.sender.map s.senderThere).getD true then .ok (s.endPost idx n { Completion.bare 5 with source := e.source, tag := e.tag })
  else
    match s.payload e rem with
    | .error t =>
      if t.cause = 0 then .error t
      else .ok (((s.noteBad t).endPost idx n
        { Completion.bare 3 with source := e.source, tag := e.tag, faultCode := t.cause, faultVa := t.va }).answerSender e.sender 0)
    | .ok (bs, rem1) =>
      match s.land post e.source e.tag bs e.time rem1 with
      | .error t => .error t
      | .ok (s1, c) => .ok ((s1.endPost idx n c).answerSender e.sender 0)

/-- The condition of R206 on a post with FRAME 0. -/
def Post.fitsTensor (p : Post) (e : Tensor) : Bool := decide (p.offset + p.capacity ≤ e.span)

/-- Bits of a stream's record (R218). -/
def StreamObj.bits (t : StreamObj) (hi lo : Nat) : Nat := bitsOf (leNat t.record) hi lo

/-- HEIGHT. -/
def StreamObj.height (t : StreamObj) : Nat := t.bits 207 192
/-- WIDTH. -/
def StreamObj.width (t : StreamObj) : Nat := t.bits 191 176
/-- PLANAR. -/
def StreamObj.planar (t : StreamObj) : Bool := t.bits 163 163 == 1
/-- SAMPLING. -/
def StreamObj.sampling (t : StreamObj) : Nat := t.bits 162 161
/-- Pixels of a pgroup (R219). -/
def StreamObj.pgPixels (t : StreamObj) : Nat := if t.sampling = 0 then 2 else 4
/-- Bytes of a pgroup (R219). -/
def StreamObj.pgBytes (t : StreamObj) : Nat := if t.sampling = 0 then 5 else 15
/-- Bytes of a line (R206). -/
def StreamObj.lineBytes (t : StreamObj) : Nat := t.width / t.pgPixels * t.pgBytes

/-- A frame post's tensor fits a stream (R206). -/
def Post.fits (p : Post) (t : StreamObj) (e : Tensor) : Bool :=
  let d (k : Nat) : Nat := e.dims.getD k 0
  if t.planar then
    (e.fmt == 1 || e.fmt == 2) && decide (3 ≤ e.ndim) && decide (t.width ≤ d 0) && decide (t.height ≤ d 1) && decide (3 ≤ d 2) &&
      (List.range 3).all (fun c =>
        let w := if t.sampling = 0 && c != 0 then t.width / 2 else t.width
        decide (p.offset + 2 * e.index [w - 1, t.height - 1, c, 0, 0] + 2 ≤ e.span))
  else
    e.fmt == 3 && decide (2 ≤ e.ndim) && decide (t.lineBytes ≤ d 0) && decide (t.height ≤ d 1) &&
      decide (p.offset + e.index [t.lineBytes - 1, t.height - 1, 0, 0, 0] + 1 ≤ e.span)

/-- SOURCE of a stream's messages (R219). -/
def streamWord (idx : Nat) : Word := BitVec.ofNat 32 (0x40000000 + idx % 2 ^ 20)

/-- The streams bound to a port (R218). -/
def State.streamsOf (s : State) (port : Nat) : List (Nat × StreamObj) :=
  s.objs.filterMap (fun e => match e.2.body with
    | some (.stream t) => if t.port = port then some (e.1, t) else none
    | _ => none)

/-- The validity of a post record (R206). -/
def State.postOk (s : State) (port : Nat) (p : Post) : Bool :=
  p.entry.ok &&
  (if p.frame then
    p.bits 159 157 == 2 && p.bits 191 189 == 7 && p.bits 511 448 % 64 == 0 &&
      (s.streamsOf port).all (fun e => !p.takesSource (streamWord e.1) || p.fits e.2 p.entry)
   else p.fitsTensor p.entry)

/-- Whether one of the SRDs taken covers a byte of a line. -/
def covered (taken : List (Nat × Nat × Nat)) (line x : Nat) : Bool :=
  taken.any (fun r => r.1 == line && decide (r.2.1 ≤ x) && decide (x < r.2.1 + r.2.2))

/-- The pgroups of a line, by their first bytes. -/
def StreamObj.groups (t : StreamObj) : List Nat := (List.range (t.lineBytes / t.pgBytes)).map (fun g => g * t.pgBytes)

/-- A line every byte of which has counted (R221). -/
def StreamObj.lineDone (t : StreamObj) (taken : List (Nat × Nat × Nat)) (line : Nat) : Bool := t.groups.all (covered taken line)

/-- The complete lines of a frame (R221). -/
def StreamObj.linesDone (t : StreamObj) (taken : List (Nat × Nat × Nat)) : List Nat := (List.range t.height).filter (t.lineDone taken)

/-- The bytes counted in a frame (R221): each once. -/
def StreamObj.counted (t : StreamObj) (taken : List (Nat × Nat × Nat)) : Nat :=
  (List.range t.height).foldl (fun n l => n + t.pgBytes * (t.groups.filter (covered taken l)).length) 0

/-- The bitmap of complete lines (R221): ceil(HEIGHT/512) lines of 64 bytes. -/
def StreamObj.bitmap (t : StreamObj) (lines : List Nat) : List Byte :=
  natLe (64 * ((t.height + 511) / 512)) (lines.foldl (fun n l => n + 2 ^ l) 0)

/-- A dropped message, packet or SRD (R217). DEDUCED, log entry 59. -/
def State.dropRx (s : State) : State := { s with rxDrop := s.rxDrop + 1 }

/-- A packet belongs to a stream (R218, R219): of RTP version 2. -/
def StreamObj.accepts (t : StreamObj) (p : SrdPacket) : Bool :=
  p.version == 2 && t.bits 63 32 == p.group.toNat && t.bits 111 96 == p.udpPort.toNat && t.bits 119 112 == p.pt && bitOf (t.bits 123 120) p.eth &&
    (t.bits 95 64 == 0 || t.bits 95 64 == p.srcIp.toNat) && (t.bits 160 160 == 0 || t.bits 159 128 == p.ssrc.toNat)

/-- The byte of its line at which an SRD's data begins: its header counts pixels (RFC 4175). -/
def StreamObj.startByte (t : StreamObj) (p : SrdPacket) : Nat := p.offset / t.pgPixels * t.pgBytes

/-- An SRD that the engine drops whatever is posted (R219, R221). -/
def StreamObj.refuses (t : StreamObj) (p : SrdPacket) : Bool :=
  p.field || decide (t.height ≤ p.line) || p.offset % t.pgPixels != 0 || p.length % t.pgBytes != 0 || p.data.length != p.length ||
    decide (t.lineBytes < t.startByte p + p.length) || t.lastDone == some p.timestamp.toNat

/-- The plane and the pixel of its pgroup of each 10-bit sample (R219, R220). PRESUMED, log entry 58. -/
def StreamObj.sampleOrder (t : StreamObj) : List (Nat × Nat) :=
  match t.sampling with
  | 0 => [(1, 0), (0, 0), (2, 0), (0, 1)]
  | 1 => (List.range 4).flatMap (fun x => [(1, x), (0, x), (2, x)])
  | _ => (List.range 4).flatMap (fun x => [(0, x), (1, x), (2, x)])

/-- Sample k of a run of bytes, most significant bit first (R221). -/
def sampleAt (data : List Byte) (k : Nat) : Nat :=
  let w := leNat ((data.drop (10 * k / 8)).take 2).reverse
  w / 2 ^ (6 - 10 * k % 8) % 1024

/-- Writes performed one after another until one faults. -/
def State.engWrites (s : State) (a : Acc) (ws : List (Nat × List Byte)) : State × Option Trap :=
  match ws with
  | [] => (s, none)
  | (va, bs) :: rest =>
    match s.engWrite a va bs with
    | (s1, some t) => (s1, some t)
    | (s1, none) => s1.engWrites a rest

/-- Where the bytes of an SRD go (R220). -/
def StreamObj.placement (t : StreamObj) (e : Tensor) (post : Post) (p : SrdPacket) : List (Nat × List Byte) :=
  let base := e.live + post.offset
  if t.planar then
    let order := t.sampleOrder
    (List.range (8 * p.length / 10)).map (fun k =>
      let o := order.getD (k % order.length) (0, 0)
      let x := p.offset + k / order.length * t.pgPixels + o.2
      let col := if t.sampling = 0 && o.1 != 0 then x / 2 else x
      (base + 2 * e.index [col, p.line, o.1, 0, 0], natLe 2 (sampleAt p.data k)))
  else [(base + e.index [t.startByte p, p.line, 0, 0, 0], p.data)]

/-- How a frame post ends (R212, R221), of the frame it holds. -/
def Post.frameEnd (p : Post) (status code va : Nat) : Completion :=
  match p.stream, p.latched with
  | some t, some (frame, source) =>
    { status := status, source := source, tag := frame * 2 ^ 32, bytes := t.counted p.taken, lines := (t.linesDone p.taken).length,
      faultCode := code, faultVa := va, first := p.firstT, last := p.lastT }
  | _, _ => { Completion.bare status with faultCode := code, faultVa := va }

/-- The frame of a post recorded as its stream's last completed one (R221), where the stream is still there. -/
def State.lastFrame (s : State) (p : Post) : State :=
  match p.stream, p.latched with
  | some t, some (frame, source) =>
    let k := wbits source 19 0
    match (s.obj k).body with
    | some (.stream x) => if x.record == t.record then s.setBody k (.stream { x with lastDone := some frame }) else s
    | _ => s
  | _, _ => s

/-- A frame post has ended (R221). -/
def State.endFrame (s : State) (idx n : Nat) (p : Post) (status code va : Nat) : State :=
  (s.lastFrame p).modPost idx n (fun _ => { p with srds := [], ending := some (p.frameEnd status code va) })

/-- An SRD that a post has taken lands by its own stream (R220) and is counted by that of the frame's first SRD (R221; DESIGN CHOICE, log
entry 116) once it is written; the last one of the frame ends it. -/
def State.landSrd (s : State) (idx n : Nat) (post : Post) (x : StreamObj) (t : StreamObj) (r : SrdPacket) (rest : List (StreamObj × SrdPacket))
    (rem : List Byte) : Except Trap State :=
  let fault (u : State) (x : Trap) : Except Trap State := if x.cause = 0 then .error x else .ok ((u.noteBad x).endFrame idx n post 3 x.cause x.va)
  match s.postTensor post rem with
  | .error x => fault s x
  | .ok (e, _) =>
    match s.engWrites post.acc (t.placement e post r) with
    | (s1, some x) => fault s1 x
    | (s1, none) =>
      let q := { post with taken := post.taken ++ [(r.line, t.startByte r, r.length)], srds := rest }
      if (x.linesDone q.taken).length = x.height then .ok (s1.endFrame idx n q 0 0 0) else .ok (s1.modPost idx n (fun _ => q))

/-- A write at the end of a post (R212, R221): one that faults is discarded. -/
def State.lastWrite (s : State) (a : Acc) (va : Nat) (bs : List Byte) : Except Trap State :=
  match s.engWrite a va bs with
  | (s1, none) => .ok s1
  | (_, some t) => if t.cause = 0 then .error t else .ok (s.noteBad t)

/-- The stream whose frame a post holds, or the first one that it accepts: its HEIGHT sizes the bitmap of a frame that has begun with no
SRD, and where it accepts none there is no bitmap. DESIGN CHOICE, log entry 116. -/
def State.frameStream (s : State) (idx : Nat) (p : Post) : Option StreamObj :=
  p.stream.or (((s.streamsOf idx).find? (fun e => p.takesSource (streamWord e.1))).map Prod.snd)

/-- The bitmap of a frame post that has ended (R221): where it goes and what it says; none where there is none to write. -/
def State.bitmapOf (s : State) (idx : Nat) (p : Post) : Option (Nat × List Byte) :=
  let map := p.bits 511 448
  if !p.frame || p.mapped || map = 0 then none
  else (s.frameStream idx p).map (fun t => (map, t.bitmap (t.linesDone p.taken)))

/-- The end of a post (R212, R213): the bitmap first, then the record, a copy of which is queued at its port, which is signalled. -/
def State.finishPost (s : State) (idx n : Nat) (post : Post) (c : Completion) : Except Trap State :=
  match s.bitmapOf idx post with
  | some (va, bs) => (s.lastWrite post.acc va bs).map (fun t => t.modPost idx n (fun p => { p with mapped := true }))
  | none =>
    let record := c.record (post.bits 383 320)
    (s.lastWrite post.acc post.va record).map (fun t =>
      match t.portIdx idx with
      | some p => t.enqueue idx (p.without n) { source := c.source, tag := c.tag, bytes := record, grants := [] } none
      | none => t)

/-- What the engine does next for the n-th post of a port, with its accesses to other packages: the end of one that has ended, the
landing of a message or of an SRD. None while nothing is there, or while it waits. -/
def State.postStep (s : State) (idx n : Nat) : Option State :=
  match (s.portIdx idx).bind (fun p => p.posts[n]?) with
  | none => none
  | some post =>
    let step (f : State → List Byte → Except Trap State) : Option State := s.engine (.post idx post.uid) 0 post.asid 6 f
    match post.ending, post.landing, post.srds, post.stream with
    | some c, _, _, _ => step (fun t _ => t.finishPost idx n post c)
    | none, some e, _, _ => if e.expects then none else step (fun t rem => t.landEntry idx n post e rem)
    | none, none, r :: rest, some x => step (fun t rem => t.landSrd idx n post x r.1 r.2 rest rem)
    | none, none, [], _ => if post.closing then some (s.endFrame idx n post 2 0 0) else none
    | none, none, _ :: _, none => none

/-- The engine's work for the n-th post of a port as far as it can go now, over k steps. -/
def State.postRun (s : State) (idx n uid k : Nat) : State :=
  match k with
  | 0 => s
  | k + 1 =>
    match (s.portIdx idx).bind (fun p => p.posts[n]?) with
    | none => s
    | some post =>
      if post.uid != uid then s
      else
        match s.postStep idx n with
        | none => s
        | some s1 => s1.postRun idx n uid k

/-- The engine goes on with the n-th post of a port. -/
def State.runPost (s : State) (idx n : Nat) : State :=
  match (s.portIdx idx).bind (fun p => p.posts[n]?) with
  | none => s
  | some post => s.postRun idx n post.uid 4

/-- The index under which the posts of closed ports stand: no object has it (R379). -/
def partedPort : Nat := 2 ^ 20

/-- The next write of the n-th post that a port's closing has cancelled (R212, R214). -/
def State.partedStep (s : State) (n : Nat) : Option State :=
  match s.parted[n]? with
  | none => none
  | some p =>
    match p.writes with
    | [] => some { s with parted := s.parted.eraseIdx n }
    | (va, bs) :: rest =>
      s.engine (.post partedPort p.uid) 0 p.asid 6 (fun t _ =>
        (t.lastWrite (engAcc p.asid p.priv) va bs).map (fun u =>
          { u with parted := if rest.isEmpty then u.parted.eraseIdx n else u.parted.set n { p with writes := rest } }))

/-- The writes of the posts of closed ports, as far as they can go now. -/
def State.partedRun (s : State) (n k : Nat) : State :=
  match k with
  | 0 => s
  | k + 1 =>
    match s.partedStep n with
    | some s1 => if s1.parted.length < s.parted.length then s1 else s1.partedRun n k
    | none => s

/-- RENDEZVOUS_LAND (R210 to R214): the engine's next step for the n-th post of a port, or of the closed ones. -/
def execRendezvousLand (s : State) : Host.Outcome State Fault Refusal :=
  match s.input with
  | some (.rendezvousLand idx n) => .next (((if idx = partedPort then s.partedStep n else s.postStep idx n)).getD s)
  | _ => .next s

/-- A post takes a message (R210): a rendezvous then moves its payload, any other lands at once where it can. -/
def State.takeEntry (s : State) (idx : Nat) (p : Port) (n : Nat) (e : Unexpected) : State :=
  let s1 := s.setPort idx { p with posts := p.posts.modify n (fun q => { q with landing := some e }) }
  if e.sender.isSome then s1.bindSender e.sender else s1.runPost idx n

/-- How a message to a matched-mode port is received (R208, R210). -/
inductive Received where
  /-- Landed, or queued with its payload. -/
  | done
  /-- In rendezvous: its sender waits. -/
  | pending
  /-- The unexpected queue is full. -/
  | full
  deriving DecidableEq, Repr

/-- A non-stream message at a matched-mode port (R208 to R211). -/
def State.receiveMsg (s : State) (p : Port) (e : Unexpected) : State × Received :=
  let waits : Received := if e.sender.isSome then .pending else .done
  match p.posts.findIdx? (fun q => q.takes e.source e.tag) with
  | some n => (s.takeEntry e.port p n e, waits)
  | none =>
    let u := s.uq
    if 65536 ≤ u.length then (s, .full) else ({ s with unexpected := u ++ [e] }, waits)

/-- MESSAGE_ARRIVAL (R208, R210): a KSEND's message that finds the unexpected queue full waits at its sender, a datagram, which Ethernet
has to bring (R444), is dropped and counted, and so is a stream's message that no frame post takes. No message is stamped after device
time (R215). -/
def execMessageArrival (s0 : State) : Host.Outcome State Fault Refusal :=
  match s0.input with
  | some (.messageArrival m) =>
    let s := s0.atLeast m.time
    if wbits m.source 31 29 != 0 && !s.accepted 2 then .next s0
    else
    match s.entry m.port with
    | some (idx, .port p) =>
      if p.matched then
        if streamSource m.source then .next s.dropRx
        else
          let r := s.receiveMsg p { port := idx, source := m.source, tag := m.tag.toNat, len := m.bytes.length, bytes := m.bytes, sender := none, time := m.time }
          match r.2 with
          | .done | .pending => .next r.1
          | .full => if wbits m.source 31 29 = 1 then .next s.dropRx else .next s
      else .next s
    | _ => .next s
  | _ => .next s0

/-- A Thrumino message at its port (R210, R216). -/
def State.thrumino (s : State) (payload : List Byte) (time : Nat) : State :=
  let v := leNat (payload.take 24)
  let len := bitsOf v 127 96
  if payload.length < 24 || bitsOf v 31 0 != 0x54484D31 || 4096 < len || len + 24 != payload.length then s.dropRx
  else
    match s.entry (BitVec.ofNat 32 (bitsOf v 63 32)) with
    | some (idx, .port p) =>
      if !p.matched || !p.eth then s.dropRx
      else
        let source := BitVec.ofNat 32 (2 ^ 29 + bitsOf v 92 64)
        let r := s.receiveMsg p { port := idx, source := source, tag := bitsOf v 191 128, len := len, bytes := payload.drop 24, sender := none, time := time }
        match r.2 with
        | .done | .pending => r.1
        | .full => s.dropRx
    | _ => s.dropRx

/-- THRUMINO_MESSAGE (R215, R216): a datagram to another UDP port than ETHMSGUDP is none. -/
def execThruminoMessage (s : State) : Host.Outcome State Fault Refusal :=
  match s.input with
  | some (.thruminoMessage udpPort payload sumOk time) =>
    if !s.accepted 2 || udpPort.toNat != s.ethMsgUdp then .next s
    else if !sumOk then .next (s.atLeast time).dropRx
    else .next ((s.atLeast time).thrumino payload time)
  | _ => .next s

/-- A new post scans the unexpected queue, oldest first (R210). -/
def State.scan (s : State) (idx : Nat) (p : Port) : State :=
  let n := p.posts.length - 1
  match p.posts[n]? with
  | none => s
  | some post =>
    let u := s.uq
    match u.findIdx? (fun e => e.port == idx && post.takes e.source e.tag) with
    | none => s
    | some k =>
      match u[k]? with
      | some e => { s with unexpected := u.eraseIdx k }.takeEntry idx p n e
      | none => s

/-- KPOST (R207). DEDUCED, log entry 52. -/
def execKpost (d a b : Opd) (s : State) : Host.Outcome State Fault Refusal :=
  .next (krnInstr s d (fun s' fo w l ln _ =>
    let h := readOpd w l ln a
    match s'.portOf h w.asid with
    | none => (s', .trap (kernelObj h) false)
    | some at_ =>
      let va := (readPair w l ln b).toNat
      s'.withRecord fo w l ln va 64 64 (fun s1 bs rem =>
        match at_ with
        | .away _ _ => (s1, statusOut d 4)
        | .closed => (s1, statusOut d 7)
        | .here idx p =>
          if !p.matched then (s1, statusOut d 3)
          else
            match s1.readTensor w.asid (bitsOf (leNat bs) 207 192) false rem with
            | .error t => s1.trapOrAsk fo w l ln t
            | .ok (e, _) =>
              let post : Post :=
                { asid := w.asid, va := va, record := bs, priv := ln.isPriv, entry := e, since := s1.time, latched := none, firstT := 0,
                  lastT := 0, taken := [], landing := none, uid := s1.ticket }
              if !s1.postOk idx post then (s1, statusOut d 2)
              else if 4096 ≤ p.posts.length + p.queue.length then (s1, statusOut d 1)
              else
                let p' := { p with posts := p.posts ++ [post] }
                (({ s1 with ticket := s1.ticket + 1 }.setPort idx p').scan idx p', statusOut d 0))))

/-- The instant at which a post's STALLUS has run out (R214, R221). -/
def Post.stallEnd (p : Post) : Nat := p.since + 1000 * p.stall

/-- POST_TIMEOUT (R214). -/
def execPostTimeout (s : State) : Host.Outcome State Fault Refusal :=
  match s.input with
  | some (.postTimeout idx n) =>
    match (s.portIdx idx).bind (fun p => p.posts[n]?) with
    | none => .next s
    | some post =>
      if post.frame || post.stall = 0 || !post.live then .next s
      else .next (((s.atLeast post.stallEnd).endPost idx n (Completion.bare 6)).runPost idx n)
  | _ => .next s

/-- A frame post takes no more SRDs (R221): its frame is its stream's last one, and it ends INCOMPLETE once what it has taken has landed. -/
def State.closeFrame (s : State) (idx n : Nat) : State :=
  match (s.portIdx idx).bind (fun p => p.posts[n]?) with
  | none => s
  | some post => ((s.lastFrame post).modPost idx n (fun p => { p with closing := true })).runPost idx n

/-- FRAME_STALL (R221). -/
def execFrameStall (s : State) : Host.Outcome State Fault Refusal :=
  match s.input with
  | some (.frameStall idx n) =>
    match (s.portIdx idx).bind (fun p => p.posts[n]?) with
    | none => .next s
    | some post =>
      if !post.frame || post.stall = 0 || post.ending.isSome || post.closing then .next s
      else .next ((s.atLeast post.stallEnd).closeFrame idx n)
  | _ => .next s

/-- An SRD taken by the n-th post of its port (R221): the first latches the post to its frame. -/
def State.takeSrd (s : State) (idx n k : Nat) (t : StreamObj) (r : SrdPacket) : State :=
  (s.modPost idx n (fun p =>
    if p.latched.isNone then
      { p with latched := some (r.timestamp.toNat, streamWord k), stream := some t, firstT := r.time, lastT := r.time, since := r.time, srds := [(t, r)] }
    else { p with lastT := r.time, since := r.time, srds := p.srds ++ [(t, r)] })).runPost idx n

/-- The frame posts of a stream that hold another frame complete INCOMPLETE (R221), over their number. -/
def State.endFrames (s : State) (idx k ts : Nat) (fuel : Nat) : State :=
  match fuel with
  | 0 => s
  | fuel + 1 =>
    match s.portIdx idx with
    | none => s
    | some p =>
      match p.posts.findIdx? (fun q => q.ending.isNone && !q.closing && (match q.latched with | some (x, src) => x != ts && src == streamWord k | none => false)) with
      | none => s
      | some n =>
        (s.closeFrame idx n).endFrames idx k ts fuel

/-- A frame post fits a stream as its SRD arrives (R208): by its entry as it stands, or, for a table on another package, as its KPOST
read it. DEDUCED, log entry 56. -/
def State.fitsNow (s : State) (q : Post) (t : StreamObj) : Bool :=
  match s.postTensor q [] with
  | .ok (e, _) => q.fits t e
  | .error x => x.cause != 0 || q.fits t q.entry

/-- An SRD of a stream (R208, R219, R221). -/
def State.srd (s : State) (k : Nat) (t : StreamObj) (r : SrdPacket) : State :=
  match s.portIdx t.port with
  | none => s.dropRx
  | some p =>
    if t.refuses r then s.dropRx
    else
      let ts := r.timestamp.toNat
      match p.posts.findIdx? (fun q => q.takes (streamWord k) (ts * 2 ^ 32 + r.line) &&
          (match q.latched with | some (x, _) => x == ts | none => true) && s.fitsNow q t) with
      | none => (s.endFrames t.port k ts p.posts.length).dropRx
      | some n => s.takeSrd t.port n k t r

/-- SRD_RECEIVE (R215, R219 to R221): a datagram that fails its checksum, or a packet that no stream accepts, is dropped and counted. -/
def execSrdReceive (s : State) : Host.Outcome State Fault Refusal :=
  match s.input with
  | some (.srdReceive r) =>
    if !s.accepted 2 then .next s
    else
      let s1 := s.atLeast r.time
      if !r.sumOk then .next s1.dropRx
      else
        let hits := s1.objs.filterMap (fun e => match e.2.body with
          | some (.stream t) => if t.accepts r then some e.1 else none
          | _ => none)
        if hits.isEmpty then .next s1.dropRx
        else .next (hits.foldl (fun u k => match (u.obj k).body with | some (.stream t) => u.srd k t r | _ => u) s1)
  | _ => .next s

/-- A delay request of PTP (R215): which messages it follows is left open. -/
def State.delayRequest (s : State) : State := if Config.choice s.freeCtr 5 then { s with sent := .ptpDelay s.time :: s.sent } else s

/-- PTP_MESSAGE (R215, R402): the first lock steps device time to the grandmaster's; later the clock is slewed and never decreases, at a
rate that is the model's free one (log entry 14). -/
def execPtpMessage (s : State) : Host.Outcome State Fault Refusal :=
  match s.input with
  | some (.ptpMessage time lock) =>
    if !s.accepted 2 then .next s
    else if lock && !s.ptpEver then .next ({ s with time := time, ptpLock := true, ptpEver := true } : State).delayRequest
    else .next ({ s with ptpLock := s.ptpLock || lock, time := s.time + Config.elapsed s.freeCtr } : State).delayRequest
  | _ => .next s

/-- PTP_LOCK_LOSS (R402): device time runs free. -/
def execPtpLockLoss (s : State) : Host.Outcome State Fault Refusal := .next { s with ptpLock := false }

/-- ARP_REQUEST (R215): answered. -/
def execArpRequest (s : State) : Host.Outcome State Fault Refusal :=
  match s.input with
  | some (.arpRequest sender target) => if s.accepted 2 then .next { s with sent := .arp sender target :: s.sent } else .next s
  | _ => .next s

end Sys2Proof.Machine
end

