-- ==== Sys2Proof/Machine/Logen.lean ====
section
/-! DEFINITION. Logen (R379 to R406): creating and closing objects, spawning, messages and page grants, wait sets, timers,
names; KIDLE, KWORK and the termination cone (R374 to R378); and what other packages' Logens send. -/

namespace Sys2Proof.Machine

/-- What stands against Logen's access to n bytes of a table, for a VA: a die link that retrains (R171), POISON (R182). -/
def State.logenBars (s : State) (va la n : Nat) : Option Trap :=
  if !s.reach 6 (s.homeDie la) then some (Trap.ask va (.link 6 (s.homeDie la)))
  else if s.poisoned la n then some (s.poisonIn va la n)
  else none

/-- The level-1 table that reaches a VA, through valid non-leaf entries in local HBM (R101); none where there is none. -/
def State.tableFrom (s : State) (va : Nat) (levels : List Nat) (frame : Nat) : Except Trap (Option Nat) :=
  match levels with
  | [] => .ok (some (localOf (frame * 4096)))
  | level :: rest =>
    let at_ := localOf (frame * 4096) + 8 * (va / levelReach level % 512)
    match s.logenBars va at_ 8 with
    | some t => .error t
    | none =>
      let pte := leNat (s.home at_ 8)
      if bitOf pte 0 && !bitOf pte 6 && s.inHbm (bitsOf pte 55 12 * 4096) then s.tableFrom va rest (bitsOf pte 55 12) else .ok none

/-- The level-1 table of a VA in a context (R389). -/
def State.level1 (s : State) (asid va : Nat) : Except Trap (Option Nat) :=
  let at_ := localOf (s.cfg.ctxroot * 4096 + 16 * asid)
  match s.logenBars va at_ 16 with
  | some t => .error t
  | none =>
    let e := leNat (s.home at_ 16)
    if s.cfg.xlaten && bitOf e 0 && s.inHbm (bitsOf e 55 12 * 4096) && va / 2 ^ 57 == 0 then s.tableFrom va [5, 4, 3, 2] (bitsOf e 55 12)
    else .ok none

/-- Where the first entry of a level-1 page stands, and what bars Logen from all of its entries. -/
def State.entriesAt (s : State) (asid va size : Nat) : Except Trap (Option Nat) :=
  match s.level1 asid va with
  | .ok (some table) =>
    let at_ := table + 8 * (va / 4096 % 512)
    match (List.range (4 ^ size)).findSome? (fun i => s.logenBars va (at_ + 8 * i) 8) with
    | some t => .error t
    | none => .ok (some at_)
  | r => r

/-- What bars Logen from the entries of pages of contexts. -/
def State.entriesBar (s : State) (pages : List (Nat × Nat × Nat)) : Option Trap :=
  pages.findSome? (fun p => match s.entriesAt p.1 p.2.1 p.2.2 with | .error t => some t | .ok _ => none)

/-- The entries of a level-1 page changed by Logen, through Pavilion (R104, R111, R112); those on a line in error stay (R182). -/
def State.setEntries (s : State) (asid va size : Nat) (f : Nat → Nat) : State :=
  match s.entriesAt asid va size with
  | .ok (some at_) =>
    (List.range (4 ^ size)).foldl (fun t i => t.storeAs 6 (at_ + 8 * i) (natLe 8 (f (leNat (t.home (at_ + 8 * i) 8))))) s
  | _ => s

/-- The size code of a level-1 page (R104). -/
def sizeCode (bytes : Nat) : Nat := if bytes = 4096 then 0 else if bytes = 16384 then 1 else if bytes = 65536 then 2 else 3

/-- An entry of a granted page in its sender (R111): V 0, GRANT 1. -/
def revokedEntry (pte : Nat) : Nat := pte - pte % 2 + (if bitOf pte 7 then 0 else 128)

/-- An entry of a slot of a grant window (R397). -/
def grantEntry (f : Frame) : Nat := 0xCB + f.size * 256 + f.pa / 4096 * 4096

/-- An entry of a slot that a message has reserved (R111): all of it but V and GRANT, which KRECV sets (R397). -/
def reservedEntry (f : Frame) : Nat := 0x4A + f.size * 256 + f.pa / 4096 * 4096

/-- An entry with V and GRANT cleared (R397). -/
def freedEntry (pte : Nat) : Nat := pte - pte % 2 - (if bitOf pte 7 then 128 else 0)

/-- The VA of a slot (R397). -/
def Port.slotVa (p : Port) (i : Nat) : Nat := p.gwBase + 0x40000 * i

/-- A slot released (R397): its entries and the receiver's generation, where it is mapped. Its frame returns to the pool afterwards. -/
def State.releaseGrant (s : State) (asid : Nat) (p : Port) (i : Nat) (g : GrantSlot) : State :=
  if g.mapped then (s.setEntries asid (p.slotVa i) g.frame.size freedEntry).advanceGen asid else s

/-- Frames as a wait keeps them. -/
def frameBytes (fs : List Frame) : List Byte := fs.flatMap (fun f => natLe 8 (4 * f.pa + f.size % 4))

/-- The frames that a wait has kept, k of them. -/
def framesOf (bs : List Byte) (k : Nat) : List Frame :=
  (List.range k).map (fun i => let v := leNat ((bs.drop (8 * i)).take 8); { pa := v / 4, size := v % 4 })

/-- A lane of Logen waits for the accesses translated before an advance (R108): from here on it is not executed again. -/
def State.advanceWait (s : State) (u l asid : Nat) (bytes : List Byte) : State × Out :=
  (s.waitWith u l (.advance (some asid) (s.ctx asid).gen) 1 bytes, .set)

/-- Frames returned to the pool once a context's advance is complete (R108, R397, R398), and the status. -/
def State.returnFrames (s : State) (u l asid : Nat) (d : Opd) (fs : List Frame) (st : Nat) : State × Out :=
  if fs.isEmpty || !s.olderAccess (some asid) (s.ctx asid).gen then ({ s with pool := s.pool ++ fs }, statusOut d st)
  else s.advanceWait u l asid (frameBytes fs)

/-- A page that can be granted (R393): its size code and frame, or what bars the walk to it (R171, R182). -/
def State.grantable (s : State) (asid : Nat) (priv : Bool) (va : Nat) : Except Trap (Option Frame) :=
  match s.walk (Acc.mk asid priv true false false) va with
  | .error t => if t.need.isSome || t.cause = 0x14 then .error t else .ok none
  | .ok p =>
    .ok (if p.level = 1 && p.vbase = va && p.w && p.kind == .hbm && (priv || p.u) then some { pa := p.pa, size := sizeCode p.size } else none)

/-- The slot that a received page stands in, in its own context (R396). -/
def State.slotOfPage (s : State) (asid va : Nat) : Option (Nat × Port × Nat) :=
  s.objs.findSome? (fun e => match e.2.body with
    | some (.port p) =>
      if e.2.asid != asid then none
      else (p.slots.find? (fun x => x.2.mapped && p.slotVa x.1 == va)).map (fun x => (e.1, p, x.1))
    | _ => none)

/-- A page leaves its sender (R396, R111): its entries revoked, the generation advanced, its old slot free.
DEDUCED, log entry 60. -/
def State.revoke (s : State) (asid : Nat) (va : Nat) (f : Frame) : State :=
  let s1 := (s.setEntries asid va f.size revokedEntry).advanceGen asid
  match s1.slotOfPage asid va with
  | some (idx, p, i) => s1.setPort idx { p with slots := sdel p.slots i }
  | none => s1

/-- The lowest free slots of a port reserved for frames (R397). -/
def Port.reserve (p : Port) (fs : List Frame) : Port × List (Nat × Frame) :=
  fs.foldl (fun acc f => match firstFree (skeys acc.1.slots) 0 acc.1.gwSlots with
    | some i => ({ acc.1 with slots := sput acc.1.slots i { frame := f, mapped := false } }, acc.2 ++ [(i, f)])
    | none => acc) (p, [])

/-- The receiver's entries of the pages a message grants, changed before KSEND completes (R111): what R397 leaves to KRECV is V and GRANT.
DESIGN CHOICE, log entry 101. -/
def State.reserveEntries (s : State) (asid : Nat) (p : Port) (gs : List (Nat × Frame)) : State :=
  gs.foldl (fun t e => t.setEntries asid (p.slotVa e.1) e.2.size (fun _ => reservedEntry e.2)) s

/-- The pages of a message in its receiver's context. -/
def Port.grantPages (p : Port) (asid : Nat) (gs : List (Nat × Frame)) : List (Nat × Nat × Nat) := gs.map (fun e => (asid, p.slotVa e.1, e.2.size))

/-- Slots that no message or page holds. -/
def Port.freeSlots (p : Port) : Nat := p.gwSlots - p.slots.length

/-- A send count changed (R383). -/
def State.addSender (s : State) (h : Word) : State :=
  match s.entry h with
  | some (i, .port p) => s.setPort i { p with senders := p.senders + 1, hadSenders := true }
  | _ => s

/-- A reference gone (R390): the port may now be signalled (R400). -/
def State.dropSender (s : State) (h : Word) (by_ : Option Nat) : State :=
  match s.entry h with
  | some (i, .port p) =>
    let p' := { p with senders := p.senders - 1 }
    let s1 := s.setPort i p'
    if !p.matched && p'.peerClosed then s1.signalled i by_ else s1
  | _ => s

/-- Reserved bits of a record that are not zero. -/
def reservedSet (v : Nat) (fields : List (Nat × Nat)) : Bool := fields.any (fun f => bitsOf v f.1 f.2 != 0)

/-- A port's record (R389). -/
def portBody (v : Nat) : Option Port :=
  let matched := bitOf v 0
  let eth := bitOf v 1
  let cap := bitsOf v 28 16
  let base := bitsOf v 127 64
  let slots := bitsOf v 143 128
  if reservedSet v [(15, 2), (63, 29), (511, 144)] || (eth && !matched) || 1024 < slots || base % 0x40000 != 0 ||
      (slots = 0 && base != 0) || (if matched then cap != 0 else cap = 0 || 4096 < cap) then none
  else
    some { matched := matched, eth := eth, capacity := cap, gwBase := base, gwSlots := slots, slots := [], queue := [], posts := [],
           senders := 0, hadSenders := false, name := none }

/-- The first VA of each 2 MiB of a window. -/
def Port.windowVas (p : Port) : List Nat :=
  if p.gwSlots = 0 then []
  else (List.range ((p.gwBase + 0x40000 * p.gwSlots - 1) / 0x200000 - p.gwBase / 0x200000 + 1)).map (fun i => (p.gwBase / 0x200000 + i) * 0x200000)

/-- The tables reach level 1 for every 2 MiB of a window (R389). -/
def State.windowReached (s : State) (asid : Nat) (p : Port) : Bool :=
  p.windowVas.all (fun va => match s.level1 asid va with | .ok (some _) => true | _ => false)

/-- What bars Logen from the tables of a port's window (R171, R182). -/
def State.windowBar (s : State) (asid type v : Nat) : Option Trap :=
  if type = 2 then
    (portBody v).bind (fun p => p.windowVas.findSome? (fun va => match s.level1 asid va with | .error t => some t | .ok _ => none))
  else none

/-- A stream's record (R218), once its port is known. -/
def streamOk (v : Nat) : Bool :=
  let px := if bitsOf v 162 161 = 0 then 2 else 4
  !reservedSet v [(511, 208), (175, 164), (127, 124)] && decide (1 ≤ bitsOf v 207 192) && decide (bitsOf v 207 192 ≤ 4096) &&
    decide (2 ≤ bitsOf v 191 176) && decide (bitsOf v 191 176 ≤ 7680) && bitsOf v 191 176 % px == 0 && bitsOf v 162 161 != 3 &&
    bitsOf v 123 120 != 0 && decide (96 ≤ bitsOf v 119 112) && decide (bitsOf v 119 112 ≤ 127)

/-- A member of a multicast group from its 16 bytes (R389), valid for a creator; its reserved bits are ignored (R6). -/
def memberOf (asid : Nat) (priv : Bool) (v : Nat) : Option McMember :=
  let m : McMember := { pkg := bitsOf v 104 96, asid := bitsOf v 127 112, winVa := bitsOf v 63 0, winSize := bitsOf v 95 64 }
  if bitsOf v 63 57 != 0 || (m.asid != asid && !priv) then none else some m

/-- What KCREATE makes of a record: a status, or an object. -/
def State.createBody (s : State) (w : Wave) (ln : Lane) (type : Nat) (v : Nat) (members : List Byte) : Except Nat Body :=
  match type with
  | 2 =>
    match portBody v with
    | some p => if s.windowReached w.asid p then .ok (.port p) else .error 2
    | none => .error 2
  | 3 => if v = 0 then .ok (.waitset []) else .error 2
  | 4 =>
    if reservedSet v [(511, 64)] then .error 2
    else if 65536 ≤ (s.objs.filter (fun e => match e.2.body with | some (.timer _ _ _) => true | _ => false)).length then .error 1
    else .ok (.timer (bitsOf v 63 0) none 0)
  | 5 =>
    if !ln.isPriv || reservedSet v [(511, 224), (191, 169), (127, 115), (63, 16)] then .error 2
    else if (s.spaceOf (bitsOf v 15 0)).isSome then .error 5
    else .ok (.space (bitsOf v 15 0) (bitsOf v 114 64) (bitsOf v 168 128) (bitsOf v 223 192))
  | 6 =>
    let n := bitsOf v 4 0 + 1
    let ms := (List.range n).map (fun i => memberOf w.asid ln.isPriv (leNat ((members.drop (16 * i)).take 16)))
    if reservedSet v [(511, 128), (63, 5)] || bitsOf v 127 64 % 16 != 0 || ms.any Option.isNone then .error 2
    else .ok (.mcgroup (ms.filterMap id))
  | 7 =>
    match s.portOf (BitVec.ofNat 32 (bitsOf v 31 0)) w.asid with
    | some (.here i p) =>
      if !s.accepted 3 || !p.matched || !streamOk v then .error 2
      else if 128 ≤ s.streamCount then .error 1
      else .ok (.stream { port := i, record := natLe 64 v, lastDone := none })
    | _ => .error 2
  | 8 =>
    if reservedSet v [(511, 96), (63, 50)] || bitsOf v 95 64 = 0 || 65536 < bitsOf v 95 64 then .error 2
    else .ok (.taskq (bitsOf v 49 0) (bitsOf v 95 64) 0)
  | _ => if v = 0 then .ok (.pipegroup false none []) else .error 2

/-- A status and a handle. -/
def handleOut (d : Opd) (status : Nat) (h : Word) : Out := .done (some d) [BitVec.ofNat 32 status, h] 0

/-- An IGMPv3 join or leave of a stream's group (R218). -/
def State.igmp (s : State) (join : Bool) (t : StreamObj) : State :=
  { s with sent := .igmp join (t.bits 123 120) (BitVec.ofNat 32 (t.bits 63 32)) (BitVec.ofNat 32 (t.bits 95 64)) :: s.sent }

/-- The object of a record allocated (R388). -/
def State.create (s : State) (w : Wave) (ln : Lane) (d : Opd) (type v : Nat) (members : List Byte) : State × Out :=
  match s.createBody w ln type v members with
  | .error c => (s, handleOut d c 0)
  | .ok body =>
    match s.newObj w.asid body with
    | none => (s, handleOut d 1 0)
    | some (i, s1) =>
      let s2 := match body with | .stream t => s1.igmp true t | _ => s1
      (s2, handleOut d 0 (s2.handleOf i))

/-- The index of a wave's own WAVE object, while it has one (R371, R390). -/
def State.ownObj (s : State) (u : Nat) (w : Wave) : Option Nat :=
  match (s.obj w.obj).body with
  | some (.wave v _ _ _) => if v = u then some w.obj else none
  | _ => none

/-- The handle of a lane's own wave (R388), kept open from now on (R390): a wave whose handle has been closed gets a new entry, or none
while the table is full. DESIGN CHOICE, log entry 64. -/
def State.ownHandle (s : State) (u : Nat) (w : Wave) (d : Opd) : State × Out :=
  match s.ownObj u w with
  | some i =>
    let s1 := s.setBody i (.wave u false true)
    (s1, handleOut d 0 (s1.handleOf i))
  | none =>
    match s.newObj w.asid (.wave u false true) with
    | none => (s, handleOut d 1 0)
    | some (i, s1) => (s1.modWave u (fun x => { x with obj := i }), handleOut d 0 (s1.handleOf i))

/-- KCREATE (R388, R389). -/
def execKcreate (d a b : Opd) (s : State) : Host.Outcome State Fault Refusal :=
  .next (krnInstr s d (fun s' fo w l ln _ =>
    let t := readOpd w l ln a
    let type := wbits t 4 0
    if wbits t 31 5 != 0 || type = 0 || 9 < type then (s', handleOut d 12 0)
    else if type = 1 then s'.ownHandle fo.wave w d
    else
      s'.withRecord fo w l ln (readPair w l ln b).toNat 64 64 (fun s1 bs rem =>
        let v := leNat bs
        match s1.windowBar w.asid type v with
        | some t => s1.trapOrAsk fo w l ln t
        | none =>
        if type = 6 && bitsOf v 127 64 % 16 = 0 then
          let acc := laneAcc w ln false
          match s1.laneRead w.coreKey acc (bitsOf v 127 64) (16 * (bitsOf v 4 0 + 1)) rem with
          | .error e => s1.trapOrAsk fo w l ln e
          | .ok (ms, _, s2) => s2.create w ln d type v ms
        else s1.create w ln d type v [])))

/-- The name of a closed port unbound at its home (R405); the hash of R404. -/
def nameHome (s : State) (name : List Byte) : Nat :=
  (name.foldl (fun h x => (h ^^^ x.toNat) * 0x01000193 % 2 ^ 32) 0x811C9DC5) % s.podsize

/-- A name unbound (R405). -/
def State.unbind (s : State) (name : List Byte) : State :=
  if nameHome s name = s.pkgid then { s with names := s.names.filter (fun n => n.name != name) }
  else s.tellLogen (nameHome s name) (.unbind name)

/-- How a post of a port that closes ends (R214): CANCELLED, with the source and the tag of the message it has taken (R212), or as it had
ended. -/
def Post.cancelled (p : Post) : Completion :=
  match p.ending, p.landing with
  | some c, _ => c
  | none, some e => { Completion.bare 4 with source := e.source, tag := e.tag }
  | none, none => if p.frame then p.frameEnd 4 0 0 else Completion.bare 4

/-- The writes of the SRDs that a frame post has taken and not landed (R221), by the entry of its tensor. -/
def State.srdWrites (s : State) (p : Post) : List (Nat × List Byte) :=
  let e := match s.postTensor p [] with | .ok (e, _) => e | .error _ => p.entry
  p.srds.flatMap (fun r => r.1.placement e p r.2)

/-- A post whose SRDs have all been counted. -/
def Post.whole (p : Post) : Post := { p with taken := p.taken ++ p.srds.map (fun r => (r.2.line, r.1.startByte r.2, r.2.length)), srds := [] }

/-- A post of a port that closes (R214): what is left to write, the SRDs it has taken, its bitmap and its record in this order (R212,
R213, R221), stands apart from now on and is written as far as it can be. -/
def State.cancelPost (s : State) (idx : Nat) (post : Post) : State :=
  let s1 := match post.landing with
    | some e => s.answerSender e.sender 7
    | none => s
  let all := post.whole
  let writes := s1.srdWrites post ++ (s1.bitmapOf idx all).toList ++ [(post.va, all.cancelled.record (post.bits 383 320))]
  let s2 := (s1.lastFrame post).dropClient (.post idx post.uid)
  let n := s2.parted.length
  ({ s2 with parted := s2.parted ++ [{ uid := post.uid, asid := post.asid, priv := post.priv, writes := writes }] } : State).partedRun n (writes.length + 1)

/-- Every live post of a closed port completes CANCELLED (R214), over their places. -/
def State.cancelPosts (s : State) (idx fuel : Nat) : State :=
  match fuel with
  | 0 => s
  | fuel + 1 =>
    match s.portIdx idx with
    | none => s
    | some p =>
      match p.posts with
      | [] => s
      | post :: _ => ((s.cancelPost idx post).setPort idx (p.without 0)).cancelPosts idx fuel

/-- A stream bound to a port that has closed. -/
def Body.unbound (idx : Nat) (b : Body) : Body :=
  match b with
  | .stream t => .stream (if t.port = idx then { t with port := 0 } else t)
  | .wave u x y z => .wave u x y z
  | .port q => .port q
  | .ref q h m => .ref q h m
  | .waitset m => .waitset m
  | .timer q d n => .timer q d n
  | .space a t q c => .space a t q c
  | .mcgroup ms => .mcgroup ms
  | .taskq q c n => .taskq q c n
  | .pipegroup x c k => .pipegroup x c k

/-- Messages of other packages whose pages are on their way to a port that has closed end with PEER_CLOSED at their senders. -/
def State.dropArriving (s : State) (idx : Nat) : State :=
  let gone := s.arriving.filter (fun x => x.port == idx)
  gone.foldl (fun t x => if x.pkg = s.pkgid then t else t.replyKmsg x.pkg x.seq 7 0) { s with arriving := s.arriving.filter (fun x => x.port != idx) }

/-- KCLOSE of a port (R390, R214, R397), but for its frames. -/
def State.closePort (s : State) (idx : Nat) (p : Port) : State :=
  let asid := (s.obj idx).asid
  let s1 := (s.cancelPosts idx p.posts.length).dropArriving idx
  let mine := s1.uq.filter (fun e => e.port == idx)
  let s2 := mine.foldl (fun t e => t.answerSender e.sender 7) { s1 with unexpected := s1.uq.filter (fun e => e.port != idx) }
  let s3 := p.slots.foldl (fun t e => t.releaseGrant asid p e.1 e.2) s2
  let s4 := match p.name with | some n => s3.unbind n | none => s3
  let s5 := (s4.release (fun k => k == WaitKind.port idx || k == WaitKind.room idx) 7 0 [])
  let s6 := { s5 with objs := s5.objs.map (fun (e : Nat × Obj) => (e.1, { e.2 with body := e.2.body.map (Body.unbound idx) })) }
  s6.freeObj idx

/-- The members of a pipeline group: its waves, and launches that will join it (R375). -/
def State.groupHas (s : State) (idx : Nat) (h : Word) : Bool :=
  s.waves.any (fun e => e.2.group == some idx) ||
    s.launches.any (fun e => !e.2.bad && bitsOf (leNat e.2.packet) 351 320 == h.toNat && h != 0)

/-- Lanes in KIDLE on a wait set that has closed wait for the end of their group alone (R378). -/
def State.forgetSet (s : State) (idx : Nat) : State :=
  let without (wt : Wait) : Wait := match wt.kind with | .idle ws g => if ws = idx then { wt with kind := .idle 0 g } else wt | _ => wt
  { s with waves := s.waves.map (fun e => (e.1, { e.2 with lanes := e.2.lanes.map (fun x => (x.1, { x.2 with wait := x.2.wait.map without })) })) }

/-- KCLOSE of an object (R390): the status, and the state after, but for a port's frames. DESIGN CHOICE, log entry 64. -/
def State.close (s : State) (u : Nat) (ln : Lane) (h : Word) (idx : Nat) (b : Body) : State × Nat :=
  match b with
  | .port p => (s.closePort idx p, 0)
  | .ref pkg q _ =>
    let s1 := s.freeObj idx
    (if pkg = s.pkgid then s1.dropSender q (some u) else s1.tellLogen pkg (.refClosed q), 0)
  | .waitset _ => (((s.release (fun k => match k with | .waitSet x _ => x == idx | _ => false) 7 0 []).forgetSet idx).freeObj idx, 0)
  | .stream t => ((s.igmp false t).freeObj idx, 0)
  | .pipegroup _ _ _ => if s.groupHas idx h then (s, 5) else (s.freeObj idx, 0)
  | .space asid _ _ _ =>
    if !ln.isPriv then (s, 12)
    else if s.waves.any (fun e => e.2.asid == asid && e.2.onCore) || s.objs.any (fun e => e.2.asid == asid && e.2.body.isSome && e.1 != idx) then
      (s, 5)
    else ({ s with allocs := sdel s.allocs asid }.freeObj idx, 0)
  | .timer _ _ _ | .wave _ _ _ _ | .mcgroup _ | .taskq _ _ _ => (s.freeObj idx, 0)

/-- The release of a slot (R397): the state, the status, and the frame that returns to the pool. -/
def State.closeSlot (s : State) (idx : Nat) (p : Port) (b : Word) : State × Nat × List Frame :=
  let i := wbits b 9 0
  if !b.getLsbD 31 || wbits b 30 10 != 0 || p.gwSlots ≤ i then (s, 12, [])
  else
    match sget p.slots i with
    | some g =>
      if g.mapped then (((s.releaseGrant (s.obj idx).asid p i g).setPort idx { p with slots := sdel p.slots i }), 0, [g.frame]) else (s, 5, [])
    | none => (s, 5, [])

/-- What bars Logen from the entries of a slot that KCLOSE releases (R171, R182). -/
def State.slotBar (s : State) (idx : Nat) (b : Body) (c : Word) : Option Trap :=
  match s.portAt idx b with
  | some (.here i p) =>
    match sget p.slots (wbits c 9 0) with
    | some g => if c.getLsbD 31 && wbits c 30 10 == 0 && decide (wbits c 9 0 < p.gwSlots) && g.mapped then s.entriesBar [((s.obj i).asid, p.slotVa (wbits c 9 0), g.frame.size)] else none
    | none => none
  | _ => none

/-- The frames that the closing of an object returns to the pool (R390). -/
def Body.frames (b : Body) : List Frame := match b with | .port p => p.slots.map (fun e => e.2.frame) | _ => []

/-- What a lane's wait for an advance has kept (R108). -/
def Lane.advanced (ln : Lane) : Option (List Byte) :=
  match ln.wait with
  | some wt => match wt.kind with | .advance _ _ => some wt.bytes | _ => none
  | none => none

/-- KCLOSE (R390, R397): complete once the advance that a release makes is (R108). -/
def execKclose (d a b : Opd) (s : State) : Host.Outcome State Fault Refusal :=
  .next (krnInstr s d (fun s' fo w l ln _ =>
    let h := readOpd w l ln a
    let c := readOpd w l ln b
    match ln.advanced with
    | some bs => ({ s' with pool := s'.pool ++ framesOf bs (bs.length / 8) }, statusOut d 0)
    | none =>
      match s'.live h w.asid with
      | none => (s', .trap (kernelObj h) false)
      | some (idx, body) =>
        let r : State × Nat × List Frame :=
          if c = 0 then
            let x := s'.close fo.wave ln h idx body
            (x.1, x.2, if x.2 = 0 then body.frames else [])
          else
            match s'.portAt idx body with
            | some (.here i p) => s'.closeSlot i p c
            | some (.away _ _) => (s', 4, [])
            | some .closed => (s', 7, [])
            | none => (s', 12, [])
        match s'.slotBar idx body c with
        | some t => s'.trapOrAsk fo w l ln t
        | none => r.1.returnFrames fo.wave l w.asid d r.2.2 r.2.1))

/-- A spawn record (R391). -/
structure SpawnRec where
  ok : Bool
  entry : Nat
  arg : Nat
  user0 : Nat
  user1 : Nat
  regs : Nat
  shared : Nat
  scratch : Nat
  tileCount : Nat
  privBytes : Nat
  dieMask : Nat
  prio : Nat
  deriving DecidableEq, Repr

/-- A spawn record from its 64 bytes (R391). -/
def SpawnRec.ofBytes (bs : List Byte) : SpawnRec :=
  let v := leNat bs
  { ok := !reservedSet v [(511, 249), (239, 233), (215, 215), (63, 57), (0, 0)] && decide (bitsOf v 232 216 ≤ 65536) &&
      bitsOf v 232 216 % 4 == 0 && decide (bitsOf v 214 211 ≤ 8) && decide (bitsOf v 210 203 ≤ 128) && decide (bitsOf v 202 198 ≤ 16) &&
      decide (bitsOf v 197 192 ≤ 32),
    entry := bitsOf v 63 0, arg := bitsOf v 127 64, user0 := bitsOf v 159 128, user1 := bitsOf v 191 160, regs := bitsOf v 197 192,
    shared := bitsOf v 202 198, scratch := bitsOf v 210 203, tileCount := bitsOf v 214 211, privBytes := bitsOf v 232 216,
    dieMask := bitsOf v 245 240, prio := bitsOf v 248 246 }

/-- What a new wave is made with (R371, R391, R392). -/
structure NewWave where
  block : Nat
  wv : Nat
  asid : Nat
  priv : Bool
  prio : Nat
  depth : Nat
  group : Option Nat
  launchId : Word
  entry : Nat
  regs : Nat
  tileCount : Nat
  privBytes : Nat
  /-- g0 to g3, g6 and g7. -/
  g : List (Nat × Nat)
  deriving DecidableEq, Repr

/-- A wave at its start (R249, R255, R310, R371), with no place yet. -/
def NewWave.wave (n : NewWave) (obj : Nat) : Wave :=
  let lane := Lane.start (BitVec.ofNat 64 n.entry) (BitVec.ofNat 32 n.privBytes) n.priv
  { block := n.block, wv := n.wv, asid := n.asid, die := 0, core := 0, part := 0, st := .queued, lanes := (List.range 32).map (fun l => (l, lane)),
    g := n.g.map (fun e => (e.1, BitVec.ofNat 32 e.2)), ctl := [], launchId := n.launchId, prio := n.prio, depth := n.depth, group := n.group,
    regs := 8 * n.regs, privBytes := n.privBytes, tileCount := n.tileCount, tiles := [], tileLost := false, insts := [], barrier := Barrier.start,
    mainBase := 0, tileSlots := [], idle := false, started := false, placed := 0, obj := obj }

/-- A wave's g registers as R371 lists them, in rising order. -/
def startG (index count arg u0 u1 : Nat) (user : Bool) : List (Nat × Nat) :=
  [(0, index), (1, count), (2, arg), (3, arg / 2 ^ 32)] ++ (if user then [(6, u0), (7, u1)] else [])

/-- A block that waits for its place. -/
def newBlock (asid scratch : Nat) (waves : List Nat) (dies prio : Nat) (launch : Option Nat) (index blocks t k : Nat) : Block :=
  { asid := asid, die := 0, core := 0, scratchBase := 0, scratchBytes := 4096 * scratch, waves := waves, placed := false, image := [],
    dies := dies, prio := prio, launch := launch, index := index, blocks := blocks, workTiles := t, workK := k, cursor := 0,
    barriers := [], quadInsts := [] }

/-- The quad whose run queue a spawned wave enters (R412): 16·die + quad. -/
def queueQuad (die quad dies : Nat) : Nat :=
  if bitOf dies die then 16 * die + quad else 16 * ((List.range 6).find? (fun d => bitOf dies d)).getD 0

/-- Whether some enabled core of the allowed dies could hold a footprint (R392): any core holds any footprint of R391.
DEDUCED, log entry 63. -/
def State.anyCore (s : State) (dies : Nat) : Bool := (List.range 6).any (fun d => bitOf dies d && s.coreCount d != 0)

/-- A spawned wave (R392, R342): its object, its block of one, and its entry in a run queue; none when the object table is
full. The numbers are those of the object and of the wave. -/
def State.spawn (s : State) (asid : Nat) (r : SpawnRec) (prio depth : Nat) (group : Option Nat) (priv shown : Bool) (dies quad : Nat) :
    Option (Nat × Nat × State) :=
  let u := s.ticket
  match s.newObj asid (.wave u false shown) with
  | none => none
  | some (obj, s1) =>
    let w := NewWave.wave
      { block := u, wv := 0, asid := asid, priv := priv, prio := prio, depth := depth, group := group,
        launchId := BitVec.ofNat 32 (2 ^ 31 + s.spawned % 2 ^ 31), entry := r.entry, regs := r.regs, tileCount := r.tileCount,
        privBytes := r.privBytes, g := startG 0 1 r.arg r.user0 r.user1 true } obj
    some (obj, u, { s1 with
      waves := sput s1.waves u w, blocks := sput s1.blocks u (newBlock asid r.scratch [u] dies prio none 0 1 0 0),
      runQueue := s1.runQueue ++ [{ block := u, quad := quad, dies := dies, prio := prio, ticket := u }],
      spawned := s1.spawned + 1, ticket := s1.ticket + 1 })

/-- KSPAWN (R391, R392). -/
def execKspawn (d a : Opd) (s : State) : Host.Outcome State Fault Refusal :=
  .next (krnInstr s d (fun s' fo w l ln _ =>
    s'.withRecord fo w l ln (readPair w l ln a).toNat 64 64 (fun s1 bs _ =>
      let r := SpawnRec.ofBytes bs
      let dies := if r.dieMask = 0 then 2 ^ w.die else r.dieMask
      if !r.ok then (s1, handleOut d 2 0)
      else if 8 ≤ w.depth then (s1, handleOut d 8 0)
      else if !s1.anyCore dies then (s1, handleOut d 11 0)
      else
        match s1.spawn w.asid r (min r.prio w.prio) (w.depth + 1) w.group (ln.isPriv && w.asid == 0) true dies
            (queueQuad w.die (s1.quadOf w.die w.core) dies) with
        | none => (s1, handleOut d 1 0)
        | some (obj, u, s2) =>
          let s3 := if w.group.isSome then s2.modWave u (fun x => { x with spawner := some w.coreKey }) else s2
          (s3, handleOut d 0 (s3.handleOf obj)))))

/-- A send record (R393). -/
structure SendRec where
  tag : Nat
  inLen : Nat
  nGrant : Nat
  byRef : Bool
  payLen : Nat
  payVa : Nat
  pages : List Nat
  deriving DecidableEq, Repr

/-- A send record from its 64 bytes (R393). -/
def SendRec.ofBytes (bs : List Byte) : SendRec :=
  let v := leNat bs
  { tag := bitsOf v 63 0, inLen := bitsOf v 72 64, nGrant := bitsOf v 75 73, byRef := bitOf v 76, payLen := bitsOf v 127 96,
    payVa := bitsOf v 191 128,
    pages := (List.range (min 4 (bitsOf v 75 73))).map (fun k => bitsOf v (236 + 45 * k) (192 + 45 * k) * 4096) }

/-- A payload that stays with its sender until a post matches it (R210): over 4 KiB. -/
def SendRec.rendezvous (r : SendRec) : Bool := r.byRef && decide (4096 < r.payLen)

/-- What R393 asks of a record whatever the port's mode. DEDUCED, log entry 62. -/
def SendRec.formed (r : SendRec) : Bool :=
  decide (r.inLen ≤ 256) && decide (r.nGrant ≤ 4) && (!r.byRef || (r.inLen == 0 && r.nGrant == 0))

/-- The frames of the pages a record grants (R393), none when one is barred there; or what bars the walk to one. -/
def State.grantFrames (s : State) (w : Wave) (ln : Lane) (pages : List Nat) : Except Trap (Option (List Frame)) :=
  let fs := pages.map (s.grantable w.asid ln.isPriv)
  match fs.findSome? (fun r => match r with | .error t => some t | .ok _ => none) with
  | some t => .error t
  | none =>
    let got := fs.filterMap (fun r => match r with | .ok f => f | .error _ => none)
    .ok (if got.length != pages.length || !(decide pages.Nodup) then none else some got)

/-- SOURCE of a KSEND (R204). DEDUCED, log entry 55. -/
def State.sendSource (s : State) (w : Wave) : Word := BitVec.ofNat 32 (s.pkgid % 512 * 2 ^ 20 + w.obj % 2 ^ 20)

/-- When a lane began to wait for room at a port. -/
def Lane.roomTicket (ln : Lane) (idx : Nat) : Option Nat :=
  match ln.wait with
  | some wt => if wt.kind == .room idx then some wt.ticket else none
  | none => none

/-- Another lane of the wave, whose messages have the same SOURCE, began to wait for room at a port before this one (R209). -/
def Wave.sendsBefore (w : Wave) (idx l : Nat) (ln : Lane) : Bool :=
  w.lanes.any (fun x => x.1 != l && (match x.2.wait with
    | some wt => wt.kind == .room idx && wt.status.isNone && (match ln.roomTicket idx with | some t => decide (wt.ticket < t) | none => true)
    | none => false))

/-- KSEND to a queue-mode port here (R394, R396): its pages revoked and their slots reserved, then, once the advance is complete, the
message queued. -/
def State.sendQueue (s : State) (fo : Focus) (w : Wave) (l : Nat) (ln : Lane) (d : Opd) (r : SendRec) (bytes : List Byte) (idx : Nat)
    (p : Port) : State × Out :=
  match s.grantFrames w ln r.pages with
  | .error t => s.trapOrAsk fo w l ln t
  | .ok none => (s, statusOut d 2)
  | .ok (some fs) =>
    if r.byRef then (s, statusOut d 2)
    else if p.freeSlots < fs.length then (s, statusOut d 11)
    else if p.capacity ≤ s.queueLen idx p || w.sendsBefore idx l ln then
      if (ln.roomTicket idx).isSome then (s, .hold) else (s, .wait (.room idx))
    else
      let asid := (s.obj idx).asid
      let mine := (r.pages.zip fs).map (fun e => (w.asid, e.1, e.2.size))
      match (s.entriesBar mine).or ((s.entriesBar (p.grantPages asid (p.reserve fs).2)).filter (fun t => t.need.isSome)) with
      | some t => s.trapOrAsk fo w l ln t
      | none =>
      let s0 := (r.pages.zip fs).foldl (fun t e => t.revoke w.asid e.1 e.2) s
      let p1 := (s0.portIdx idx).getD p
      let res := p1.reserve fs
      let s1 := s0.reserveEntries asid p1 res.2
      let m : Msg := { source := s.sendSource w, tag := r.tag, bytes := bytes, grants := res.2 }
      if fs.isEmpty || !s1.olderAccess (some w.asid) (s1.ctx w.asid).gen then (s1.enqueue idx res.1 m (some fo.wave), statusOut d 0)
      else
        let p : State := s1.setPort idx res.1
        let p1 : State := { p with arriving := p.arriving ++ [{ pkg := s.pkgid, seq := s.ticket, port := idx, msg := m }] }
        p1.advanceWait fo.wave l w.asid (natLe 8 s.ticket)

/-- A message of a lane here whose advance is complete is queued (R108, R396). -/
def State.sendAdvanced (s : State) (fo : Focus) (d : Opd) (n : Nat) : State × Out :=
  match s.arriving.find? (fun x => x.pkg == s.pkgid && x.seq == n) with
  | none => (s, statusOut d 7)
  | some x =>
    let s1 := { s with arriving := s.arriving.filter (fun y => !(y.pkg == s.pkgid && y.seq == n)) }
    match s1.portIdx x.port with
    | some p => (s1.enqueue x.port p x.msg (some fo.wave), statusOut d 0)
    | none => (s1, statusOut d 7)

/-- A lane that waits for something else than bytes. -/
def State.waitFor (s : State) (u l : Nat) (k : WaitKind) : State :=
  { (s.modLane u l (fun ln => { ln with wait := some { kind := k, ticket := s.ticket, status := none, value := 0, bytes := [] } })) with
    ticket := s.ticket + 1 }

/-- A sender waits for room at a matched-mode port, with its tag (R210). -/
def State.roomWait (s : State) (u l idx tag : Nat) : State := s.waitWith u l (.room idx) 0 (natLe 8 tag)

/-- KSEND to a matched-mode port here (R208 to R211, R394): a payload over 4 KiB stays with its sender.
DEDUCED, log entry 54. -/
def State.sendMatched (s : State) (fo : Focus) (w : Wave) (l : Nat) (ln : Lane) (d : Opd) (r : SendRec) (bytes : List Byte) (idx : Nat)
    (p : Port) : State × Out :=
  let big := r.rendezvous
  let n := s.fabric.nextReq
  let e : Unexpected :=
    { port := idx, source := s.sendSource w, tag := r.tag, len := if big then r.payLen else bytes.length, bytes := bytes,
      sender := if big then some (.lane fo.wave l n r.payVa) else none, time := 0 }
  if r.nGrant != 0 then (s, statusOut d 2)
  else if w.sendsBefore idx l ln then (if (ln.roomTicket idx).isSome then (s, .hold) else (s.roomWait fo.wave l idx r.tag, .set))
  else
    let s1 := if big then { s with fabric := { s.fabric with nextReq := n + 1 } }.waitFor fo.wave l (.rendezvous n) else s
    match s1.receiveMsg p e with
    | (s2, .done) => (s2, statusOut d 0)
    | (s2, .pending) => (s2, .set)
    | (_, .full) => if (ln.roomTicket idx).isSome then (s, .hold) else (s.roomWait fo.wave l idx r.tag, .set)

/-- KSEND to a port of another package (R394, R396): a release at .pod (R187, R361); the lane waits for the answer. -/
def State.sendAway (s : State) (fo : Focus) (w : Wave) (l : Nat) (ln : Lane) (d : Opd) (r : SendRec) (bytes : List Byte) (pkg : Nat) (port : Word) :
    State × Out :=
  match s.grantFrames w ln r.pages, s.releaseWait fo.wave l (some .pod) 0 with
  | .error t, _ => s.trapOrAsk fo w l ln t
  | .ok none, _ => (s, statusOut d 2)
  | .ok (some _), some p => (s.waitWith fo.wave l (.acks p) 0 ln.got, .set)
  | .ok (some fs), none =>
    let m : PortMessage :=
      { port := port, source := s.sendSource w, tag := BitVec.ofNat 64 r.tag, bytes := bytes, len := if r.rendezvous then r.payLen else bytes.length,
        byref := r.byRef, time := 0,
        grants := fs.map (fun f => { size := BitVec.ofNat 2 f.size, frame := f.pa, bytes := [] }) }
    let k := s.newKmsg { wave := fo.wave, lane := l, asid := w.asid, dest := pkg, seq := 0, body := .message m, pages := r.pages, port := 0, sentAt := 0,
                          priv := ln.isPriv, payva := r.payVa }
    (k.2.waitFor fo.wave l (.send k.1), .set)

/-- A lane that waits for room looks again. -/
def Lane.retry (ln : Lane) : Lane :=
  match ln.wait with
  | some wt => match wt.kind with
    | .room _ => { ln with wait := none }
    | _ => ln
  | none => ln

/-- The bytes that came with the end of a wait. -/
def Lane.waitBytes (ln : Lane) : List Byte := match ln.wait with | some wt => wt.bytes | none => []

/-- How a wait inside Logen that is over gives its status. -/
def Lane.logenStatus (ln : Lane) : Option (Option Nat) :=
  match ln.wait with
  | some wt => match wt.kind with
    | .send _ | .rendezvous _ => some wt.status
    | .room _ | .port _ => if wt.status = some 7 then some (some 7) else none
    | _ => none
  | none => none

/-- KSEND once its record is read (R394), by a lane that may wait for room already. -/
def State.sendRecord (s : State) (fo : Focus) (w : Wave) (l : Nat) (ln : Lane) (d : Opd) (at_ : PortAt) (va : Nat) (bs rem : List Byte) :
    State × Out :=
  let acc := laneAcc w ln false
  let r := SendRec.ofBytes bs
  match s.laneRead w.coreKey acc (va + 64) r.inLen rem with
  | .error t => s.trapOrAsk fo w l ln t
  | .ok (inl, rem1, s1) =>
    if !r.formed then (s1, statusOut d 2)
    else
      let pay : Except Trap (List Byte × List Byte × State) :=
        if r.rendezvous then
          match s1.pagesFault acc r.payVa r.payLen (r.payLen / 4096 + 2) with
          | some t => .error t
          | none => .ok ([], [], s1)
        else if r.byRef then s1.laneRead w.coreKey acc r.payVa r.payLen rem1
        else .ok (inl, [], s1)
      let toPort (matched : Bool) : Bool := if matched then r.nGrant == 0 else !r.byRef
      let badMode := match at_ with
        | .here _ p => !toPort p.matched
        | .away _ _ => false
        | .closed => match s1.grantFrames w ln r.pages with | .ok none => true | _ => false
      if badMode then (s1, statusOut d 2)
      else if at_ == .closed then (s1, statusOut d 7)
      else
        match pay with
        | .error t => s1.trapOrAsk fo w l ln t
        | .ok (bytes, _, s2) =>
          match at_ with
          | .closed => (s2, statusOut d 7)
          | .away pkg port => s2.sendAway fo w l ln d r bytes pkg port
          | .here idx p => if p.matched then s2.sendMatched fo w l ln d r bytes idx p else s2.sendQueue fo w l ln d r bytes idx p

/-- The wait of a lane's interrupted instruction, where it executes it again (R254, R386). -/
def Lane.takenUp (ln : Lane) : Option Wait :=
  if ln.wait.isNone then (ln.parked.find? (fun q => q.pc == ln.pc && q.inTrap == ln.inTrap)).map Parked.wait else none

/-- A lane that takes its interrupted wait up. -/
def State.takeUp (s : State) (u l : Nat) (wt : Wait) : State × Out :=
  (s.modLane u l (fun x => { x with wait := some wt, parked := x.parked.filter (fun q => !(q.pc == x.pc && q.inTrap == x.inTrap)) }), .set)

/-- KSEND (R393, R394, R396). -/
def execKsend (d a b : Opd) (s : State) : Host.Outcome State Fault Refusal :=
  .next (krnInstr s d (fun s' fo w l ln0 _ =>
    match ln0.takenUp, ln0.advanced, ln0.logenStatus with
    | some wt, _, _ => s'.takeUp fo.wave l wt
    | none, some bs, _ => s'.sendAdvanced fo d (leNat (bs.take 8))
    | none, none, some (some st) => (s', if st < 256 then statusOut d st else .trap (poisonTrap (leNat ln0.waitBytes)) false)
    | none, none, some none => (s', .hold)
    | none, none, none =>
      let h := readOpd w l ln0 a
      match s'.portOf h w.asid with
      | none => (s', .trap (kernelObj h) false)
      | some at_ =>
        let va := (readPair w l ln0 b).toNat
        s'.withRecord fo w l ln0.retry va 64 64 (fun s1 bs rem => s1.sendRecord fo w l ln0 d at_ va bs rem)))

/-- The header of a message (R395). -/
def msgHeader (p : Port) (m : Msg) : List Byte :=
  let gs := List.range (min 4 m.grants.length)
  natLe 64 (m.tag % 2 ^ 64 + m.source.toNat * 2 ^ 64 + m.bytes.length % 512 * 2 ^ 96 + m.grants.length % 8 * 2 ^ 105 +
    gs.foldl (fun n i => match m.grants[i]? with
      | some (slot, f) => n + p.slotVa slot / 4096 % 2 ^ 45 * 2 ^ (128 + 45 * i) + f.size % 4 * 2 ^ (308 + 2 * i)
      | none => n) 0)

/-- The granted pages of a message mapped in their slots, as it is taken (R397). -/
def State.mapGrants (s : State) (asid : Nat) (p : Port) (gs : List (Nat × Frame)) : State :=
  gs.foldl (fun t e => t.setEntries asid (p.slotVa e.1) e.2.size (fun _ => grantEntry e.2)) s

/-- A message that a lane is taking: its buffer's writes to another package are on their way. -/
def State.msgHeld (s : State) (m : Msg) : Bool :=
  match m.taker with
  | none => false
  | some (u, l) =>
    match (s.lane u l).bind Lane.wait with
    | some wt => (match wt.kind with | .remote _ | .requests | .dieLink _ _ | .cxl | .fetch _ => true | _ => false)
    | none => false

/-- The message of a port that a lane takes is the oldest (R395): the one it is taking already, or one that no lane takes and no earlier
waiter is due. -/
def State.dueMsg (s : State) (idx u l : Nat) (ln : Lane) (m : Msg) : Bool :=
  (m.taker == some (u, l) && ln.wait.isSome) || (!s.msgHeld m && s.ahead (fun k => k == .port idx) ln == 0)

/-- The oldest message taken from a port (R395, R397): pages mapped, header and bytes written; where that faults, the message
stays. -/
def State.takeMsg (s : State) (fo : Focus) (w : Wave) (l : Nat) (ln : Lane) (d : Opd) (idx : Nat) (p : Port) (m : Msg) (va : Nat) :
    State × Out :=
  let asid := (s.obj idx).asid
  let s1 := (s.withAcks ln).mapGrants asid p m.grants
  let written := match s.entriesBar (p.grantPages asid m.grants) with
    | some t => (s, some t)
    | none => s1.engWrite (laneAcc w ln true) va (msgHeader p m ++ m.bytes)
  match written with
  | (_, some t) =>
    let mine (x : Option (Nat × Nat)) : State := s.setPort idx { p with queue := p.queue.modify 0 (fun y => { y with taker := x }) }
    if t.cause = 0 || (t.cause = 0x15 && t.aux == 3) then (mine (some (fo.wave, l))).trapOrAsk fo w l ln t
    else (mine none, .trap t false)
  | (s2, none) =>
    let slots := m.grants.foldl (fun x e => sput x e.1 { frame := e.2, mapped := true }) p.slots
    (((s2.setPort idx { p with queue := p.queue.tail, slots := slots }).acquire w true).noRun, statusOut d 0)

/-- KRECV and KTRYRECV (R395): lanes that wait are served in the order they began to, before one that comes to a queue with messages.
DEDUCED, log entry 61. -/
def recvInstr (s : State) (d a b : Opd) (try_ : Bool) : State :=
  krnInstr s d (fun s' fo w l ln0 _ =>
    match ln0.logenStatus, s'.resumed (laneAcc w ln0 true) ln0.accessing with
    | some (some st), _ => (s', statusOut d st)
    | some none, _ => (s', .hold)
    | none, some o => (s', o)
    | none, none =>
      let h := readOpd w l ln0 a
      match s'.portOf h w.asid with
      | none => (s', .trap (kernelObj h) false)
      | some at_ =>
        let va := (readPair w l ln0 b).toNat
        if va % 64 != 0 then (s', .trap (Trap.mk 0x12 va 0) false)
        else
          match at_ with
          | .away _ _ => (s', statusOut d 4)
          | .closed => (s', statusOut d 7)
          | .here idx p =>
            let mine : State × Out :=
              if ln0.wait.map Wait.kind == some (.port idx) then (s', .hold)
              else (s'.waitWith fo.wave l (.port idx) (if try_ then 1 else 0) [], .set)
            match p.queue with
            | m :: _ => if s'.dueMsg idx fo.wave l ln0 m then s'.takeMsg fo w l ln0 d idx p m va else mine
            | [] => if p.peerClosed then (s', statusOut d 7) else if try_ then (s', statusOut d 13) else mine)

/-- KRECV (R395). -/
def execKrecv (d a b : Opd) (s : State) : Host.Outcome State Fault Refusal := .next (recvInstr s d a b false)

/-- KTRYRECV (R395). -/
def execKtryrecv (d a b : Opd) (s : State) : Host.Outcome State Fault Refusal := .next (recvInstr s d a b true)

/-- An object that a wait set can hold (R400). -/
def waitable (b : Body) : Bool :=
  match b with
  | .port _ | .wave _ _ _ _ | .timer _ _ _ | .taskq _ _ _ | .pipegroup _ _ _ => true
  | .ref _ _ _ | .waitset _ | .space _ _ _ _ | .mcgroup _ | .stream _ => false

/-- A function on a wait set: its entry and slots, or KERNEL_OBJ. -/
def onWaitset (s : State) (w : Wave) (h : Word) (f : Nat → Sparse (Word × Word) → State × Out) : State × Out :=
  match s.live h w.asid with
  | some (i, .waitset slots) => f i slots
  | _ => (s, .trap (kernelObj h) false)

/-- KWADD (R399). -/
def execKwadd (d a b : Opd) (s : State) : Host.Outcome State Fault Refusal :=
  .next (krnInstr s d (fun s' _ w l ln _ =>
    onWaitset s' w (readOpd w l ln a) (fun i slots =>
      let h := readOpd w l ln b
      match s'.live h w.asid with
      | none => (s', .trap (kernelObj h) false)
      | some (_, body) =>
        if !waitable body then (s', statusOut d 12)
        else if slots.any (fun e => e.2.1 == h) then (s', statusOut d 5)
        else
          match firstFree (skeys slots) 0 64 with
          | none => (s', statusOut d 1)
          | some k => (s'.setBody i (.waitset (sput slots k (h, readOpd w l ln (opdPlus b 1)))), statusOut d 0))))

/-- KWDEL (R399). -/
def execKwdel (d a b : Opd) (s : State) : Host.Outcome State Fault Refusal :=
  .next (krnInstr s d (fun s' _ w l ln _ =>
    onWaitset s' w (readOpd w l ln a) (fun i slots =>
      let h := readOpd w l ln b
      match s'.live h w.asid with
      | none => (s', .trap (kernelObj h) false)
      | some _ =>
        if slots.any (fun e => e.2.1 == h) then (s'.setBody i (.waitset (slots.filter (fun e => e.2.1 != h))), statusOut d 0)
        else (s', statusOut d 9))))

/-- A counted event taken (R401), and what the return of a key acquires (R365): nothing of a wave lost to a reset (R432). -/
def State.takeSignal (s : State) (w : Wave) (i : Nat) : State :=
  match (s.obj i).body with
  | some (.timer p x n) => s.setBody i (.timer p x (n - 1))
  | some (.taskq b c n) => s.setBody i (.taskq b c (n - 1))
  | some (.wave _ _ _ lost) => if lost then s else s.acquire w true
  | _ => s

/-- A lane waits in KWAIT already. -/
def Lane.inSet (ln : Lane) : Bool := match ln.wait with | some wt => (match wt.kind with | .waitSet _ _ => true | _ => false) | none => false

/-- KWAIT (R401). -/
def execKwait (d a b : Opd) (s : State) : Host.Outcome State Fault Refusal :=
  .next (krnInstr s d (fun s' _ w l ln _ =>
    let st := ln.wait.bind Wait.status
    if st = some 7 then (s', .done (some d) [7, 0] 0)
    else
      onWaitset s' w (readOpd w l ln a) (fun i _ =>
        let limit := (readOpd w l ln b).toNat
        match s'.lowestSignalled i ln with
        | some (o, key) => (s'.takeSignal w o, .done (some d) [0, key] 0)
        | none =>
          if st = some 6 || limit = 0 then (s', .done (some d) [6, 0] 0)
          else if ln.inSet then (s', .hold)
          else (s', .wait (.waitSet i (if limit = 0xFFFFFFFF then none else some (s'.time + 1000 * limit)))))))

/-- KWAIT_TIMEOUT (R401). -/
def execKwaitTimeout (s : State) : Host.Outcome State Fault Refusal :=
  match s.input with
  | some (.kwaitTimeout u l) =>
    match (s.lane u l).bind Lane.wait with
    | none => .next s
    | some wt =>
      match wt.kind with
      | .waitSet _ (some t) =>
        if wt.status.isNone then .next ((s.atLeast t).modLane u l (fun ln => { ln with wait := some { wt with status := some 6 } })) else .next s
      | _ => .next s
  | _ => .next s

/-- A function on a timer: its entry, or KERNEL_OBJ. -/
def onTimer (s : State) (w : Wave) (h : Word) (f : Nat → Nat → Option Nat → Nat → State × Out) : State × Out :=
  match s.live h w.asid with
  | some (i, .timer p t n) => f i p t n
  | _ => (s, .trap (kernelObj h) false)

/-- KARM (R403): a deadline already past counts every expiry due. -/
def execKarm (d a b : Opd) (s : State) : Host.Outcome State Fault Refusal :=
  .next (krnInstr s d (fun s' fo w l ln _ =>
    onTimer s' w (readOpd w l ln a) (fun i period _ n =>
      let t := (readPair w l ln b).toNat
      if s'.time < t then (s'.setBody i (.timer period (some t) n), statusOut d 0)
      else
        let k := if period = 0 then 1 else (s'.time - t) / period + 1
        let next := if period = 0 then none else some (t + k * period)
        ((s'.setBody i (.timer period next (addPending n k))).signalled i (some fo.wave), statusOut d 0))))

/-- KDISARM (R403). -/
def execKdisarm (d a : Opd) (s : State) : Host.Outcome State Fault Refusal :=
  .next (krnInstr s d (fun s' _ w l ln _ =>
    onTimer s' w (readOpd w l ln a) (fun i period t _ =>
      if t.isSome then (s'.setBody i (.timer period none 0), statusOut d 0) else (s', statusOut d 5))))

/-- TIMER_EXPIRY (R403). -/
def State.expire (s : State) (i : Nat) : Option State :=
  match (s.obj i).body with
  | some (.timer period (some t) n) =>
    some (((s.atLeast t).setBody i (.timer period (if period = 0 then none else some (t + period)) (addPending n 1))).signalled i none)
  | _ => none

/-- TIMER_EXPIRY (R403). -/
def execTimerExpiry (s : State) : Host.Outcome State Fault Refusal :=
  match s.input with
  | some (.timerExpiry i) => .next ((s.expire i).getD s)
  | _ => .next s

/-- KTIME (R402). DESIGN CHOICE, log entry 14. -/
def execKtime (d : Opd) (s : State) : Host.Outcome State Fault Refusal :=
  let s1 := { s with time := s.time + Config.elapsed s.freeCtr }
  .next (krnInstr s1 d (fun s' _ _ _ _ _ => (s', .done (some d) [BitVec.ofNat 32 s1.time, BitVec.ofNat 32 (s1.time / 2 ^ 32)] 0)))

/-- The name of a record (R404). -/
def nameOf (bs : List Byte) : Option (List Byte) :=
  let n := (bs.headD 0).toNat
  if n = 0 || 48 < n || (bs.drop (16 + n)).any (fun x => x != 0) then none else some ((bs.drop 16).take n)

/-- A name's port as a number: package, mode and handle. -/
def Name.value (n : Name) : Nat := n.pkg * 2 ^ 33 + (if n.matched then 2 ^ 32 else 0) + n.port.toNat

/-- A name bound at its home (R405): the status. -/
def State.bindName (s : State) (name : List Byte) (pkg : Nat) (port : Word) (matched : Bool) : State × Nat :=
  if s.names.any (fun n => n.name == name) then (s, 10)
  else ({ s with names := s.names ++ [{ name := name, pkg := pkg, port := port, matched := matched }] }, 0)

/-- A reference made to what a lookup found (R383, R406). -/
def State.makeRef (s : State) (w : Wave) (d : Opd) (value : Nat) : State × Out :=
  let pkg := value / 2 ^ 33
  let port := BitVec.ofNat 32 value
  match s.newObj w.asid (.ref pkg port (bitOf value 32)) with
  | none => (s, handleOut d 1 0)
  | some (i, s1) =>
    (if pkg = s.pkgid then s1.addSender port else s1.tellLogen pkg (.refOpened port), handleOut d 0 (s1.handleOf i))

/-- A request about a name sent to its home. -/
def State.askHome (s : State) (fo : Focus) (w : Wave) (l home : Nat) (body : KmsgBody) (port : Nat) : State × Out :=
  let k := s.newKmsg { wave := fo.wave, lane := l, asid := w.asid, dest := home, seq := 0, body := body, pages := [], port := port, sentAt := 0 }
  (k.2.waitFor fo.wave l (.name k.1), .set)

/-- The status of a wait for a name's home. -/
def Lane.nameStatus (ln : Lane) : Option (Option (Nat × Nat)) :=
  match ln.wait with
  | some wt => match wt.kind with
    | .name _ => some (wt.status.map (fun st => (st, leNat wt.bytes)))
    | _ => none
  | none => none

/-- KLOOKUP (R406). -/
def execKlookup (d a : Opd) (s : State) : Host.Outcome State Fault Refusal :=
  .next (krnInstr s d (fun s' fo w l ln _ =>
    match ln.takenUp, ln.nameStatus with
    | some wt, _ => s'.takeUp fo.wave l wt
    | none, some (some (0, v)) => s'.makeRef w d v
    | none, some (some (st, _)) => (s', handleOut d st 0)
    | none, some none => (s', .hold)
    | none, none =>
      s'.withRecord fo w l ln (readPair w l ln a).toNat 64 64 (fun s1 bs _ =>
        match nameOf bs with
        | none => (s1, handleOut d 2 0)
        | some name =>
          if nameHome s1 name = s1.pkgid then
            match s1.names.find? (fun n => n.name == name) with
            | some n => s1.makeRef w d n.value
            | none => (s1, handleOut d 9 0)
          else s1.askHome fo w l (nameHome s1 name) (.lookup name) 0)))

/-- A port bears the name that its home has bound (R405): the status. A port that has taken another name meanwhile, or has closed, gives
it up. -/
def State.nameport (s : State) (idx : Nat) (name : List Byte) : State × Nat :=
  match s.portIdx idx with
  | some p => if p.name.isSome then (s.unbind name, 5) else (s.setPort idx { p with name := some name }, 0)
  | none => (s.unbind name, 0)

/-- KNAME (R405). -/
def execKname (d a b : Opd) (s : State) : Host.Outcome State Fault Refusal :=
  .next (krnInstr s d (fun s' fo w l ln _ =>
    match ln.takenUp, ln.nameStatus with
    | some wt, _ => s'.takeUp fo.wave l wt
    | none, some (some (st, _)) => (s', statusOut d st)
    | none, some none => (s', .hold)
    | none, none =>
      let h := readOpd w l ln a
      match s'.live h w.asid with
      | some (_, .ref _ _ _) =>
        s'.withRecord fo w l ln (readPair w l ln b).toNat 64 64 (fun s1 bs _ => (s1, statusOut d (if (nameOf bs).isSome then 12 else 2)))
      | some (idx, .port p) =>
        s'.withRecord fo w l ln (readPair w l ln b).toNat 64 64 (fun s1 bs _ =>
          match nameOf bs with
          | none => (s1, statusOut d 2)
          | some name =>
            if p.name.isSome then (s1, statusOut d 5)
            else if nameHome s1 name = s1.pkgid then
              let r := s1.bindName name s1.pkgid h p.matched
              (if r.2 = 0 then (r.1.nameport idx name).1 else r.1, statusOut d r.2)
            else s1.askHome fo w l (nameHome s1 name) (.bind name h p.matched) idx)
      | _ => (s', .trap (kernelObj h) false)))

/-- The answer of a name's home to a lookup (R406). -/
def State.lookupName (s : State) (name : List Byte) : Nat × Nat :=
  match s.names.find? (fun n => n.name == name) with
  | some n => (0, n.value)
  | none => (9, 0)

/-- Frames of the sizes a message needs taken from the pool (R396, R398); none when one is missing. -/
def takeFrames (pool : List Frame) (sizes : List Nat) : Option (List Frame × List Frame) :=
  match sizes with
  | [] => some ([], pool)
  | z :: rest =>
    match pool.find? (fun f => f.size == z) with
    | none => none
    | some f =>
      match takeFrames (pool.filter (fun g => g != f)) rest with
      | none => none
      | some (fs, p) => some (f :: fs, p)

/-- A message of another package at a queue-mode port (R394, R396): what becomes of it, or none while it has no room. One that grants
pages takes frames and slots, and asks for the pages. -/
def State.queueAway (s : State) (src seq idx : Nat) (p : Port) (m : PortMessage) : Option State :=
  if m.byref then some (s.replyKmsg src seq 2 0)
  else
    match takeFrames s.pool (m.grants.map (fun g => g.size.toNat)) with
    | none => some (s.replyKmsg src seq 11 0)
    | some (fs, pool) =>
      if p.freeSlots < fs.length then some (s.replyKmsg src seq 11 0)
      else if p.capacity ≤ s.queueLen idx p then none
      else
        let asid := (s.obj idx).asid
        let r := p.reserve fs
        if (s.entriesBar (p.grantPages asid r.2)).any (fun t => t.need.isSome) then none
        else
        let msg : Msg := { source := m.source, tag := m.tag.toNat, bytes := m.bytes, grants := r.2 }
        if fs.isEmpty then some ((s.enqueue idx r.1 msg none).replyKmsg src seq 0 0)
        else
          some (({ (s.reserveEntries asid p r.2).setPort idx r.1 with pool := pool, arriving := s.arriving ++ [{ pkg := src, seq := seq, port := idx, msg := msg }] } : State).tellLogen
            src (.pull seq))

/-- An earlier message of the same SOURCE to the same port, from the same package, has no room yet (R209). -/
def State.heldBefore (s : State) (src seq : Nat) (m : PortMessage) : Bool :=
  (s.kmsgHeld.takeWhile (fun e => !(e.1 == src && e.2.1 == seq))).any (fun e => match e.2.2 with
    | .message x => e.1 == src && x.port == m.port && x.source == m.source
    | _ => false)

/-- A message of another package (R394, R435): queued or landed exactly once, or answered; none while it has no room. -/
def State.deliver (s : State) (src seq : Nat) (m : PortMessage) : Option State :=
  if s.heldBefore src seq m then none
  else
    match s.entry m.port with
    | some (idx, .port p) =>
      if p.matched then
        if !m.grants.isEmpty then some (s.replyKmsg src seq 2 0)
        else
          let sender : Option Sender := if m.bytes.length < m.len then some (.away src seq) else none
          match s.receiveMsg p { port := idx, source := m.source, tag := m.tag.toNat, len := m.len, bytes := m.bytes, sender := sender, time := 0 } with
          | (s1, .done) => some (s1.replyKmsg src seq 0 0)
          | (s1, .pending) => some s1
          | (_, .full) => none
      else s.queueAway src seq idx p m
    | _ => some (s.replyKmsg src seq 7 0)

/-- The lines of a frame. -/
def Frame.lines (f : Frame) : List Nat := (List.range (32 * 4 ^ f.size)).map (fun i => localOf f.pa / 128 + i)

/-- The pages that a message grants leave their sender (R396, R108): revoked first, then, once the advance is complete, copied through
Pavilion (R112), their frames returned to the pool; none while older accesses are on their way. -/
def State.sendPages (s : State) (n : Nat) (k : Kmsg) (m : PortMessage) : State × Option (List (List Byte)) :=
  let fs := (k.pages.zip m.grants).map (fun e => (e.1, ({ pa := e.2.frame, size := e.2.size.toNat } : Frame)))
  match k.revoked with
  | none =>
    let s1 := fs.foldl (fun t e => t.revoke k.asid e.1 e.2) s
    ({ s1 with kmsgs := sput s1.kmsgs n { k with revoked := some (s1.ctx k.asid).gen } }, none)
  | some gen =>
    if s.olderAccess (some k.asid) gen then (s, none)
    else
      let s1 := (fs.flatMap (fun e => e.2.lines)).foldl (fun t n => t.receiveBy 6 n) s
      ({ s1 with pool := s.pool ++ fs.map Prod.snd }, some (fs.map (fun e => s.home (localOf e.2.pa) (4096 * 4 ^ e.2.size))))

/-- What Logen finds wrong with the pages that a message grants, as it revokes and copies them (R171, R182): their entries, their lines. -/
def State.pagesBar (s : State) (k : Kmsg) (m : PortMessage) : Option Trap :=
  let fs := (k.pages.zip m.grants).map (fun e => (e.1, ({ pa := e.2.frame, size := e.2.size.toNat } : Frame)))
  (if k.revoked.isNone then s.entriesBar (fs.map (fun e => (k.asid, e.1, e.2.size))) else none).or
    (fs.findSome? (fun e => e.2.lines.findSome? (fun n => s.logenBars (e.1 + 128 * (n - localOf e.2.pa / 128)) (128 * n) 128)))

/-- A KSEND whose pages cannot be read traps POISON (R182): log entry 101. -/
def State.failSend (s : State) (n va : Nat) : State := { s with kmsgs := sdel s.kmsgs n }.release (fun x => x == WaitKind.send n) 256 0 (natLe 8 va)

/-- The lane that sent a message is still there (R211). -/
def State.kmsgAlive (s : State) (n : Nat) (k : Kmsg) : Bool := s.senderThere (.lane k.wave k.lane n 0)

/-- Another package asks for the payload or the pages of a message sent from here (R210, R396): the state after, or none while nothing
can be done. -/
def State.answerPull (s : State) (src seq q : Nat) : Option State :=
  let done (t : State) (bytes : List Byte) (pages : List (List Byte)) (fault : Option (Nat × Nat)) : State :=
    (t.tellLogen src (.payload q bytes pages fault)).replyKmsg src seq 0 0
  match s.kmsgs.find? (fun e => e.2.dest == src && e.2.seq == q) with
  | none => some (done s [] [] (some (0, 0)))
  | some (n, k) =>
    match k.body with
    | .message m =>
      if m.grants.isEmpty then
        if !s.kmsgAlive n k then some (done s [] [] (some (0, 0)))
        else
          s.engine (.message n) k.wave k.asid 6 (fun t rem =>
            match t.engRead (engAcc k.asid k.priv) k.payva m.len rem with
            | .ok (bs, _, t1) => .ok (done t1 bs [] none)
            | .error e => if e.cause = 0 then .error e else .ok (done (t.noteBad e) [] [] (some (e.cause, e.va))))
      else
        match s.pagesBar k m with
        | some t => if t.need.isSome then none else some (done ((s.noteBad t).failSend n t.va) [] [] (some (t.cause, t.va)))
        | none =>
          let same (e : Nat × GrantPage) : Bool := match s.grantable k.asid k.priv e.1 with | .ok (some f) => f.pa == e.2.frame | _ => false
          if k.revoked.isNone && !(k.pages.zip m.grants).all same then some (done s [] [] (some (0x10, 0)))
          else if k.revoked.isSome && s.olderAccess (some k.asid) (k.revoked.getD 0) then none
          else
            match s.sendPages n k m with
            | (s1, none) => some s1
            | (s1, some pages) => some (done s1 [] pages none)
    | _ => some (done s [] [] (some (0, 0)))

/-- The payload of a message arrives for the post that took it (R210): it lands, or its fault ends the post. -/
def State.payloadCame (s : State) (src q : Nat) (bytes : List Byte) (fault : Option (Nat × Nat)) : State :=
  let here (post : Post) : Bool := match post.landing with | some e => e.sender == some (.away src q) | none => false
  match s.objs.findSome? (fun e => match e.2.body with
      | some (.port p) => (p.posts.findIdx? here).map (fun n => (e.1, n))
      | _ => none) with
  | none => s
  | some (idx, n) =>
    match fault with
    | none => (s.modPost idx n (fun p => { p with landing := p.landing.map (fun e => { e with bytes := bytes, len := bytes.length }) })).runPost idx n
    | some (code, va) =>
      let e := ((s.portIdx idx).bind (fun p => p.posts[n]?)).bind Post.landing
      let source := match e with | some x => x.source | none => 0
      let tag := match e with | some x => x.tag | none => 0
      let c := if code = 0 then Completion.bare 5 else { Completion.bare 3 with faultCode := code, faultVa := va }
      ((s.endPost idx n { c with source := source, tag := tag }).runPost idx n).replyKmsg src q 0 0

/-- The pages of a message arrive (R396): in their frames, but for lines in error (R182), and the message is queued; or it is given up. -/
def State.pagesCame (s : State) (x : Arriving) (pages : List (List Byte)) (fault : Option (Nat × Nat)) : State :=
  let s1 := { s with arriving := s.arriving.filter (fun y => !(y.pkg == x.pkg && y.seq == x.seq)) }
  match s1.portIdx x.port with
  | none => s1
  | some p =>
    if fault.isSome then
      let p1 := { p with slots := x.msg.grants.foldl (fun m e => sdel m e.1) p.slots }
      ({ s1.setPort x.port p1 with pool := s1.pool ++ x.msg.grants.map Prod.snd } : State).replyKmsg x.pkg x.seq 2 0
    else
      let s2 := ((x.msg.grants.map Prod.snd).zip pages).foldl (fun t e =>
        e.1.lines.foldl (fun u n =>
          if u.poisoned (128 * n) 128 then u else u.storeAs 6 (128 * n) ((e.2.drop (128 * n - localOf e.1.pa)).take 128)) t) s1
      (s2.enqueue x.port p x.msg none).replyKmsg x.pkg x.seq 0 0

/-- What another package's Logen asks for, performed (R383, R390, R394, R396, R405, R406): the state after, or none while nothing can be
done. -/
def State.perform (s : State) (src seq : Nat) (body : KmsgBody) : Option State :=
  match body with
  | .message m => s.deliver src seq m
  | .refOpened h => some ((s.addSender h).replyKmsg src seq 0 0)
  | .refClosed h => some ((s.dropSender h none).replyKmsg src seq 0 0)
  | .unbind name => some ({ s with names := s.names.filter (fun n => n.name != name) }.replyKmsg src seq 0 0)
  | .bind name port matched =>
    let r := s.bindName name src port matched
    some (r.1.replyKmsg src seq r.2 0)
  | .lookup name =>
    let r := s.lookupName name
    some (s.replyKmsg src seq r.1 r.2)
  | .pull q => s.answerPull src seq q
  | .payload q bytes pages fault =>
    some ((match s.arriving.find? (fun (x : Arriving) => x.pkg == src && x.seq == q && src != s.pkgid) with
      | some x => s.pagesCame x pages fault
      | none => s.payloadCame src q bytes fault).replyKmsg src seq 0 0)

/-- A message that has been taken and is not yet over. -/
def State.isHeld (s : State) (src seq : Nat) : Bool := s.kmsgHeld.any (fun e => e.1 == src && e.2.1 == seq)

/-- The answer to a message of another package so far: none before it is taken, 255 while it has none. -/
def State.seen (s : State) (src seq : Nat) : Option Nat := sget (sgetD s.kmsgSeen src []) seq

/-- A message is taken (R394, R435): kept, as often as it comes, until it is performed, and answered once. -/
def State.takeKmsg (s : State) (src seq : Nat) (body : KmsgBody) : State :=
  let s0 := if (s.seen src seq).isSome then s
    else { s with kmsgSeen := sput s.kmsgSeen src (sput (sgetD s.kmsgSeen src []) seq 255), kmsgHeld := s.kmsgHeld ++ [(src, seq, body)] }
  match s0.perform src seq body with
  | none => s0
  | some s1 =>
    let ended : Bool := match body with
      | .pull _ => (s1.seen src seq).getD 0 % 256 != 255
      | _ => true
    if ended then { s1 with kmsgHeld := s1.kmsgHeld.filter (fun e => !(e.1 == src && e.2.1 == seq)) } else s1

/-- A message of another package's Logen comes (R209, R394, R435): in the order of its package's numbers; one that is over is answered
as it was before. -/
def State.kmsgIn (s : State) (src seq : Nat) (body : KmsgBody) : State :=
  match s.seen src seq with
  | some v =>
    if s.isHeld src seq then s.takeKmsg src seq body
    else if v % 256 = 255 then s
    else s.sendFlit 0 (.kmsgReply src seq (v % 256) (v / 256))
  | none => if seq = 0 || (s.seen src (seq - 1)).isSome then s.takeKmsg src seq body else s

/-- The first held message with which something can be done now. -/
def State.heldKmsg (s : State) : Option (Nat × Nat × KmsgBody) := s.kmsgHeld.find? (fun e => (s.perform e.1 e.2.1 e.2.2).isSome)

/-- A Logen message whose flits have authenticated (R195), or one that has been taken and can go on. -/
def State.kmsgCame (s : State) (src seq : Nat) (body : KmsgBody) : State :=
  match s.takeFlit (.kmsg src seq body) with
  | some s1 => s1.kmsgIn src seq body
  | none => if s.isHeld src seq then s.kmsgIn src seq body else s

/-- KMSG_DELIVER (R394, R435). -/
def execKmsgDeliver (s : State) : Host.Outcome State Fault Refusal :=
  match s.input with
  | some (.kmsgDeliver src seq body) => .next (s.kmsgCame src seq body)
  | _ => .next s

/-- BELVEDERE_BIND (R405). -/
def execBelvedereBind (s : State) : Host.Outcome State Fault Refusal :=
  match s.input with
  | some (.belvedereBind src seq name port matched) => .next (s.kmsgCame src seq (.bind name port matched))
  | _ => .next s

/-- BELVEDERE_LOOKUP (R406). -/
def execBelvedereLookup (s : State) : Host.Outcome State Fault Refusal :=
  match s.input with
  | some (.belvedereLookup src seq name) => .next (s.kmsgCame src seq (.lookup name))
  | _ => .next s

/-- KMSG_REPLY (R195, R394, R405, R406). -/
def execKmsgReply (s : State) : Host.Outcome State Fault Refusal :=
  match s.input with
  | some (.kmsgReply req status value) =>
    match s.takeFlit (.kmsgReply req status value) with
    | none => .next s
    | some s1 =>
      match sget s1.kmsgs req with
      | none => .next s1
      | some k =>
        let s0 := { s1 with kmsgs := sdel s1.kmsgs req }
        match k.body with
        | .message _ => .next ((s0.dropClient (.message req)).release (fun x => x == WaitKind.send req) status 0 [])
        | .bind name _ _ =>
          let r := if status = 0 then s0.nameport k.port name else (s0, status)
          .next (r.1.release (fun x => x == WaitKind.name req) r.2 0 [])
        | .lookup _ => .next (s0.release (fun x => x == WaitKind.name req) status 0 (natLe 8 value))
        | .refOpened _ | .refClosed _ | .unbind _ | .pull _ | .payload _ _ _ _ => .next s0
  | _ => .next s

/-- NAME_TIMEOUT (R405, R406): FABTIMEOUT without an answer. -/
def execNameTimeout (s : State) : Host.Outcome State Fault Refusal :=
  match s.input with
  | some (.nameTimeout req) =>
    match sget s.kmsgs req with
    | none => .next s
    | some k =>
      match k.body with
      | .bind _ _ _ | .lookup _ =>
        .next ((({ s with kmsgs := sdel s.kmsgs req } : State).atLeast (k.sentAt + 1000 * s.fabric.timeout)).release (fun x => x == WaitKind.name req) 6 0 [])
      | _ => .next s
  | _ => .next s

/-- KMSG_RETRANSMISSION (R435). -/
def execKmsgRetransmission (s : State) : Host.Outcome State Fault Refusal :=
  match s.input with
  | some (.kmsgRetransmission req) =>
    match sget s.kmsgs req with
    | none => .next s
    | some k => .next (s.sendFlit 0 (.kmsg req k.dest k.seq k.body))
  | _ => .next s

/-- The cores of a group in order (R375): those that hold its resident members, or one saved idle. -/
def State.groupCores (s : State) (g : Nat) : List Nat :=
  (List.range 384).filter (fun c => s.waves.any (fun e => e.2.group == some g && e.2.coreKey == c && (e.2.onCore || (e.2.idle && e.2.started))))

/-- A core is passive for a group (R376). -/
def State.passive (s : State) (g c : Nat) : Bool :=
  s.waves.all (fun e => e.2.group != some g || e.2.coreKey != c ||
    (if e.2.onCore || e.2.idle then e.2.lanes.all (fun x => s.laneIdle x.2) else !e.2.started || e.2.st != .saved))

/-- A member that another has spawned has no core yet: the group's end waits for it (R376). DEDUCED, log entry 53. -/
def State.unplaced (s : State) (g : Nat) : Bool := s.waves.any (fun e => e.2.group == some g && e.2.spawner.isSome && !e.2.started)

/-- The cone of a group starts when a member first executes KIDLE (R377). -/
def State.startCone (s : State) (g : Nat) : State :=
  match (s.obj g).body with
  | some (.pipegroup ended none black) => s.setBody g (.pipegroup ended (some { order := s.groupCores g, place := 0, black := false }) black)
  | _ => s

/-- What a lane in KIDLE waits for, once it waits: its wait set and its group. -/
def Lane.idleOn (ln : Lane) : Option (Nat × Nat) :=
  match ln.wait with
  | some wt => match wt.kind with
    | .idle ws g => some (ws, g)
    | _ => none
  | none => none

/-- KIDLE (R378). -/
def execKidle (d a : Opd) (s : State) : Host.Outcome State Fault Refusal :=
  .next (krnInstr s d (fun s' _ w l ln _ =>
    match ln.wait.bind Wait.status, ln.idleOn with
    | some 1, _ => (s'.acquire w true, statusOut d 1)
    | _, some (ws, _) => if s'.anySignalled ws then (s', statusOut d 0) else (s', .hold)
    | _, none =>
      let h := readOpd w l ln a
      match s'.live h w.asid with
      | some (ws, .waitset _) =>
        match w.group with
        | none => (s', statusOut d 2)
        | some g =>
          match (s'.obj g).body with
          | some (.pipegroup ended _ _) =>
            if ended then (s'.acquire w true, statusOut d 1)
            else
              let s1 := s'.startCone g
              if s1.anySignalled ws then (s1, statusOut d 0) else (s1, .wait (.idle ws g))
          | _ => (s', statusOut d 2)
      | _ => (s', .trap (kernelObj h) false)))

/-- A group ends (R377): its lanes in KIDLE return 1, its object is signalled. -/
def State.endGroup (s : State) (g : Nat) (black : List Nat) : State :=
  ((s.setBody g (.pipegroup true none black)).release (fun k => match k with | .idle _ x => x == g | _ => false) 1 0 []).signalled g none

/-- CONE_PASS (R377): from a passive core to the next, or the end of a round. -/
def State.conePass (s : State) (g : Nat) : Option State :=
  match (s.obj g).body with
  | some (.pipegroup false (some c) black) =>
    match c.order[c.place]? with
    | none =>
      if (s.groupCores g).isEmpty then none
      else some (s.setBody g (.pipegroup false (some { order := s.groupCores g, place := 0, black := false }) black))
    | some core =>
      if !s.passive g core then none
      else
        let dark := c.black || black.contains core
        let rest := black.filter (fun x => x != core)
        if c.place + 1 < c.order.length then some (s.setBody g (.pipegroup false (some { c with place := c.place + 1, black := dark }) rest))
        else if !dark && c.order.all (s.passive g) && !s.unplaced g then some (s.endGroup g rest)
        else some (s.setBody g (.pipegroup false (some { order := s.groupCores g, place := 0, black := false }) rest))
  | _ => none

/-- CONE_PASS (R377). -/
def execConePass (s : State) : Host.Outcome State Fault Refusal :=
  match s.input with
  | some (.conePass g) => .next ((s.conePass g).getD s)
  | _ => .next s

/-- The segment that KWORK gives a block next, and the cursor after it (R373, R374). -/
def Block.segment (k : Block) : List Word × Nat :=
  let none_ : List Word × Nat := ([0xFFFFFFFF, 0, 0, 0x80000000], k.cursor)
  let w := k.workTiles * k.workK
  if k.launch.isNone || w = 0 then none_
  else
    let lo := k.index * w / k.blocks
    let hi := (k.index + 1) * w / k.blocks
    let u := lo + k.cursor
    if hi ≤ u then none_
    else
      let tile := u / k.workK
      let kb := u % k.workK
      let ke := min (hi - tile * k.workK) k.workK
      ([BitVec.ofNat 32 tile, BitVec.ofNat 32 kb, BitVec.ofNat 32 ke,
        BitVec.ofNat 32 ((if kb != 0 || ke != k.workK then 1 else 0) + (if ke = k.workK then 2 else 0))], tile * k.workK + ke - lo)

/-- KWORK (R374): one segment for the whole issue group. -/
def execKwork (d : Opd) (s : State) : Host.Outcome State Fault Refusal :=
  match (s.focus.bind (fun fo => s.wave fo.wave)).bind (fun w => (sget s.blocks w.block).map (fun k => (w, k))) with
  | none => .next s
  | some (w, k) =>
    let s1 := if s.reach w.die 6 then s.modBlock w.block (fun x => { x with cursor := k.segment.2 }) else s
    .next (krnInstr s1 d (fun s' _ _ _ _ _ => (s', .done (some d) k.segment.1 0)))

end Sys2Proof.Machine
end

