-- ==== Sys2Proof/Machine/Task.lean ====
section
/-! DEFINITION. Tile tasks (R336 to R347, R475): MTASK, MTWAIT, MTSTAT and MTCANCEL, the Setters' dispatch and completion, and the
slabs and drains of a KILNOP task. -/

namespace Sys2Proof.Machine

/-- Bits of a task record (R336). -/
def tbits (rec : List Byte) (hi lo : Nat) : Nat := bitsOf (leNat rec) hi lo

/-- A truth bit of a task record. -/
def tbit (rec : List Byte) (n : Nat) : Bool := tbits rec n n == 1

/-- KIND 1 (R336). -/
def isWaveTask (rec : List Byte) : Bool := tbits rec 3 0 == 1

/-- STATE (R341). -/
def taskState (rec : List Byte) : Nat := tbits rec 11 8

/-- BOUNDk; 1 from NLOOPS on (R337). -/
def taskBound (rec : List Byte) (k : Nat) : Nat :=
  if tbits rec 18 16 ≤ k then 1 else if k = 0 then tbits rec 255 240 else tbits rec (48 * k + 223) (48 * k + 208)

/-- ROWSTEPk; 0 from NLOOPS on. -/
def rowStep (rec : List Byte) (k : Nat) : Int := if tbits rec 18 16 ≤ k then 0 else signed 16 (tbits rec (48 * k + 239) (48 * k + 224))

/-- COLSTEPk; 0 from NLOOPS on. -/
def colStep (rec : List Byte) (k : Nat) : Int := if tbits rec 18 16 ≤ k then 0 else signed 16 (tbits rec (48 * k + 255) (48 * k + 240))

/-- TM, TN and TK. -/
def taskM (rec : List Byte) : Nat := tbits rec 212 204
/-- TN. -/
def taskN (rec : List Byte) : Nat := tbits rec 221 213
/-- TK. -/
def taskK (rec : List Byte) : Nat := tbits rec 230 222

/-- The conditions of R337 on a record's own fields. -/
def taskFormed (rec : List Byte) : Bool :=
  let wave := isWaveTask rec
  let sides := sideOk (taskM rec) && sideOk (taskN rec) && sideOk (taskK rec) && decide (4 * (taskM rec * taskK rec) ≤ 65536) &&
    decide (4 * (taskK rec * taskN rec) ≤ 65536) && decide (4 * (taskM rec * taskN rec) ≤ 65536)
  let loops := decide (1 ≤ tbits rec 18 16) && decide (tbits rec 18 16 ≤ 5) && (List.range 5).all (fun k => taskBound rec k != 0)
  decide (tbits rec 3 0 ≤ 1) && tbits rec 22 21 != 3 &&
    !reservedSet (leNat rec) [(1023, 1005), (655, 646), (239, 231), (31, 27), (19, 19), (15, 15), (7, 7)] &&
    (if wave then tbits rec 255 147 == 0 && tbits rec 26 20 == 0 else loops && sides)

/-- The formats and scales of R337. -/
def formatsOk (a b c : Tensor) : Bool :=
  mmaFormats a.fmt b.fmt && decide (c.fmt ≤ 4) && !(a.sven && a.svdim) && !(b.sven && !b.svdim)

/-- The entries of R337 that are valid for a record. -/
def entriesOk (rec : List Byte) (a b c : Tensor) : Bool := a.ok && b.ok && c.ok && (!tbit rec 26 || c.shadow != 0)

/-- The three tensor entries of a record, read in order. -/
def State.taskEntries (s : State) (asid : Nat) (eng : Bool) (rec rem : List Byte) : Except Trap (Tensor × Tensor × Tensor × List Byte) :=
  match s.readTensor asid (tbits rec 111 96) eng rem with
  | .error t => .error t
  | .ok (a, r1) =>
    match s.readTensor asid (tbits rec 127 112) eng r1 with
    | .error t => .error t
    | .ok (b, r2) =>
      match s.readTensor asid (tbits rec 143 128) eng r2 with
      | .error t => .error t
      | .ok (c, r3) => .ok (a, b, c, r3)

/-- A Setter. -/
def State.setter (s : State) (d : Nat) : Setter := (s.setters[d]?).getD Setter.reset

/-- The state with a Setter changed. -/
def State.modSetter (s : State) (d : Nat) (f : Setter → Setter) : State := { s with setters := s.setters.modify d f }

/-- Bytes of a record written by a Setter or a lane; a write that fails is lost (R475). -/
def State.taskWrite (s : State) (a : Acc) (va : Nat) (bs : List Byte) : Except Trap State :=
  match s.engWrite a va bs with
  | (s1, none) => .ok s1
  | (_, some t) => if t.cause = 0 then .error t else .ok (s.noteBad t)

/-- STATE and DIE written (R341): byte 1 of the record. -/
def State.writeState (s : State) (a : Acc) (va die st : Nat) : Except Trap State := s.taskWrite a (va + 1) [BitVec.ofNat 8 (die * 16 + st)]

/-- A task enters a Setter (R340 to R342): READY or ARMED, its ENQSEQ and DIE in the record. -/
def State.submit (s : State) (a : Acc) (die : Nat) (t : Task) (ready : Bool) : Except Trap State :=
  let x := s.setter die
  let t' := { t with enqSeq := x.nextSeq }
  let s1 := s.modSetter die (fun y =>
    { y with nextSeq := y.nextSeq + 1, ready := if ready then y.ready ++ [t'] else y.ready, armed := if ready then y.armed else y.armed ++ [t'] })
  match s1.writeState a t.va die (if ready then 2 else 1) with
  | .error e => .error e
  | .ok s2 => s2.taskWrite a (t.va + 8) (natLe 4 x.nextSeq)

/-- A fault of a translation as a load's: TRAPAUX.WRITE is 0 (R106, R345). -/
def Trap.asLoad (t : Trap) : Trap := if t.cause = 0x10 || t.cause = 0x11 || t.cause = 0x13 then { t with aux := t.aux &&& 0xFFFFFEFF } else t

/-- A lane's TASK function with what its writes need (R186): its status, or what it waits for. -/
def State.taskDone (s : State) (fo : Focus) (w : Wave) (l : Nat) (ln : Lane) (d : Opd) (r : Except Trap State) : State × Out :=
  match r with
  | .error t => s.trapOrAsk fo w l ln t
  | .ok s1 => (s1, statusOut d 0)

/-- Where a record stands: its physical address, local for one of this package. -/
def Target.place (t : Target) : Nat := match t.kind with | .remote => t.pa | .hbm | .host | .info | .mmio => localOf t.pa

/-- What a core's L1 holds of bytes just read at their home follows (R359). -/
def State.refreshL1 (s : State) (core : Nat) (t : Target) (bs : List Byte) : State :=
  match t.kind with
  | .hbm | .host => s.patchL1 core (localOf t.pa) bs
  | .remote | .info | .mmio => s

/-- A lane's access to a task record (R345): ALIGN, the faults of the read, W where it is needed, and the record at its home, which the
lane's L1 follows; every fault is a load's. -/
def withTask (s : State) (fo : Focus) (w : Wave) (l : Nat) (ln0 : Lane) (a : Opd) (write : Bool) (check : Option Trap)
    (f : State → Lane → Nat → Nat → List Byte → List Byte → State × Out) : State × Out :=
  let ln := match ln0.wait with
    | some wt => match wt.kind with | .task _ => { ln0 with wait := none } | _ => ln0
    | none => ln0
  let acc := laneAcc w ln write
  let va := (readPair w l ln a).toNat
  match s.resumed (laneAcc w ln false) ln with
  | some o => (s, o)
  | none =>
    if va % 128 != 0 then (s, .trap (Trap.mk 0x12 va 0) false)
    else
      match check, s.translate acc va with
      | some t, _ => (s, .trap t false)
      | none, .error t => (s, .trap t.asLoad false)
      | none, .ok at_ =>
        match s.engRead (laneAcc w ln false) va 128 ln.got with
        | .error t => s.trapOrAsk fo w l ln t
        | .ok (rec, rem, s1) =>
          let r := f ((s1.refreshL1 w.coreKey at_ rec).withAcks ln) ln va at_.place rec rem
          (r.1.noRun, r.2)

/-- MTASK without RESUME on a record that is in no Setter (R337, R341, R346). -/
def State.newTask (s : State) (fo : Focus) (w : Wave) (l : Nat) (ln : Lane) (d : Opd) (va pa : Nat) (rec rem : List Byte) : State × Out :=
  let acc := laneAcc w ln true
  let task : Task := { asid := w.asid, va := va, pa := pa, priv := ln.isPriv, prio := tbits rec 6 4, enqSeq := 0, resume := false }
  let go (t : State) : State × Out := t.taskDone fo w l ln d (t.submit acc w.die task (tbits rec 63 32 == 0))
  if !taskFormed rec then (s, statusOut d 2)
  else if isWaveTask rec then go s
  else
    match s.taskEntries w.asid false rec rem with
    | .error t => s.trapOrAsk fo w l ln t
    | .ok (a, b, c, _) => if entriesOk rec a b c && formatsOk a b c then go s else (s, statusOut d 2)

/-- MTASK (R341, R345, R346): a release, which waits for the lane's copies (R155); the record is read before the status. DEDUCED, log
entry 65. -/
def execMtask (d a b : Opd) (s : State) : Host.Outcome State Fault Refusal :=
  .next (engineInstr s d (fun s' fo w l ln _ =>
    let flags := readOpd w l ln b
    let bad := if wbits flags 31 1 != 0 then some (slotProt w ln false 0 reasonSlotArg) else none
    withTask s' fo w l ln a true bad (fun s1 ln1 va pa rec rem => s1.afterCopies fo l (
      let st := taskState rec
      if 8 ≤ st then (s1, statusOut d 2)
      else if flags.getLsbD 0 then
        if st != 5 then (s1, statusOut d 5)
        else
          let task : Task := { asid := w.asid, va := va, pa := pa, priv := ln1.isPriv, prio := tbits rec 6 4, enqSeq := 0, resume := true }
          s1.taskDone fo w l ln1 d (s1.submit (laneAcc w ln1 true) (tbits rec 14 12) task true)
      else if st = 1 || st = 2 || st = 3 || st = 5 then (s1, statusOut d 5)
      else s1.newTask fo w l ln1 d va pa rec rem))))

/-- MTWAIT (R347). -/
def execMtwait (d a : Opd) (s : State) : Host.Outcome State Fault Refusal :=
  .next (engineInstr s d (fun s' fo w l ln _ =>
    match withTask s' fo w l ln a false none (fun s1 _ va _ rec _ =>
      let st := taskState rec
      if st = 1 || st = 2 || st = 3 then (s1, .wait (.task va))
      else (s1.acquire w (st == 4), statusOut d st)) with
    | (s1, .wait k) =>
      match ln.wait with
      | some wt => if wt.kind == k then (s1, .hold) else (s1, .wait k)
      | none => (s1, .wait k)
    | r => r))

/-- MTSTAT (R347). -/
def execMtstat (d a : Opd) (s : State) : Host.Outcome State Fault Refusal :=
  .next (engineInstr s d (fun s' fo w l ln _ =>
    withTask s' fo w l ln a false none (fun s1 _ _ _ rec _ => (s1.acquire w true, statusOut d (tbits rec 31 0)))))

/-- A task named by its record, under whatever address it was submitted. -/
def Task.at (t : Task) (pa : Nat) : Bool := t.pa == pa

/-- The engines that are at work on a task (R341): its dispatch, its Kiln, its completion. -/
def State.taskClients (s : State) (pa : Nat) : List Client :=
  let heads := (List.range s.setters.length).filter (fun d => match (s.setters[d]?).bind (fun x => x.ready.head?) with
    | some t => t.at pa
    | none => false)
  let kilns := (s.cores.filter (fun e => match e.2.kiln with | some k => k.task.at pa | none => false)).map Prod.fst
  let running := (s.setters.flatMap Setter.running).filter (fun r => r.task.at pa)
  running.map (fun r => Client.task r.task.asid r.task.va) ++ heads.map Client.dispatch ++ kilns.map Client.kiln

/-- A cancelled task leaves its Setter and its Kiln (R341). -/
def State.dropTask (s : State) (pa : Nat) : State :=
  let s0 := (s.taskClients pa).foldl State.dropClient s
  let s1 := { s0 with setters := s0.setters.map (fun (x : Setter) =>
    { ready := x.ready.filter (fun t => !t.at pa), armed := x.armed.filter (fun t => !t.at pa),
      running := (x.running.filter (fun (r : Running) => !r.task.at pa)).map (fun (r : Running) => { r with released := r.released.filter (fun e => !e.2.at pa) }),
      nextSeq := x.nextSeq : Setter }) }
  { s1 with cores := s1.cores.map (fun (e : Nat × CoreState) => (e.1, { e.2 with kiln := match e.2.kiln with
      | some k => if k.task.at pa then none else some k
      | none => none })) }

/-- The end of a task is signalled to its TASKQ objects (R400); lanes in MTWAIT see it in its record (R347). -/
def State.taskEnded (s : State) (asid va : Nat) : State := s.signalTaskqs asid va

/-- MTCANCEL (R341, R346). -/
def execMtcancel (d a : Opd) (s : State) : Host.Outcome State Fault Refusal :=
  .next (engineInstr s d (fun s' fo w l ln _ =>
    withTask s' fo w l ln a true none (fun s1 ln1 va pa rec _ =>
      let st := taskState rec
      if st = 1 || st = 2 || st = 5 || (st = 3 && !isWaveTask rec) then
        match s1.writeState (laneAcc w ln1 true) va (tbits rec 14 12) 6 with
        | .error t => s1.trapOrAsk fo w l ln1 t
        | .ok s2 => ((s2.dropTask pa).taskEnded w.asid va, statusOut d 0)
      else (s1, statusOut d 5))))

/-- The access of a Setter to records (R474, R475). -/
def Task.acc (t : Task) : Acc := engAcc t.asid t.priv

/-- A read of a record by a Setter (R475): it must be writable. -/
def State.taskRead (s : State) (a : Acc) (va n : Nat) (rem : List Byte) : Except Trap (List Byte × List Byte × State) :=
  match s.translate { a with write := true } va with
  | .error t => .error t
  | .ok _ => s.engRead a va n rem

/-- The REASON part of a trap's TRAPAUX, for a fault record (R336). -/
def faultReason (t : Trap) : Nat :=
  if t.cause = 0x10 || t.cause = 0x11 then t.aux.toNat % 32 else if t.cause = 0x23 then t.aux.toNat % 256 % 32 else 0

/-- A RUNNING task that has faulted, with its iteration (R341, R344). -/
def Running.fault (r : Running) (t : Trap) (iters : List Nat) : Running :=
  { r with outcome := some (5, t.cause, t.va, faultReason t), iters := iters }

/-- The output tile at which a dispatch begins (R338). -/
def firstTile (t : Task) (rec : List Byte) : List Nat :=
  if t.resume then [tbits rec 687 672, tbits rec 703 688, tbits rec 719 704, tbits rec 735 720] else [0, 0, 0, 0]

/-- A tile task on a Kiln at the beginning of an output tile. -/
def KilnRun.begin (t : Task) (rec : List Byte) (a b c : Tensor) (tile : List Nat) : KilnRun :=
  let n := taskM rec * taskN rec
  { task := t, record := rec, a := a, b := b, c := c, tile := tile, step := 0, slab := 0, acc := List.replicate n 0, residues := List.replicate n 0 }

/-- The free Kiln of the lowest logical core of a die (R342). -/
def State.freeKiln (s : State) (die : Nat) : Option Nat :=
  ((List.range (s.coreCount die)).map (coreKey die)).find? (fun c => (s.core c).kiln.isNone)

/-- The head of a Setter's ready queue becomes RUNNING (R341): its record says so, and the Setter keeps it. -/
def State.startTask (s : State) (die : Nat) (t : Task) (r : Running) : Except Trap State :=
  match s.writeState t.acc t.va die 3 with
  | .error e => .error e
  | .ok s1 => .ok (s1.modSetter die (fun x => { x with ready := x.ready.drop 1, running := x.running ++ [r] }))

/-- A KILNOP task dispatched to a Kiln (R338, R342): its entries are read and checked, and a fault of theirs ends it. -/
def State.dispatchKiln (s : State) (die core : Nat) (t : Task) (rec rem : List Byte) : Except Trap State :=
  let run : Running := { task := t, core := some core, wave := none, record := rec, outcome := none, iters := [] }
  let tile := firstTile t rec
  match s.taskEntries t.asid true rec rem with
  | .error e => if e.cause = 0 then .error e else (s.noteBad e).startTask die t (run.fault e (0 :: tile))
  | .ok (a, b, c, _) =>
    if !entriesOk rec a b c then
      s.startTask die t (run.fault (noTensor t.acc (if !a.ok then a.va else if !b.ok then b.va else c.va)) (0 :: tile))
    else if !formatsOk a b c then s.startTask die t (run.fault (kilnShape 0 6) (0 :: tile))
    else
      match s.startTask die t run with
      | .error e => .error e
      | .ok s1 => .ok (s1.modCore core (fun x => { x with kiln := some (KilnRun.begin t rec a b c tile) }))

/-- A WAVE task dispatched (R342): its wave spawned, or the fault that ends it. DEDUCED, log entry 66. -/
def State.dispatchWave (s : State) (die : Nat) (t : Task) (rec rem : List Byte) : Except Trap State :=
  let run : Running := { task := t, core := none, wave := none, record := rec, outcome := none, iters := [0, 0, 0, 0, 0] }
  let va := tbits rec 146 96 * 64
  let fail (reason : Nat) : Except Trap State := s.startTask die t { run with outcome := some (5, 0x38, va, reason) }
  match s.engRead t.acc va 64 rem with
  | .error e => if e.cause = 0 then .error e else (s.noteBad e).startTask die t (run.fault e [0, 0, 0, 0, 0])
  | .ok (bs, _, _) =>
    let r := SpawnRec.ofBytes bs
    if !r.ok then fail 2
    else if s.coreCount die = 0 then fail 11
    else
      match s.spawn t.asid { r with user0 := t.va, user1 := t.va / 2 ^ 32 } (min r.prio (tbits rec 6 4)) 1 none (t.priv && t.asid == 0) false
          (2 ^ die) (16 * die) with
      | none => fail 1
      | some (_, u, s1) => s1.startTask die t { run with wave := some u }

/-- The step of a Setter for the head of its ready queue (R342, R475): its record read again, at the Setter on Pavilion; none while no
Kiln is free for it, or while an access of it is outstanding. -/
def State.dispatch (s : State) (die : Nat) : Option State :=
  match (s.setter die).ready with
  | [] => none
  | t :: _ =>
    s.engine (.dispatch die) 0 t.asid 6 (fun u rem =>
      match u.taskRead t.acc t.va 128 rem with
      | .error e => if e.cause = 0 then .error e else .ok ((u.noteBad e).modSetter die (fun x => { x with ready := x.ready.drop 1 }))
      | .ok (rec, rem1, u1) =>
        if isWaveTask rec then u1.dispatchWave die t rec rem1
        else
          match u1.freeKiln die with
          | none => .error (Trap.mk 0 0 0)
          | some core => u1.dispatchKiln die core t rec rem1)

/-- TASK_DISPATCH (R342). -/
def execTaskDispatch (s : State) : Host.Outcome State Fault Refusal :=
  match s.input with
  | some (.taskDispatch die) => .next ((s.dispatch die).getD s)
  | _ => .next s

/-- The row and the column of an output tile (R338). -/
def tileOrigin (rec : List Byte) (tile : List Nat) : Int × Int :=
  (List.range 4).foldl (fun o k => (o.1 + rowStep rec (k + 1) * (tile.getD k 0 : Int), o.2 + colStep rec (k + 1) * (tile.getD k 0 : Int)))
    ((tbits rec 163 144 : Int), (tbits rec 183 164 : Int))

/-- TENSORRANGE of an element outside its tensor (R338). -/
def rangeTrap (a : Acc) : Trap := protFault a 0 0 reasonTensorRange

/-- Elements of a tensor's side in a list of rows and columns, read by an engine. -/
def State.readElems (s : State) (a : Acc) (e : Tensor) (base : Nat) (cells : List (Int × Int)) (rem : List Byte) :
    Except Trap (List Nat × List Byte × State) :=
  match cells with
  | [] => .ok ([], rem, s)
  | (r, c) :: rest =>
    let i := [c.toNat, r.toNat, 0, 0, 0]
    if r < 0 || c < 0 || !e.inside i then .error (rangeTrap a)
    else
      let idx := e.index i
      match s.engRead a (base + e.byteOf idx) (elemBytes e.fmt) rem with
      | .error t => .error t
      | .ok (bs, rem1, s1) =>
        match s1.readElems a e base rest rem1 with
        | .error t => .error t
        | .ok (xs, rem2, s2) => .ok (elemOf e.fmt idx (leNat bs) :: xs, rem2, s2)

/-- The rows and columns of a rectangle, row by row. -/
def cellsOf (r0 c0 : Int) (rows cols : Nat) : List (Int × Int) :=
  (List.range (rows * cols)).map (fun k => (r0 + ((k / cols : Nat) : Int), c0 + ((k % cols : Nat) : Int)))

/-- The Kiln of a core changed. -/
def State.setKiln (s : State) (core : Nat) (k : Option KilnRun) : State := s.modCore core (fun c => { c with kiln := k })

/-- The RUNNING entry of a core's task changed. -/
def State.modRunning (s : State) (core : Nat) (f : Running → Running) : State :=
  { s with setters := s.setters.map (fun x => { x with running := x.running.map (fun r => if r.core == some core && r.outcome.isNone then f r else r) }) }

/-- The task of a core faults (R344): its working copy is discarded. -/
def State.faultKiln (s : State) (core : Nat) (k : KilnRun) (t : Trap) : State :=
  (s.modRunning core (fun r => r.fault t (k.step :: k.tile))).setKiln core none

/-- A slab of products added to the working copy: two groups of eight, or residues (R86, R89, R325). -/
def KilnRun.addSlab (k : KilnRun) (n : Nat) (xs ys : List Nat) : KilnRun :=
  let cells := List.range k.acc.length
  if floatFmt k.a.fmt then
    { k with acc := cells.map (fun e => floatChain k.a.fmt (k.acc.getD e 0) (dotPairs xs ys 16 n (e / n) (e % n)) 2) }
  else
    { k with residues := cells.map (fun e => (dotPairs xs ys 16 n (e / n) (e % n)).foldl
        (fun r p => residueAdd r (elemInt k.a.fmt p.1 * elemInt k.b.fmt p.2)) (k.residues.getD e 0)) }

/-- The end of a K step (R87, R325): a narrow pass is checked and added. None is KILN_CHECK. -/
def KilnRun.endStep (k : KilnRun) : Option KilnRun :=
  let next := { k with step := k.step + 1, slab := 0 }
  if floatFmt k.a.fmt then some next
  else if k.residues.all residueOk then
    some { next with acc := (k.acc.zip k.residues).map (fun e => (passAdd e.1 (crt e.2)).1), residues := k.residues.map (fun _ => 0) }
  else none

/-- A step of a core's Kiln for its task, with its accesses through the die's L2 (R338, R339): a fault of any cause ends the task
FAULTED (R341, R344). -/
def State.kilnStep (s : State) (core : Nat) (k : KilnRun) (f : State → List Byte → Except Trap State) : Option State :=
  s.engine (.kiln core) 0 k.task.asid (core / 64) (fun t rem =>
    match f t rem with
    | .ok t1 => .ok t1
    | .error e => if e.cause = 0 then .error e else .ok ((t.noteBad e).faultKiln core k e))

/-- One slab added to the working copy, with the end of its K step (R86 to R89, R325, R327). -/
def State.slabDone (s : State) (core : Nat) (k : KilnRun) (xs ys : List Nat) : State :=
  let k1 := k.addSlab (taskN k.record) xs ys
  if 16 * (k.slab + 1) < taskK k.record then s.setKiln core (some { k1 with slab := k.slab + 1 })
  else
    match k1.endStep with
    | some k2 => s.setKiln core (some k2)
    | none => { s with kilnChecks := s.kilnChecks + 1 }.faultKiln core k (Trap.mk 0x22 0 0)

/-- WHEEL_SLAB (R325, R338): 16 k of the K step. -/
def State.wheelSlab (s : State) (core : Nat) : Option State :=
  match (s.core core).kiln with
  | none => none
  | some k =>
    let rec_ := k.record
    if taskBound rec_ 0 ≤ k.step then none
    else
      let a := k.task.acc
      let o := tileOrigin rec_ k.tile
      let kk : Int := ((tbits rec_ 203 184 + k.step * taskK rec_ + 16 * k.slab : Nat) : Int)
      s.kilnStep core k (fun t rem =>
        match t.readElems a k.a k.a.live (cellsOf o.1 kk (taskM rec_) 16) rem with
        | .error e => .error e
        | .ok (xs, rem1, t1) =>
          match t1.readElems a k.b k.b.live (cellsOf kk o.2 16 (taskN rec_)) rem1 with
          | .error e => .error e
          | .ok (ys, _, t2) => .ok (t2.slabDone core k xs ys))

/-- WHEEL_SLAB (R325). -/
def execWheelSlab (s : State) : Host.Outcome State Fault Refusal :=
  match s.input with
  | some (.wheelSlab core) => .next ((s.wheelSlab core).getD s)
  | _ => .next s

/-- What a task's drain does to each element (R339): dropout never. -/
def taskDrain (rec : List Byte) (i32 : Bool) : DrainSpec :=
  { i32 := i32, neg := tbit rec 20, act := tbits rec 22 21, lo := tbits rec 479 448, hi := tbits rec 511 480, rscale := tbits rec 543 512, drop := none }

/-- The next output tile, loop 1 fastest; none after the last (R338). -/
def nextTile (rec : List Byte) (tile : List Nat) : Option (List Nat) :=
  (List.range 4).findSome? (fun k =>
    if tile.getD k 0 + 1 < taskBound rec (k + 1) then
      some ((List.range 4).map (fun j => if j < k then 0 else if j = k then tile.getD k 0 + 1 else tile.getD j 0))
    else none)

/-- Every page that a drain touches translates (R339). -/
def State.taskPages (s : State) (k : KilnRun) (r0 c0 : Nat) : Option Trap :=
  let rec_ := k.record
  let a := k.task.acc
  let n := taskN rec_
  let vec (use : Bool) (va : Nat) : Option Trap := if use then s.pagesFault a (va + 4 * c0) (4 * n) (4 * n / 4096 + 2) else none
  if !k.c.holds r0 c0 (taskM rec_) n then some (rangeTrap { a with write := true })
  else
    ((List.range (taskM rec_)).findSome? (fun i =>
      s.rowFault { a with write := true } k.c (if tbit rec_ 26 then k.c.shadow else k.c.live) (r0 + i) c0 n)).or
        ((vec (tbit rec_ 23) (tbits rec_ 594 544 * 64)).or (vec (tbit rec_ 24) (tbits rec_ 645 595 * 64)))

/-- The drained words of a tile (R332, R339). -/
def State.taskValues (s : State) (k : KilnRun) (r0 c0 : Nat) (rem : List Byte) : Except Trap (List Nat × List Byte) :=
  let rec_ := k.record
  let a := k.task.acc
  let m := taskM rec_
  let n := taskN rec_
  let i32 := !floatFmt k.a.fmt
  match s.drainVec a (tbit rec_ 23) (tbits rec_ 594 544 * 64) c0 n rem with
  | .error t => .error t
  | .ok (scale, rem1) =>
    match s.drainVec a (tbit rec_ 24) (tbits rec_ 645 595 * 64) c0 n rem1 with
    | .error t => .error t
    | .ok (bias, rem2) =>
      match s.drainScales a k.a (if i32 then (List.range m).map (fun i => (r0 + i, 0)) else []) rem2 with
      | .error t => .error t
      | .ok (sa, rem3) =>
        match s.drainScales a k.b (if i32 then (List.range n).map (fun j => (0, c0 + j)) else []) rem3 with
        | .error t => .error t
        | .ok (sb, rem4) =>
          match s.readElems a k.c (if tbit rec_ 26 then k.c.shadow else k.c.live) (if tbit rec_ 25 then cellsOf r0 c0 m n else []) rem4 with
          | .error t => .error t
          | .ok (res, rem5, _) =>
            .ok ((List.range (m * n)).map (fun e =>
              (taskDrain rec_ i32).elem (k.acc.getD e 0).toNat (sa.getD (e / n) 0 + sb.getD (e % n) 0) (scale.map (fun v => v.getD (e % n) 0))
                (bias.map (fun v => v.getD (e % n) 0)) (if tbit rec_ 25 then some (residualOf k.c.fmt (int8 k.c.scale) (res.getD e 0)) else none)
                (r0 + e / n) (c0 + e % n)), rem5)

/-- After a tile: the next one, or the end of the task (R338, R341). -/
def State.tileDone (s : State) (core : Nat) (k : KilnRun) : State :=
  match nextTile k.record k.tile with
  | some t => s.setKiln core (some (KilnRun.begin k.task k.record k.a k.b k.c t))
  | none => (s.modRunning core (fun r => { r with outcome := some (4, 0, 0, 0) })).setKiln core none

/-- The drain of an output tile (R339): what precedes a fault found after writing has begun stays written. -/
def State.drainTile (s : State) (core : Nat) (k : KilnRun) (rem : List Byte) : Except Trap State :=
  let a := { k.task.acc with write := true }
  let o := tileOrigin k.record k.tile
  if o.1 < 0 || o.2 < 0 then .error (rangeTrap a)
  else
    let r0 := o.1.toNat
    let c0 := o.2.toNat
    match s.taskPages k r0 c0 with
    | some t => .error t
    | none =>
      match s.taskValues k r0 c0 rem with
      | .error t => .error t
      | .ok (vs, rem1) =>
        match s.drainTensor a k.c (tbit k.record 26) r0 c0 (taskN k.record) vs rem1 with
        | (s1, some t) => if t.cause = 0 then .error t else .ok ((s1.noteBad t).faultKiln core k t)
        | (s1, none) => .ok (s1.tileDone core k)

/-- TASK_TILE_DRAIN (R339): once the tile's K steps are over. -/
def State.tileDrain (s : State) (core : Nat) : Option State :=
  match (s.core core).kiln with
  | none => none
  | some k => if k.step < taskBound k.record 0 then none else s.kilnStep core k (fun t rem => t.drainTile core k rem)

/-- TASK_TILE_DRAIN (R339). -/
def execTaskTileDrain (s : State) : Host.Outcome State Fault Refusal :=
  match s.input with
  | some (.taskTileDrain core) => .next ((s.tileDrain core).getD s)
  | _ => .next s

/-- A decrement of a successor (R340): COUNT one less at its home, with where the record stands, its word 0 and the COUNT left. -/
def State.decrement (s : State) (a : Acc) (va : Nat) (rem : List Byte) : Except Trap (Nat × Nat × Nat × State) :=
  match s.translate { a with write := true } va with
  | .error t => .error t
  | .ok t =>
    let la := localOf t.pa
    match t.kind with
    | .hbm | .host =>
      if !s.reachable t then .error (s.linkTrap t)
      else if (s.hostFault la).isSome then .error (poisonTrap va)
      else if s.poisoned la 8 then .error (s.poisonIn va la 8)
      else
        let bs := s.home la 8
        .ok (t.place, leNat (bs.take 4), countLess bs, (s.noteTlb a.asid t).storeHome (la + 4) (natLe 4 (countLess bs)))
    | .remote =>
      if rem.length < 8 then .error (s.needs { a with write := true } va t 8 .decrement [] 0)
      else .ok (t.place, leNat (rem.take 4), countLess (rem.take 8), s.noteTlb a.asid t)
    | .info | .mmio => .error (Trap.mk 0x12 va 0)

/-- A successor made ready, as its Setter holds it. -/
def State.armedTask (s : State) (die pa : Nat) : Option Task := (s.setter die).armed.find? (fun t => t.at pa)

/-- Whether a task goes before another of those made ready together (R342). -/
def Task.before (x y : Task) : Bool := decide (y.prio < x.prio) || (x.prio == y.prio && decide (x.enqSeq ≤ y.enqSeq))

/-- A task put into a list by PRIO, then ENQSEQ. -/
def insertTask (x : Nat × Task) (ts : List (Nat × Task)) : List (Nat × Task) :=
  match ts with
  | [] => [x]
  | y :: rest => if x.2.before y.2 then x :: y :: rest else y :: insertTask x rest

/-- The fault fields of a record written (R336, R344). -/
def State.writeFault (s : State) (r : Running) (code va reason : Nat) : Except Trap State :=
  let v := (List.range 5).foldl (fun n k => n + r.iters.getD k 0 % 65536 * 2 ^ (16 * k)) 0
  let tail := bitsOf (leNat r.record) 807 805
  s.taskWrite r.task.acc (r.task.va + 82)
    (natLe 19 (v + code % 128 * 2 ^ 80 + reason % 32 * 2 ^ 87 + va % 2 ^ 57 * 2 ^ 92 + tail * 2 ^ 149))

/-- The VA of a record's k-th successor; 0 for none (R336). -/
def successorVa (rec : List Byte) (k : Nat) : Nat := tbits rec (854 + 50 * k) (805 + 50 * k) * 128

/-- The k-th successor of a DONE task decremented (R340): the task that becomes READY, with its Setter, if one does. A decrement that
fails is lost (R475). -/
def State.successor (s : State) (t : Task) (rec : List Byte) (k : Nat) (rem : List Byte) : Except Trap (Option (Nat × Task) × State) :=
  let va := successorVa rec k
  if va = 0 then .ok (none, s)
  else
    match s.decrement t.acc va rem with
    | .error e => if e.cause = 0 then .error e else .ok (none, s.noteBad e)
    | .ok (pa, w0, count, s1) =>
      let die := bitsOf w0 14 12
      match (if count = 0 && bitsOf w0 11 8 = 1 then s1.armedTask die pa else none) with
      | none => .ok (none, s1)
      | some x =>
        match (s1.modSetter die (fun y => { y with armed := y.armed.filter (fun z => !z.at pa) })).writeState t.acc va die 2 with
        | .error e => .error e
        | .ok s2 => .ok (some (die, x), s2)

/-- The tasks that one completion has made READY enter their queues together (R342). -/
def State.enqueueTasks (s : State) (xs : List (Nat × Task)) : State :=
  (xs.foldr insertTask []).foldl (fun u x => u.modSetter x.1 (fun y => { y with ready := y.ready ++ [x.2] })) s

/-- One stage of the completion of a task (R340, R341): 0 the fault fields, 1 STATE, 2 to 5 its successors, 6 its end. -/
def State.completeStage (s : State) (die n : Nat) (r : Running) (out : Nat × Nat × Nat × Nat) (rem : List Byte) : Except Trap State :=
  let t := r.task
  let next (x : Option (Nat × Task)) (u : State) : State := u.modSetter die (fun y => { y with
    running := y.running.modify n (fun r => { r with stage := r.stage + 1, released := x.toList ++ r.released }) })
  match r.stage with
  | 0 => if out.1 = 5 then (s.writeFault r out.2.1 out.2.2.1 out.2.2.2).map (next none) else .ok (next none s)
  | 1 => (s.writeState t.acc t.va die out.1).map (next none)
  | k + 2 =>
    if k < 4 then
      if out.1 = 4 then (s.successor t r.record k rem).map (fun x => next x.1 x.2) else .ok (next none s)
    else .ok (((s.modSetter die (fun x => { x with running := x.running.eraseIdx n })).enqueueTasks r.released.reverse).taskEnded t.asid t.va)

/-- The completion of the n-th RUNNING task of a Setter that has ended, stage after stage over k of them, as far as it can go now. -/
def State.completeRun (s : State) (die n : Nat) (k : Nat) : Option State :=
  match k with
  | 0 => none
  | k + 1 =>
    match (s.setter die).running[n]? with
    | none => none
    | some r =>
      match r.outcome with
      | none => none
      | some out =>
        match s.engine (.task r.task.asid r.task.va) 0 r.task.asid 6 (fun t rem => t.completeStage die n r out rem) with
        | none => none
        | some s1 => if r.stage = 6 then some s1 else some ((s1.completeRun die n k).getD s1)

/-- TASK_COMPLETE (R340, R341): the n-th RUNNING task of a Setter, once it has ended. -/
def State.complete (s : State) (die n : Nat) : Option State := s.completeRun die n 7

/-- TASK_COMPLETE (R341). -/
def execTaskComplete (s : State) : Host.Outcome State Fault Refusal :=
  match s.input with
  | some (.taskComplete die n) => .next ((s.complete die n).getD s)
  | _ => .next s

end Sys2Proof.Machine
end

