-- ==== Sys2Proof/Machine/Launch.lean ====
section
/-! DEFINITION. The command processor and the distributor (R363, R364, R368 to R372, R407 to R412): reading and starting
launches, dealing blocks, run queues, and completion. -/

namespace Sys2Proof.Machine

/-- Bits of a launch packet (R369). -/
def Launch.bits (x : Launch) (hi lo : Nat) : Nat := bitsOf (leNat x.packet) hi lo

/-- The number of blocks. -/
def Launch.count (x : Launch) : Nat := x.bits 159 128 + 1

/-- The conditions of R370 on a packet's fields. -/
def packetOk (v : Nat) : Bool :=
  !reservedSet v [(511, 352), (255, 241), (223, 215), (191, 177), (63, 57), (0, 0)] && decide (bitsOf v 240 224 ≤ 65536) && bitsOf v 240 224 % 4 == 0 &&
    decide (bitsOf v 214 211 ≤ 8) && decide (bitsOf v 210 203 ≤ 128) && decide (bitsOf v 202 198 ≤ 16) && decide (bitsOf v 197 192 ≤ 32) &&
    decide (1 ≤ bitsOf v 167 160) && decide (bitsOf v 167 160 ≤ 192) && bitsOf v 173 168 != 0 &&
    fitsEmptyQuad (bitsOf v 167 160) (8 * bitsOf v 197 192) (bitsOf v 214 211) (bitsOf v 210 203)

/-- PGROUP is 0 or a live PIPEGROUP of the context (R370). -/
def State.groupOk (s : State) (asid : Nat) (h : Word) : Bool :=
  h == 0 || (match s.live h asid with | some (_, .pipegroup _ _ _) => true | _ => false)

/-- Where a physical address of a ring leads (R407, R408). -/
inductive RingPlace where | near (la : Nat) | far | nowhere
  deriving DecidableEq, Repr

/-- The place of n bytes at a physical address (R93, R94, R444). DEDUCED, log entry 67. -/
def State.ringPlace (s : State) (pa n : Nat) : RingPlace :=
  let la := localOf pa
  if pkgOf pa != s.pkgid then (if pkgOf pa < s.podsize then .far else .nowhere)
  else if la + n ≤ hbmEnd then .near la
  else if s.accepted 4 && hostBase ≤ la && la + n ≤ hostBase + s.hostgib * 2 ^ 30 then .near la
  else .nowhere

/-- A pending queue (R408). -/
def HostQueue.pending (x : HostQueue) : Bool := x.en && x.head % x.ring != x.tail % x.ring

/-- When the doorbell that announced a queue's oldest unread packet was written (R408). -/
def HostQueue.bell (x : HostQueue) : Nat := match x.rung x.bells x.head with | (_, t) :: _ => t | [] => 0

/-- The queue that the command processor reads next (R408). -/
def State.nextQueue (s : State) : Option (Nat × HostQueue) :=
  if 256 ≤ s.launches.length then none
  else
    (s.queues.zipIdx).foldl (fun best e =>
      if !e.1.pending then best
      else
        match best with
        | none => some (e.2, e.1)
        | some (_, y) => if y.prio < e.1.prio || (y.prio = e.1.prio && e.1.bell < y.bell) then some (e.2, e.1) else best) none

/-- The target of a command processor's access by physical address. -/
def ringTarget (pa : Nat) (far : Bool) : Target :=
  Target.mk (if far then .remote else if localOf pa < hostBase then .hbm else .host) pa none

/-- A packet's bytes (R408); a packet on another package comes from rem. -/
def State.readPacket (s : State) (pa : Nat) (rem : List Byte) : Except Trap (List Byte × State) :=
  match s.ringPlace pa 128 with
  | .near la =>
    if !s.reachable (ringTarget pa false) then .error (s.linkTrap (ringTarget pa false))
    else
      match s.hostFault la with
      | some k => .error (hostTrap 0 k)
      | none => if s.poisoned la 128 then .error (s.poisonIn 0 la 128) else .ok (s.home la 128, s.receive la)
  | .far => if rem.length < 128 then .error (s.needs (engAcc 0 true) 0 (ringTarget pa true) 128 .load [] 0) else .ok (rem.take 128, s)
  | .nowhere => .error (Trap.mk 0x10 0 0)

/-- The buffer handles of a packet with whether each is marked for writing; those without a mark take no position (R364). -/
def packetHandles (v : Nat) : List (Nat × Bool) :=
  (List.range 16).filterMap (fun k =>
    let h := bitsOf v (32 * k + 543) (32 * k + 512)
    if h % 2 ^ 30 = 0 || h / 2 ^ 30 = 0 then none else some (h % 2 ^ 30, bitOf h 31))

/-- A launch takes its place in the buffer-handle table (R364): what it waits for, and the table. -/
def takeHandles (asid n : Nat) (t : Sparse (Option Nat × List Nat)) (hs : List (Nat × Bool)) : List Nat × Sparse (Option Nat × List Nat) :=
  hs.foldl (fun acc h =>
    let key := 2 ^ 30 * asid + h.1
    let old := sgetD acc.2 key (none, [])
    let writers := match old.1 with | some w => [w] | none => []
    if h.2 then (acc.1 ++ writers ++ old.2, sput acc.2 key (some n, []))
    else (acc.1 ++ writers, sput acc.2 key (old.1, old.2 ++ [n]))) ([], t)

/-- The packet of a queue, or none where its read has failed, taken as a launch: it takes the next sequence number of its queue. -/
def State.takePacket (s : State) (q : Nat) (x : HostQueue) (pkt : Option (List Byte)) : State :=
  let v := leNat (pkt.getD [])
  let bad := pkt.isNone || !packetOk v || !s.groupOk x.asid (BitVec.ofNat 32 (bitsOf v 351 320))
  let n := s.ticket
  let h := if bad then ([], s.handles) else takeHandles x.asid n s.handles (packetHandles v)
  let launch : Launch :=
    { q := q, seq := x.seq, asid := x.asid, priv := x.privq && x.asid == 0, prio := x.prio, packet := pkt.getD [], bad := bad, started := false,
      order := 0, startT := 0, waitFor := h.1.filter (fun m => m != n), next := 0, deal := none, ended := 0, lost := false }
  { s.setQueue q { x with head := (x.head + 1) % x.ring, seq := (x.seq + 1) % 2 ^ 32, bells := x.rung x.bells (x.head + 1) } with
    launches := sput s.launches n launch, handles := h.2, ticket := s.ticket + 1 }

/-- LAUNCH_READ (R408): the next packet. -/
def State.launchRead (s : State) : Option State :=
  match s.nextQueue with
  | none => none
  | some (q, x) =>
    let pa := x.base * 4096 + 128 * (x.head % x.ring)
    s.engine (.packet q pa) 0 x.asid 6 (fun t rem =>
      match t.readPacket pa rem with
      | .ok (bs, t1) => .ok (t1.takePacket q x (some bs))
      | .error e => if e.cause = 0 then .error e else .ok ((t.noteBad e).takePacket q x none))

/-- LAUNCH_READ (R408). -/
def execLaunchRead (s : State) : Host.Outcome State Fault Refusal :=
  match s.input with
  | some .launchRead => .next (s.launchRead.getD s)
  | _ => .next s

/-- A launch may start (R364): what it waits for has completed, and the launches before it in its queue have started. -/
def State.canStart (s : State) (n : Nat) (x : Launch) : Bool :=
  !x.bad && !x.started && x.waitFor.all (fun m => (sget s.launches m).isNone) &&
    s.launches.all (fun e => e.2.q != x.q || e.2.bad || e.2.started || decide (n ≤ e.1))

/-- A launch by its queue and sequence number. -/
def State.findLaunch (s : State) (q seq : Nat) : Option (Nat × Launch) := s.launches.find? (fun e => e.2.q == q && e.2.seq == seq)

/-- LAUNCH_START (R364, R372): its first rounds begin, between which and whose end no other step comes (R411: State.plan). -/
def State.launchStart (s : State) (n : Nat) (x : Launch) : Option State :=
  if s.canStart n x then
    some { s with launches := sput s.launches n { x with started := true, order := s.ticket, startT := s.time, deal := some (0, false) }, ticket := s.ticket + 1 }
  else none

/-- LAUNCH_START (R364). -/
def execLaunchStart (s : State) : Host.Outcome State Fault Refusal :=
  match s.input with
  | some (.launchStart q seq) =>
    match s.findLaunch q seq with
    | some (n, x) => .next ((s.launchStart n x).getD s)
    | none => .next s
  | _ => .next s

/-- The cores of a set of dies, dies rising, cores in logical order (R372). -/
def State.coresOf (s : State) (dies : Nat) : List (Nat × Nat) :=
  (List.range 6).flatMap (fun d => if bitOf dies d then (List.range (s.coreCount d)).map (fun c => (d, c)) else [])

/-- The waves of a block made, each with its object (R371, R380): their numbers. DEDUCED, log entry 68. -/
def State.makeWaves (s : State) (n : Nat) (x : Launch) (block index : Nat) (wvs : List Nat) : Option (List Nat × State) :=
  match wvs with
  | [] => some ([], s)
  | wv :: rest =>
    let u := s.ticket
    match s.newObj x.asid (.wave u false false) with
    | none => none
    | some (obj, s1) =>
      let group := if x.bits 351 320 = 0 then none else some (x.bits 339 320)
      let w := NewWave.wave
        { block := block, wv := wv, asid := x.asid, priv := x.priv, prio := x.prio, depth := 0, group := group,
          launchId := BitVec.ofNat 32 (x.q * 2 ^ 25 + x.seq % 2 ^ 25), entry := x.bits 63 0, regs := x.bits 197 192, tileCount := x.bits 214 211,
          privBytes := x.bits 240 224, g := startG index x.count (x.bits 127 64) 0 0 false } obj
      match ({ s1 with waves := sput s1.waves u w, ticket := s1.ticket + 1 } : State).makeWaves n x block index rest with
      | none => none
      | some (us, s2) => some (u :: us, s2)

/-- The next block of a launch placed with a home core (R368, R371), whole or not at all. -/
def State.dealTo (s : State) (n : Nat) (x : Launch) (die core : Nat) : Option State :=
  let k := s.ticket
  match ({ s with ticket := s.ticket + 1 } : State).makeWaves n x k x.next (List.range (x.bits 167 160)) with
  | none => none
  | some (us, s1) =>
    let b := newBlock x.asid (x.bits 210 203) us (x.bits 173 168) x.prio (some n) x.next x.count (x.bits 287 256) (x.bits 319 288)
    match ({ s1 with blocks := sput s1.blocks k b } : State).placeBlock k die core with
    | none => none
    | some s2 => some { s2 with launches := sput s2.launches n { x with next := x.next + 1 } }

/-- The launch that deals its rounds: the one that started first. -/
def State.dealing (s : State) : Option (Nat × Launch) :=
  s.launches.foldl (fun best e =>
    if e.2.deal.isNone then best
    else match best with
      | none => some e
      | some y => if e.2.order < y.2.order then some e else best) none

/-- A round goes on (R372): the next block at the first core, from a place in the round, where it fits; at the end of a round,
another one, or waiting. The room is what was free at the launch's start (R411), since nothing goes on beside the rounds (State.plan). -/
def State.dealRound (s : State) (n : Nat) (x : Launch) (pos : Nat) (any : Bool) : State :=
  let cores := s.coresOf (x.bits 173 168)
  let again (u : State) (d : Option (Nat × Bool)) : State := { u with launches := smod u.launches n (fun y => { y with deal := d }) }
  if x.count ≤ x.next then again s none
  else
    match (List.range (cores.length - pos)).findSome? (fun i =>
        let c := cores.getD (pos + i) (0, 0)
        (s.dealTo n x c.1 c.2).map (fun t => (pos + i, t))) with
    | some (p, t) => again t (some (p + 1, true))
    | none => again s (if any then some (0, false) else none)

/-- The entries of run queues as a core with room meets them (R411, R412): by priority, the core's own quad first, then other
quads in die and quad order, then by entry. -/
def QueueEntry.rank (e : QueueEntry) (quad : Nat) : Nat × Nat × Nat :=
  (7 - e.prio, if e.quad = quad then 0 else e.quad + 1, e.ticket)

/-- Whether one rank goes before another. -/
def rankBefore (x y : Nat × Nat × Nat) : Bool :=
  decide (x.1 < y.1) || (x.1 == y.1 && (decide (x.2.1 < y.2.1) || (x.2.1 == y.2.1 && decide (x.2.2 ≤ y.2.2))))

/-- What waits for room: an entry of a run queue, or a launch whose rounds are over (R411). -/
inductive Waiting where
  | entry (e : QueueEntry)
  | launch (n : Nat) (x : Launch)
  deriving DecidableEq, Repr

/-- The rank of a waiting launch: after the run queues at its priority, by its start (R411). -/
def Waiting.rank (w : Waiting) (quad : Nat) : Nat × Nat × Nat :=
  match w with
  | .entry e => e.rank quad
  | .launch _ x => (7 - x.prio, 200, x.order)

/-- A waiting entry put into an ordered list. -/
def insertWaiting (quad : Nat) (x : Waiting) (ys : List Waiting) : List Waiting :=
  match ys with
  | [] => [x]
  | y :: rest => if rankBefore (x.rank quad) (y.rank quad) then x :: y :: rest else y :: insertWaiting quad x rest

/-- Everything that waits for room. -/
def State.wanting (s : State) : List Waiting :=
  s.runQueue.map Waiting.entry ++ (s.launches.filter (fun e => e.2.started && e.2.deal.isNone && decide (e.2.next < e.2.count))).map
    (fun e => Waiting.launch e.1 e.2)

/-- A waiting entry given room on a core, if it fits (R368, R411, R413). -/
def State.give (s : State) (w : Waiting) (die core : Nat) : Option State :=
  match w with
  | .entry e =>
    if !bitOf e.dies die then none
    else (s.placeBlock e.block die core).map (fun t => { t with runQueue := t.runQueue.filter (fun y => y.block != e.block) })
  | .launch n x => if !bitOf (x.bits 173 168) die then none else s.dealTo n x die core

/-- The first entry that takes room on a core, and the state then. -/
def State.offer (s : State) (ws : List Waiting) (die core : Nat) : Option (Waiting × State) :=
  (ws.foldr (insertWaiting (16 * die + s.quadOf die core)) []).findSome? (fun w => (s.give w die core).map (fun t => (w, t)))

/-- The next placement (R411): the first core, in the order of R372, on which an entry fits. A run-queue entry that several
cores would take goes to one that the manual leaves open. -/
def State.nextPlace (s : State) : Option (Waiting × State) :=
  let ws := s.wanting
  if ws.isEmpty then none
  else
    let offers := (s.coresOf 63).filterMap (fun c => s.offer ws c.1 c.2)
    match offers with
    | [] => none
    | (.launch n x, t) :: _ => some (.launch n x, t)
    | (.entry e, t) :: _ =>
      let same := offers.filter (fun o => o.1 == .entry e)
      some ((same[Config.freeNat s.freeCtr 4 % same.length]?).getD (.entry e, t))

/-- BLOCK_PLACE (R372, R411): a round goes on, or a waiting launch's block takes room. -/
def State.blockPlace (s : State) : Option State :=
  match s.dealing with
  | some (n, x) =>
    match x.deal with
    | some (pos, any) => some (s.dealRound n x pos any)
    | none => none
  | none =>
    match s.nextPlace with
    | some (.launch _ _, t) => some t
    | _ => none

/-- BLOCK_PLACE (R372). -/
def execBlockPlace (s : State) : Host.Outcome State Fault Refusal := .next (s.blockPlace.getD s)

/-- RUN_QUEUE_PLACE (R411, R412). -/
def State.runQueuePlace (s : State) : Option State :=
  match s.dealing with
  | some _ => none
  | none =>
    match s.nextPlace with
    | some (.entry _, t) => some t
    | _ => none

/-- RUN_QUEUE_PLACE (R412). -/
def execRunQueuePlace (s : State) : Host.Outcome State Fault Refusal := .next (s.runQueuePlace.getD s)

/-- A launch is over (R363): bad, or every block placed and gone, and its lane copies counted or discarded. -/
def State.launchOver (s : State) (n : Nat) (x : Launch) : Bool :=
  x.bad || (x.started && decide (x.count ≤ x.next) && !s.blocks.any (fun e => e.2.launch == some n) &&
    !s.cores.any (fun e => e.2.copies.any (fun c => c.launch == some n)))

/-- The completion record of a launch (R409). -/
def Launch.record (x : Launch) (time : Nat) : List Byte :=
  natLe 32 ((x.seq + 1) % 2 ^ 32 + (x.q * 2 ^ 25 + x.seq % 2 ^ 25) * 2 ^ 32 + (if x.bad then 1 else if x.lost then 2 else 0) * 2 ^ 64 +
    (if x.bad then 0 else x.ended % 2 ^ 32) * 2 ^ 96 + (if x.bad then 0 else x.startT % 2 ^ 64) * 2 ^ 128 + time % 2 ^ 64 * 2 ^ 192)

/-- Bytes of a record written at a physical address: SEQ last (R409). -/
def State.writeCompletion (s : State) (pa : Nat) (bs : List Byte) : Except Trap State :=
  match s.ringPlace pa 32 with
  | .near la =>
    if !s.reachable (ringTarget pa false) then .error (s.linkTrap (ringTarget pa false))
    else
      match s.hostFault la with
      | some k => .error (hostTrap 0 k)
      | none => if s.poisoned la 32 then .error (s.poisonIn 0 la 32) else .ok ((s.storeHome (la + 4) (bs.drop 4)).storeHome la (bs.take 4))
  | .far =>
    match s.remoteOp (engAcc 0 true) 0 (ringTarget (pa + 4) true) 28 .store (bs.drop 4) 0 with
    | .error t => .error t
    | .ok r => (r.2.remoteOp (engAcc 0 true) 0 (ringTarget pa true) 4 .store (bs.take 4) 0).map Prod.snd
  | .nowhere => .error (Trap.mk 0x10 0 0)

/-- The host-homed lines that L2s hold dirty (R113). -/
def State.hostDirty (s : State) : List Nat := skeys (s.dir.filter (fun e => e.2.dirty && s.lineHome e.1 == 7))

/-- A launch whose record has been written, or is lost because its address leads nowhere or fails, is over: its interrupt follows
(R409). -/
def State.endLaunch (s : State) (n : Nat) (x : Launch) : State :=
  let s1 := if (s.queue x.q).irq then { s with host := { s.host with msix := x.q :: s.host.msix } } else s
  { s1 with launches := sdel s1.launches n }

/-- LAUNCH_COMPLETE (R363, R364, R409): the dirty lines of a writer go home, then the record. -/
def State.launchComplete (s : State) (n : Nat) (x : Launch) : Option State :=
  if !s.launchOver n x then none
  else
    let q := s.queue x.q
    let writes := !x.bad && (packetHandles (leNat x.packet)).any Prod.snd
    s.engine (.completion x.q x.seq) 0 x.asid 6 (fun t _ =>
      let t1 := if writes then t.hostDirty.foldl State.writeBack t else t
      match t1.writeCompletion (q.comp * 32 + 32 * (x.seq % q.ring)) (x.record s.time) with
      | .ok t2 => .ok (t2.endLaunch n x)
      | .error e => if e.cause = 0 then .error e else .ok ((t1.noteBad e).endLaunch n x))

/-- LAUNCH_COMPLETE (R409). -/
def execLaunchComplete (s : State) : Host.Outcome State Fault Refusal :=
  match s.input with
  | some (.launchComplete q seq) =>
    match s.findLaunch q seq with
    | some (n, x) => .next ((s.launchComplete n x).getD s)
    | none => .next s
  | _ => .next s

end Sys2Proof.Machine
end

