-- ==== Sys2Proof/Machine/Host.lean ====
section
/-! DEFINITION. The host link and the management controller: package reset (R16), bring-up (R441), accesses of the host
(R426, R438, R439), clock stretches (R446), and SPDM (R196, R448, R449); and the time limit of RECONV (R300). -/

namespace Sys2Proof.Machine

/-- The host's own memory as a package reset leaves it (R426): dirty lines are lost, their homes keep what they had. -/
def State.hostMemory (s : State) : List Host.Cell :=
  (s.dir.filter (fun e => e.2.dirty && decide (hostBase ≤ 128 * e.1))).foldl (fun m e => zwrite m (128 * e.1) e.2.back)
    (s.mem.filter (fun c => decide (hostBase ≤ c.1)))

/-- The boot ROM runs a firmware image (R448): its signature holds under a key whose digest is the fused one, and its security version
is not below the fused minimum. -/
def Controller.accepts (c : Controller) (f : Firmware) : Bool :=
  Config.verify f.key (Config.sha3 f.bytes) f.signature && Config.sha3 f.key == c.keyDigest && decide (c.minVersion ≤ f.version)

/-- The boot ROM refuses an image of the controller (R448). -/
def Controller.refuses (c : Controller) : Bool := c.firmware.any (fun f => !c.accepts f)

/-- A link as a package reset leaves it (R166, R174): one that was DOWN trains at 32 GT/s and full width. -/
def LinkRegs.packageReset (k : LinkRegs) : LinkRegs :=
  if k.down then { LinkRegs.reset with busy := true, announce := true } else LinkRegs.reset

/-- PACKAGE_RESET (R16, R448): everything at reset but the fuses, the controller's images, the host's memory, and the model's own
counters; a refused image leaves every phase at 00, the host link trained by the ROM. DEDUCED, log entry 69. -/
def State.packageReset (s : State) : State :=
  let refused := s.controller.refuses
  { State.reset with
    mem := s.hostMemory, harvest := s.harvest, sent := s.sent, freeCtr := s.freeCtr, ticket := s.ticket, controller := s.controller,
    links := s.links.map LinkRegs.packageReset,
    bringup := { Bringup.reset with refused := refused }, host := { HostLink.reset with up := refused } }

/-- The management operation that writes a new minimum (R448): irreversible, so none lowers it. -/
def Controller.raise (c : Controller) (v : Nat) : Controller := { c with minVersion := max c.minVersion v }

/-- PACKAGE_RESET (R16), after the minimum that a management operation has written (R448). DEDUCED, log entry 69. -/
def execPackageReset (s : State) : Host.Outcome State Fault Refusal :=
  match s.input with
  | some (.packageReset (some v)) => .next { s with controller := s.controller.raise v }.packageReset
  | _ => .next s.packageReset

/-- The results a phase can have (R441): 1 OK, 2 DEGRADED, 3 FAILED. -/
def phaseResult (phase result : Nat) : Bool :=
  match phase with
  | 0 => result == 1 || result == 3
  | 1 => result != 0
  | _ => result == 1 || result == 2

/-- A die that no link reaches any more (R441). -/
def State.cutOff (s : State) (d : Nat) : Bool := (dieLinks d).all (fun i => (s.link i).down)

/-- The result of the die links' phase (R441): FAILED where some die is cut off, DEGRADED where a link is narrower or DOWN; none while one
trains. -/
def State.linksPhase (s : State) : Option Nat :=
  if s.links.any LinkRegs.busy then none
  else if (List.range 6).any s.cutOff then some 3
  else if s.links.any (fun k => k.down || k.widths.any (fun w => w != 0)) then some 2
  else some 1

/-- The result of the Ilpaip phase (R441): DEGRADED where a port is DOWN; none while one trains. -/
def State.portsPhase (s : State) : Option Nat :=
  if s.fabric.ports.any (fun p => p == 1) then none else if s.fabric.ports.any (fun p => p == 0) then some 2 else some 1

/-- The result that a phase ends with (R441): what its links and ports have come to, or, for HBM, Ethernet and the host, what the
controller finds outside. -/
def State.phaseEnd (s : State) (phase result : Nat) : Option Nat :=
  match phase with
  | 1 => s.linksPhase
  | 2 => s.portsPhase
  | _ => some result

/-- BRINGUP_PHASE_DONE (R440, R441, R448): phases end in order, none where the ROM has refused an image; the last sets DONE, and the
host link is up. -/
def execBringupPhaseDone (s : State) : Host.Outcome State Fault Refusal :=
  match s.input with
  | some (.bringupPhaseDone phase result) =>
    match s.phaseEnd phase result.toNat with
    | none => .next s
    | some r =>
    let b := s.bringup
    if b.refused || 5 ≤ phase || !phaseResult phase r || b.phases.getD phase 0 != 0 || (b.phases.take phase).any (fun x => x == 0) then .next s
    else
      let b' := { b with phases := b.phases.set phase r, failed := b.failed || r == 3, done := phase == 4 }
      .next { s with bringup := b', host := { s.host with up := s.host.up || phase == 4 } }
  | _ => .next s

/-- What a read of the host is answered (R181, R439). -/
def State.answerHost (s : State) (addr : Nat) (data : Option (List Byte)) : State := { s with sent := .hostRead addr data :: s.sent }

/-- HOST_MEM_ACCESS (R112, R367, R439): an access of the host within a line of the interleaved pool, which waits outside while a die
link on its way retrains; a read is answered, a write that covers the line clears POISON, a shorter one to a poisoned line fails. -/
def execHostMemAccess (s : State) : Host.Outcome State Fault Refusal :=
  match s.input with
  | some (.hostMemAccess addr size write data) =>
    if !s.accepted 4 || size = 0 || s.poolEnd < addr + size || (write && data.length != size) || lineOf (addr + size - 1) != lineOf addr ||
        !s.reach 6 (s.homeDie addr) then .next s
    else if !write then
      .next (if s.poisoned addr size then (s.found addr).answerHost addr none else (s.receiveBy 7 (lineOf addr)).answerHost addr (some (s.home addr size)))
    else if size = 128 then .next ((s.unpoison (lineOf addr)).storeAs 7 addr data)
    else if s.poisoned addr size then .next (s.found addr)
    else .next (s.storeAs 7 addr data)
  | _ => .next s

/-- CXL_LINK_DOWN (R426). -/
def execCxlLinkDown (s : State) : Host.Outcome State Fault Refusal := .next { s with host := { s.host with up := false } }

/-- CXL_LINK_UP (R426): lines whose eviction waited are written back. DESIGN CHOICE, log entry 38. -/
def execCxlLinkUp (s : State) : Host.Outcome State Fault Refusal :=
  let s1 := { s with host := { s.host with up := true } }
  .next (s1.hostDirty.foldl (fun t l => if Config.choice s.freeCtr l then t.writeBack l else t) s1)

/-- CXL_CACHE_SNOOP (R113, R439): a dirty line goes home; the host then may take it for itself and change it. L1, which nothing tracks,
keeps what it has (R115, R359). -/
def execCxlCacheSnoop (s : State) : Host.Outcome State Fault Refusal :=
  match s.input with
  | some (.cxlCacheSnoop addr invalidate data) =>
    if addr < hostBase || !s.host.up then .next s
    else
      let line := lineOf addr
      let s1 := s.writeBack line
      if !invalidate then .next s1
      else
        let s2 := { s1 with dir := sdel s1.dir line }
        .next (if data.length = 128 then { s2 with mem := zwrite s2.mem (128 * line) data } else s2)
  | _ => .next s

/-- DROOP_STRETCH (R446). -/
def execDroopStretch (s : State) : Host.Outcome State Fault Refusal := .next { s with clkStretch := s.clkStretch + 1 }

/-- POWER_STRETCH (R446). -/
def execPowerStretch (s : State) : Host.Outcome State Fault Refusal := .next { s with clkStretch := s.clkStretch + 1 }

/-- RECONV_TIMEOUT (R300): the lane goes on alone. -/
def execReconvTimeout (s : State) : Host.Outcome State Fault Refusal :=
  match s.input with
  | some (.reconvTimeout u l) =>
    .next (s.modLane u l (fun ln => { ln with wait := ln.wait.map (fun wt => match wt.kind with
      | .reconv _ => { wt with status := some 0 }
      | _ => wt) }))
  | _ => .next s

/-- An SPDM exchange. PRESUMED, log entry 71. -/
def State.spdm (s : State) (session : Nat) : Spdm := sgetD s.host.spdm session { stage := 0, answers := [] }

/-- Sessions 0 to 15 are those of the Ilpaip ports (R196); the others come over the DOE mailbox (R449). -/
def portSession (n : Nat) : Bool := decide (n < 16)

/-- A session that can be held: over the mailbox, or at a port that is UP and whose feature is accepted (R444). -/
def State.sessionOpen (s : State) (n : Nat) : Bool := !portSession n || (s.accepted 1 && s.fabric.ports.getD n 0 == 2)

/-- A request answered where the session has come far enough (SPDM 1.3), on MGMT where it is a port's (R196); another one gets no answer.
DESIGN CHOICE, log entry 11. -/
def State.spdmAnswer (s : State) (session : Nat) (allowed : Nat → Bool) (stage : Nat → Nat) (answer : List Byte) : State :=
  let x := s.spdm session
  if s.sessionOpen session && allowed x.stage then
    let s1 := { s with host := { s.host with spdm := sput s.host.spdm session { stage := stage x.stage, answers := answer :: x.answers } } }
    if portSession session then s1.sendFlit session (.spdm session answer) else s1
  else s

/-- GET_VERSION (R196): a session begins. -/
def execGetVersion (s : State) : Host.Outcome State Fault Refusal :=
  match s.input with
  | some (.getVersion n) => .next (s.spdmAnswer n (fun _ => true) (fun _ => 1) (Config.image 4))
  | _ => .next s

/-- GET_CAPABILITIES (R196). -/
def execGetCapabilities (s : State) : Host.Outcome State Fault Refusal :=
  match s.input with
  | some (.getCapabilities n) => .next (s.spdmAnswer n (fun k => k == 1) (fun _ => 2) (Config.image 5))
  | _ => .next s

/-- NEGOTIATE_ALGORITHMS (R196): the part's own choice, whatever is offered. -/
def execNegotiateAlgorithms (s : State) : Host.Outcome State Fault Refusal :=
  match s.input with
  | some (.negotiateAlgorithms n _) => .next (s.spdmAnswer n (fun k => k == 2) (fun _ => 3) (Config.image 6))
  | _ => .next s

/-- GET_DIGESTS (R449): of the chain in slot 0. -/
def execGetDigests (s : State) : Host.Outcome State Fault Refusal :=
  match s.input with
  | some (.getDigests n) => .next (s.spdmAnswer n (fun k => decide (3 ≤ k)) id (Config.sha3 (Config.image 3)))
  | _ => .next s

/-- GET_CERTIFICATE (R449): slot 0 holds the chain. -/
def execGetCertificate (s : State) : Host.Outcome State Fault Refusal :=
  match s.input with
  | some (.getCertificate n slot) => .next (s.spdmAnswer n (fun k => decide (3 ≤ k) && slot == 0) id (Config.image 3))
  | _ => .next s

/-- KEY_EXCHANGE (R196): ML-KEM-1024. -/
def execKeyExchange (s : State) : Host.Outcome State Fault Refusal :=
  match s.input with
  | some (.keyExchange n share) => .next (s.spdmAnswer n (fun k => decide (3 ≤ k)) (fun _ => 4) (Config.kem share ++ Config.sign (Config.kem share)))
  | _ => .next s

/-- FINISH (R196, R197): the session is established when the other end's proof holds, which comes with the event (log entry 11); at a port,
a rekey starts with it. -/
def execFinish (s : State) : Host.Outcome State Fault Refusal :=
  match s.input with
  | some (.finish n ok) =>
    let s1 := s.spdmAnswer n (fun k => k == 4 && ok) (fun _ => 5) []
    .next (if portSession n && s.sessionOpen n && (s.spdm n).stage == 4 && ok then s1.writeFabrekey n else s1)
  | _ => .next s

/-- A key that a session's key update derives (R196): free (log entry 11), and none of them is 0, which marks a bank without one. -/
def State.derivedKey (s : State) (tx : Bool) : Nat := Config.freeNat s.freeCtr (if tx then 6 else 7) + 1

/-- KEY_UPDATE (R196, R197, R449): an established session answers it; that of a port loads the next key of a direction. -/
def execKeyUpdate (s : State) : Host.Outcome State Fault Refusal :=
  match s.input with
  | some (.keyUpdate n tx) =>
    if !portSession n then .next (s.spdmAnswer n (fun k => k == 5) id [])
    else if s.sessionOpen n && (s.spdm n).stage == 5 && (s.fabric.dir n tx).loadable then
      .next ((s.modKeys n tx (fun k => k.load (s.derivedKey tx))).spdmAnswer n (fun _ => true) id [])
    else .next s
  | _ => .next s

/-- HEARTBEAT (R196). -/
def execHeartbeat (s : State) : Host.Outcome State Fault Refusal :=
  match s.input with
  | some (.heartbeat n) => .next (s.spdmAnswer n (fun k => k == 5) id [])
  | _ => .next s

/-- END_SESSION (R196). -/
def execEndSession (s : State) : Host.Outcome State Fault Refusal :=
  match s.input with
  | some (.endSession n) => .next (s.spdmAnswer n (fun k => k == 5) (fun _ => 3) [])
  | _ => .next s

/-- The measurements of R449. -/
def State.measurement (s : State) (index : Nat) : List Byte :=
  match index with
  | 1 => Config.sha3 (Config.image 0)
  | 2 => s.controller.firmware.flatMap (fun f => Config.sha3 f.bytes)
  | 3 => natLe 4 features0 ++ natLe 4 0 ++ natLe 8 (if s.bringup.accepted then s.bringup.drvaccept else 0)
  | _ => s.harvest.flatMap (natLe 8)

/-- GET_MEASUREMENTS (R449): signed. -/
def execGetMeasurements (s : State) : Host.Outcome State Fault Refusal :=
  match s.input with
  | some (.getMeasurements n index) =>
    let m := s.measurement index
    .next (s.spdmAnswer n (fun k => decide (3 ≤ k) && decide (1 ≤ index) && decide (index ≤ 4)) id (m ++ Config.sign m))
  | _ => .next s

/-- CHALLENGE (R449). -/
def execChallenge (s : State) : Host.Outcome State Fault Refusal :=
  match s.input with
  | some (.challenge n nonce) => .next (s.spdmAnswer n (fun k => decide (3 ≤ k)) id (Config.sign nonce))
  | _ => .next s

end Sys2Proof.Machine
end

