-- ==== Sys2Proof/Machine/Integer.lean ====
section
/-! DEFINITION. The integer and logic instructions: INT (R264, R265), the I13 immediates (R266), the integer
compact forms (R267), MOVI and MOVHI (R146). -/

namespace Sys2Proof.Machine

/-- IMULHI (R264). -/
def mulHi (a b : Word) : Word := BitVec.ofInt 32 (sint a * sint b / 4294967296)

/-- IMULHU (R264). -/
def mulHiU (a b : Word) : Word := BitVec.ofNat 32 (a.toNat * b.toNat / 4294967296)

/-- IMIN (R264). -/
def minS (a b : Word) : Word := if sint a ≤ sint b then a else b

/-- IMAX (R264). -/
def maxS (a b : Word) : Word := if sint a ≤ sint b then b else a

/-- UMIN (R264). -/
def minU (a b : Word) : Word := if a.toNat ≤ b.toNat then a else b

/-- UMAX (R264). -/
def maxU (a b : Word) : Word := if a.toNat ≤ b.toNat then b else a

/-- A shift amount: bits [4:0] (R68). -/
def amount (b : Word) : Nat := b.toNat % 32

/-- SHRL (R264). -/
def shrl (a b : Word) : Word := a >>> amount b

/-- SHRA (R264). -/
def shra (a b : Word) : Word := a.sshiftRight (amount b)

/-- ROTL (R264). -/
def rotl (a b : Word) : Word := a.rotateLeft (amount b)

/-- SHL without saturation (R264). -/
def shl (a b : Word) : Word := a <<< amount b

/-- The exact value of SHL (R264). -/
def shlExact (a b : Word) : Int := sint a * ((2 ^ amount b : Nat) : Int)

/-- POPC (R264). -/
def popc (a : Word) : Word := BitVec.ofNat 32 ((List.range 32).countP (fun i => a.getLsbD i))

/-- CLZ (R264). -/
def clz (a : Word) : Word := BitVec.ofNat 32 (if a = 0 then 32 else 31 - Nat.log2 a.toNat)

/-- BREV (R264): bit i moves to bit 31 − i. -/
def brev (a : Word) : Word := a.reverse

/-- The effective length of BFE and BFI (R265). -/
def fieldLen (b : Word) : Nat := min (wbits b 13 8) (32 - wbits b 4 0)

/-- BFE (R265). -/
def bfe (a b : Word) : Word :=
  let len := fieldLen b
  if len = 0 then 0
  else
    let f := a.toNat / 2 ^ wbits b 4 0 % 2 ^ len
    if b.getLsbD 15 then BitVec.ofInt 32 (signed len f) else BitVec.ofNat 32 f

/-- BFI (R265). -/
def bfi (a b c : Word) : Word :=
  let pos := wbits b 4 0
  let m : Word := BitVec.ofNat 32 ((2 ^ fieldLen b - 1) * 2 ^ pos)
  (c &&& ~~~m) ||| ((a <<< pos) &&& m)

/-- SEL (R264): the whole tested word decides. -/
def sel (a b c : Word) : Word := if c != 0 then a else b

/-- ISETLT (R264). -/
def setLt (a b : Word) : Word := Word.ofBool (decide (sint a < sint b))

/-- ISETLE (R264). -/
def setLe (a b : Word) : Word := Word.ofBool (decide (sint a ≤ sint b))

/-- ISETLTU (R264). -/
def setLtU (a b : Word) : Word := Word.ofBool (decide (a.toNat < b.toNat))

/-- ISETLEU (R264). -/
def setLeU (a b : Word) : Word := Word.ofBool (decide (a.toNat ≤ b.toNat))

/-- ISETEQ (R264). -/
def setEq (a b : Word) : Word := Word.ofBool (a == b)

/-- ISETNE (R264). -/
def setNe (a b : Word) : Word := Word.ofBool (a != b)

/-- abs of a signed word, exact (R264). -/
def absExact (a : Word) : Int := ((sint a).natAbs : Int)

/-- A sign-extended immediate (R35). -/
def simm {n : Nat} (i : BitVec n) : Word := i.signExtend 32

/-- A zero-extended immediate (R35). -/
def zimm {n : Nat} (i : BitVec n) : Word := i.zeroExtend 32

/-- IADD (R264), saturating under the prefix. -/
def execIadd (d a b : Opd) (s : State) : Host.Outcome State Fault Refusal :=
  .next (opSat s d (fun _ w l ln => sint (readOpd w l ln a) + sint (readOpd w l ln b)))

/-- ISUB (R264), saturating under the prefix. -/
def execIsub (d a b : Opd) (s : State) : Host.Outcome State Fault Refusal :=
  .next (opSat s d (fun _ w l ln => sint (readOpd w l ln a) - sint (readOpd w l ln b)))

/-- IMUL (R264), saturating under the prefix. -/
def execImul (d a b : Opd) (s : State) : Host.Outcome State Fault Refusal :=
  .next (opSat s d (fun _ w l ln => sint (readOpd w l ln a) * sint (readOpd w l ln b)))

/-- SHL (R264), saturating under the prefix. -/
def execShl (d a b : Opd) (s : State) : Host.Outcome State Fault Refusal :=
  .next (opSat s d (fun _ w l ln => shlExact (readOpd w l ln a) (readOpd w l ln b)))

/-- IMAD (R264): exact and wrapped once; the accumulator is d or the fourth operand (R260). -/
def execImad (d a b : Opd) (s : State) : Host.Outcome State Fault Refusal :=
  .next (opSat s d (fun p w l ln =>
    sint (readOpd w l ln a) * sint (readOpd w l ln b) + sint (readOpd w l ln (accOpd p d))))

/-- IABS (R264). -/
def execIabs (d a : Opd) (s : State) : Host.Outcome State Fault Refusal :=
  .next (opSat s d (fun _ w l ln => absExact (readOpd w l ln a)))

/-- IMULHI (R264). -/
def execImulhi (d a b : Opd) (s : State) : Host.Outcome State Fault Refusal :=
  .next (op2 s d a b mulHi)

/-- IMULHU (R264). -/
def execImulhu (d a b : Opd) (s : State) : Host.Outcome State Fault Refusal :=
  .next (op2 s d a b mulHiU)

/-- IMIN (R264). -/
def execImin (d a b : Opd) (s : State) : Host.Outcome State Fault Refusal :=
  .next (op2 s d a b minS)

/-- IMAX (R264). -/
def execImax (d a b : Opd) (s : State) : Host.Outcome State Fault Refusal :=
  .next (op2 s d a b maxS)

/-- UMIN (R264). -/
def execUmin (d a b : Opd) (s : State) : Host.Outcome State Fault Refusal :=
  .next (op2 s d a b minU)

/-- UMAX (R264). -/
def execUmax (d a b : Opd) (s : State) : Host.Outcome State Fault Refusal :=
  .next (op2 s d a b maxU)

/-- AND (R264). -/
def execAnd (d a b : Opd) (s : State) : Host.Outcome State Fault Refusal :=
  .next (op2 s d a b (· &&& ·))

/-- OR (R264). -/
def execOr (d a b : Opd) (s : State) : Host.Outcome State Fault Refusal :=
  .next (op2 s d a b (· ||| ·))

/-- XOR (R264). -/
def execXor (d a b : Opd) (s : State) : Host.Outcome State Fault Refusal :=
  .next (op2 s d a b (· ^^^ ·))

/-- ANDN (R264). -/
def execAndn (d a b : Opd) (s : State) : Host.Outcome State Fault Refusal :=
  .next (op2 s d a b (fun x y => x &&& ~~~y))

/-- SHRL (R264). -/
def execShrl (d a b : Opd) (s : State) : Host.Outcome State Fault Refusal :=
  .next (op2 s d a b shrl)

/-- SHRA (R264). -/
def execShra (d a b : Opd) (s : State) : Host.Outcome State Fault Refusal :=
  .next (op2 s d a b shra)

/-- ROTL (R264). -/
def execRotl (d a b : Opd) (s : State) : Host.Outcome State Fault Refusal :=
  .next (op2 s d a b rotl)

/-- ISETEQ (R264). -/
def execIseteq (d a b : Opd) (s : State) : Host.Outcome State Fault Refusal :=
  .next (op2 s d a b setEq)

/-- ISETNE (R264). -/
def execIsetne (d a b : Opd) (s : State) : Host.Outcome State Fault Refusal :=
  .next (op2 s d a b setNe)

/-- ISETLT (R264). -/
def execIsetlt (d a b : Opd) (s : State) : Host.Outcome State Fault Refusal :=
  .next (op2 s d a b setLt)

/-- ISETLE (R264). -/
def execIsetle (d a b : Opd) (s : State) : Host.Outcome State Fault Refusal :=
  .next (op2 s d a b setLe)

/-- ISETLTU (R264). -/
def execIsetltu (d a b : Opd) (s : State) : Host.Outcome State Fault Refusal :=
  .next (op2 s d a b setLtU)

/-- ISETLEU (R264). -/
def execIsetleu (d a b : Opd) (s : State) : Host.Outcome State Fault Refusal :=
  .next (op2 s d a b setLeU)

/-- BFE (R265). -/
def execBfe (d a b : Opd) (s : State) : Host.Outcome State Fault Refusal :=
  .next (op2 s d a b bfe)

/-- POPC (R264). -/
def execPopc (d a : Opd) (s : State) : Host.Outcome State Fault Refusal :=
  .next (op1 s d a popc)

/-- CLZ (R264). -/
def execClz (d a : Opd) (s : State) : Host.Outcome State Fault Refusal :=
  .next (op1 s d a clz)

/-- BREV (R264). -/
def execBrev (d a : Opd) (s : State) : Host.Outcome State Fault Refusal :=
  .next (op1 s d a brev)

/-- BFI (R265): into d or the fourth operand. -/
def execBfi (d a b : Opd) (s : State) : Host.Outcome State Fault Refusal :=
  .next (resultInstr s d (fun p w l ln =>
    .ok (bfi (readOpd w l ln a) (readOpd w l ln b) (readOpd w l ln (accOpd p d)), 0)))

/-- SEL (R264): tests d or the fourth operand. -/
def execSel (d a b : Opd) (s : State) : Host.Outcome State Fault Refusal :=
  .next (resultInstr s d (fun p w l ln =>
    .ok (sel (readOpd w l ln a) (readOpd w l ln b) (readOpd w l ln (accOpd p d)), 0)))

/-- IADDI (R266). -/
def execIaddi (d a : Opd) (imm : BitVec 13) (s : State) : Host.Outcome State Fault Refusal :=
  .next (opSat s d (fun _ w l ln => sint (readOpd w l ln a) + sint (simm imm)))

/-- ANDI (R266). -/
def execAndi (d a : Opd) (imm : BitVec 13) (s : State) : Host.Outcome State Fault Refusal :=
  .next (opImm s d a (zimm imm) (· &&& ·))

/-- ORI (R266). -/
def execOri (d a : Opd) (imm : BitVec 13) (s : State) : Host.Outcome State Fault Refusal :=
  .next (opImm s d a (zimm imm) (· ||| ·))

/-- XORI (R266). -/
def execXori (d a : Opd) (imm : BitVec 13) (s : State) : Host.Outcome State Fault Refusal :=
  .next (opImm s d a (zimm imm) (· ^^^ ·))

/-- SHI, kind SHL (R266). -/
def execShiShl (d a : Opd) (n : BitVec 5) (s : State) : Host.Outcome State Fault Refusal :=
  .next (opSat s d (fun _ w l ln => shlExact (readOpd w l ln a) (zimm n)))

/-- SHI, kind SHRL (R266). -/
def execShiShrl (d a : Opd) (n : BitVec 5) (s : State) : Host.Outcome State Fault Refusal :=
  .next (opImm s d a (zimm n) shrl)

/-- SHI, kind SHRA (R266). -/
def execShiShra (d a : Opd) (n : BitVec 5) (s : State) : Host.Outcome State Fault Refusal :=
  .next (opImm s d a (zimm n) shra)

/-- SHI, kind ROTL (R266). -/
def execShiRotl (d a : Opd) (n : BitVec 5) (s : State) : Host.Outcome State Fault Refusal :=
  .next (opImm s d a (zimm n) rotl)

/-- ISETI, condition EQ (R266). -/
def execIsetiEq (d a : Opd) (imm : BitVec 10) (s : State) : Host.Outcome State Fault Refusal :=
  .next (opImm s d a (simm imm) setEq)

/-- ISETI, condition NE (R266). -/
def execIsetiNe (d a : Opd) (imm : BitVec 10) (s : State) : Host.Outcome State Fault Refusal :=
  .next (opImm s d a (simm imm) setNe)

/-- ISETI, condition LT (R266). -/
def execIsetiLt (d a : Opd) (imm : BitVec 10) (s : State) : Host.Outcome State Fault Refusal :=
  .next (opImm s d a (simm imm) setLt)

/-- ISETI, condition LE (R266). -/
def execIsetiLe (d a : Opd) (imm : BitVec 10) (s : State) : Host.Outcome State Fault Refusal :=
  .next (opImm s d a (simm imm) setLe)

/-- ISETI, condition LTU (R266). -/
def execIsetiLtu (d a : Opd) (imm : BitVec 10) (s : State) : Host.Outcome State Fault Refusal :=
  .next (opImm s d a (simm imm) setLtU)

/-- ISETI, condition LEU (R266). -/
def execIsetiLeu (d a : Opd) (imm : BitVec 10) (s : State) : Host.Outcome State Fault Refusal :=
  .next (opImm s d a (simm imm) setLeU)

/-- MOVI (R146). -/
def execMovi (d : Opd) (imm : BitVec 19) (s : State) : Host.Outcome State Fault Refusal :=
  .next (opImm s d .z (simm imm) (fun _ k => k))

/-- MOVHI (R146): imm19 in bits [31:13]. -/
def execMovhi (d : Opd) (imm : BitVec 19) (s : State) : Host.Outcome State Fault Refusal :=
  .next (opImm s d .z (imm ++ (0#13)) (fun _ k => k))

/-- Compact MOV (R31). -/
def execMovC16 (d : Opd) (r : BitVec 5) (s : State) : Host.Outcome State Fault Refusal :=
  .next (op2 s d .z (.b r) (· ||| ·))

/-- Compact IADD (R31). -/
def execIaddC16 (d : Opd) (r : BitVec 5) (s : State) : Host.Outcome State Fault Refusal :=
  .next (opSat s d (fun _ w l ln => sint (readOpd w l ln d) + sint (readOpd w l ln (.b r))))

/-- Compact ISUB (R31). -/
def execIsubC16 (d : Opd) (r : BitVec 5) (s : State) : Host.Outcome State Fault Refusal :=
  .next (opSat s d (fun _ w l ln => sint (readOpd w l ln d) - sint (readOpd w l ln (.b r))))

/-- Compact IMUL (R31). -/
def execImulC16 (d : Opd) (r : BitVec 5) (s : State) : Host.Outcome State Fault Refusal :=
  .next (opSat s d (fun _ w l ln => sint (readOpd w l ln d) * sint (readOpd w l ln (.b r))))

/-- Compact AND (R31). -/
def execAndC16 (d : Opd) (r : BitVec 5) (s : State) : Host.Outcome State Fault Refusal :=
  .next (op2 s d d (.b r) (· &&& ·))

/-- Compact OR (R31). -/
def execOrC16 (d : Opd) (r : BitVec 5) (s : State) : Host.Outcome State Fault Refusal :=
  .next (op2 s d d (.b r) (· ||| ·))

/-- Compact XOR (R31). -/
def execXorC16 (d : Opd) (r : BitVec 5) (s : State) : Host.Outcome State Fault Refusal :=
  .next (op2 s d d (.b r) (· ^^^ ·))

/-- Compact SHL (R31). -/
def execShlC16 (d : Opd) (r : BitVec 5) (s : State) : Host.Outcome State Fault Refusal :=
  .next (op2 s d d (.b r) shl)

/-- Compact SHRL (R31). -/
def execShrlC16 (d : Opd) (r : BitVec 5) (s : State) : Host.Outcome State Fault Refusal :=
  .next (op2 s d d (.b r) shrl)

/-- Compact SHRA (R31). -/
def execShraC16 (d : Opd) (r : BitVec 5) (s : State) : Host.Outcome State Fault Refusal :=
  .next (op2 s d d (.b r) shra)

/-- Compact ISETLT (R31). -/
def execIsetltC16 (d : Opd) (r : BitVec 5) (s : State) : Host.Outcome State Fault Refusal :=
  .next (op2 s d d (.b r) setLt)

/-- NOT (R267). -/
def execNot (d : Opd) (r : BitVec 5) (s : State) : Host.Outcome State Fault Refusal :=
  .next (op1 s d (.b r) (fun x => ~~~x))

end Sys2Proof.Machine
end

