-- ==== Sys2Proof/Machine/Dispatch.lean ====
section
/-! DEFINITION. The dispatch of an instruction to its meaning: one arm for each constructor of Instr. -/

namespace Sys2Proof.Machine

def exec (i : Instr) (s : State) : Host.Outcome State Fault Refusal :=
  match i with
  | .nop16 => Sys2Proof.Machine.execNop16 s
  | .movC16 d x => Sys2Proof.Machine.execMovC16 d x s
  | .iaddC16 d x => Sys2Proof.Machine.execIaddC16 d x s
  | .isubC16 d x => Sys2Proof.Machine.execIsubC16 d x s
  | .imulC16 d x => Sys2Proof.Machine.execImulC16 d x s
  | .andC16 d x => Sys2Proof.Machine.execAndC16 d x s
  | .orC16 d x => Sys2Proof.Machine.execOrC16 d x s
  | .xorC16 d x => Sys2Proof.Machine.execXorC16 d x s
  | .shlC16 d x => Sys2Proof.Machine.execShlC16 d x s
  | .shrlC16 d x => Sys2Proof.Machine.execShrlC16 d x s
  | .shraC16 d x => Sys2Proof.Machine.execShraC16 d x s
  | .faddC16 d x => Sys2Proof.Machine.execFaddC16 d x s
  | .fmulC16 d x => Sys2Proof.Machine.execFmulC16 d x s
  | .fmaxC16 d x => Sys2Proof.Machine.execFmaxC16 d x s
  | .fminC16 d x => Sys2Proof.Machine.execFminC16 d x s
  | .isetltC16 d x => Sys2Proof.Machine.execIsetltC16 d x s
  | .not d x => Sys2Proof.Machine.execNot d x s
  | .pfx p => Sys2Proof.Machine.execPfx p s
  | .iadd d a b => Sys2Proof.Machine.execIadd d a b s
  | .isub d a b => Sys2Proof.Machine.execIsub d a b s
  | .imul d a b => Sys2Proof.Machine.execImul d a b s
  | .imulhi d a b => Sys2Proof.Machine.execImulhi d a b s
  | .imulhu d a b => Sys2Proof.Machine.execImulhu d a b s
  | .imad d a b => Sys2Proof.Machine.execImad d a b s
  | .imin d a b => Sys2Proof.Machine.execImin d a b s
  | .imax d a b => Sys2Proof.Machine.execImax d a b s
  | .umin d a b => Sys2Proof.Machine.execUmin d a b s
  | .umax d a b => Sys2Proof.Machine.execUmax d a b s
  | .and d a b => Sys2Proof.Machine.execAnd d a b s
  | .or d a b => Sys2Proof.Machine.execOr d a b s
  | .xor d a b => Sys2Proof.Machine.execXor d a b s
  | .andn d a b => Sys2Proof.Machine.execAndn d a b s
  | .shl d a b => Sys2Proof.Machine.execShl d a b s
  | .shrl d a b => Sys2Proof.Machine.execShrl d a b s
  | .shra d a b => Sys2Proof.Machine.execShra d a b s
  | .rotl d a b => Sys2Proof.Machine.execRotl d a b s
  | .popc d a => Sys2Proof.Machine.execPopc d a s
  | .clz d a => Sys2Proof.Machine.execClz d a s
  | .brev d a => Sys2Proof.Machine.execBrev d a s
  | .bfe d a b => Sys2Proof.Machine.execBfe d a b s
  | .bfi d a b => Sys2Proof.Machine.execBfi d a b s
  | .sel d a b => Sys2Proof.Machine.execSel d a b s
  | .iseteq d a b => Sys2Proof.Machine.execIseteq d a b s
  | .isetne d a b => Sys2Proof.Machine.execIsetne d a b s
  | .isetlt d a b => Sys2Proof.Machine.execIsetlt d a b s
  | .isetle d a b => Sys2Proof.Machine.execIsetle d a b s
  | .isetltu d a b => Sys2Proof.Machine.execIsetltu d a b s
  | .isetleu d a b => Sys2Proof.Machine.execIsetleu d a b s
  | .iabs d a => Sys2Proof.Machine.execIabs d a s
  | .iaddi d a imm => Sys2Proof.Machine.execIaddi d a imm s
  | .andi d a imm => Sys2Proof.Machine.execAndi d a imm s
  | .ori d a imm => Sys2Proof.Machine.execOri d a imm s
  | .xori d a imm => Sys2Proof.Machine.execXori d a imm s
  | .shiShl d a n => Sys2Proof.Machine.execShiShl d a n s
  | .shiShrl d a n => Sys2Proof.Machine.execShiShrl d a n s
  | .shiShra d a n => Sys2Proof.Machine.execShiShra d a n s
  | .shiRotl d a n => Sys2Proof.Machine.execShiRotl d a n s
  | .isetiEq d a imm => Sys2Proof.Machine.execIsetiEq d a imm s
  | .isetiNe d a imm => Sys2Proof.Machine.execIsetiNe d a imm s
  | .isetiLt d a imm => Sys2Proof.Machine.execIsetiLt d a imm s
  | .isetiLe d a imm => Sys2Proof.Machine.execIsetiLe d a imm s
  | .isetiLtu d a imm => Sys2Proof.Machine.execIsetiLtu d a imm s
  | .isetiLeu d a imm => Sys2Proof.Machine.execIsetiLeu d a imm s
  | .movi d imm => Sys2Proof.Machine.execMovi d imm s
  | .movhi d imm => Sys2Proof.Machine.execMovhi d imm s
  | .ldl d imm => Sys2Proof.Machine.execLdl d imm s
  | .region imm => Sys2Proof.Machine.execRegion imm s
  | .movm v idx => Sys2Proof.Machine.execMovm v idx s
  | .movmw v idx => Sys2Proof.Machine.execMovmw v idx s
  | .movg v idx => Sys2Proof.Machine.execMovg v idx s
  | .movgw v idx => Sys2Proof.Machine.execMovgw v idx s
  | .movc v idx => Sys2Proof.Machine.execMovc v idx s
  | .movtc v idx => Sys2Proof.Machine.execMovtc v idx s
  | .ld v a size sem scope space hint => Sys2Proof.Machine.execLd v a size sem scope space hint s
  | .st v a size sem scope space hint => Sys2Proof.Machine.execSt v a size sem scope space hint s
  | .ldo v a size off => Sys2Proof.Machine.execLdo v a size off s
  | .sto v a size off => Sys2Proof.Machine.execSto v a size off s
  | .lds v a size off => Sys2Proof.Machine.execLds v a size off s
  | .sts v a size off => Sys2Proof.Machine.execSts v a size off s
  | .atom d a b op scope => Sys2Proof.Machine.execAtom d a b op scope s
  | .atoma d a b op scope => Sys2Proof.Machine.execAtoma d a b op scope s
  | .atoml d a b op scope => Sys2Proof.Machine.execAtoml d a b op scope s
  | .atomal d a b op scope => Sys2Proof.Machine.execAtomal d a b op scope s
  | .fence scope kind dom => Sys2Proof.Machine.execFence scope kind dom s
  | .stmc d a b => Sys2Proof.Machine.execStmc d a b s
  | .malloc d a => Sys2Proof.Machine.execMalloc d a s
  | .mfree a => Sys2Proof.Machine.execMfree a s
  | .cflush a b => Sys2Proof.Machine.execCflush a b s
  | .cinv a b => Sys2Proof.Machine.execCinv a b s
  | .pref a b => Sys2Proof.Machine.execPref a b s
  | .ldt d a b => Sys2Proof.Machine.execLdt d a b s
  | .stt d a b => Sys2Proof.Machine.execStt d a b s
  | .lcp sa g size out slot ordered => Sys2Proof.Machine.execLcp sa g size out slot ordered s
  | .tinit d a b => Sys2Proof.Machine.execTinit d a b s
  | .twait d a => Sys2Proof.Machine.execTwait d a s
  | .tstat d a => Sys2Proof.Machine.execTstat d a s
  | .tready d a => Sys2Proof.Machine.execTready d a s
  | .tempty d a => Sys2Proof.Machine.execTempty d a s
  | .scmd d a => Sys2Proof.Machine.execScmd d a s
  | .sresume d a => Sys2Proof.Machine.execSresume d a s
  | .shalo d a => Sys2Proof.Machine.execShalo d a s
  | .spub d a => Sys2Proof.Machine.execSpub d a s
  | .spoll d a b => Sys2Proof.Machine.execSpoll d a b s
  | .tdef d a b => Sys2Proof.Machine.execTdef d a b s
  | .tundef d a => Sys2Proof.Machine.execTundef d a s
  | .scancel d a => Sys2Proof.Machine.execScancel d a s
  | .tld t p => Sys2Proof.Machine.execTld t p s
  | .tst t p => Sys2Proof.Machine.execTst t p s
  | .tzero t => Sys2Proof.Machine.execTzero t s
  | .tmma c a b ra rb => Sys2Proof.Machine.execTmma c a b ra rb s
  | .tmmaq c a b ra rb => Sys2Proof.Machine.execTmmaq c a b ra rb s
  | .tdrain t p => Sys2Proof.Machine.execTdrain t p s
  | .tcvt d a p => Sys2Proof.Machine.execTcvt d a p s
  | .ttrans d a => Sys2Proof.Machine.execTtrans d a s
  | .tfill d p => Sys2Proof.Machine.execTfill d p s
  | .mtask d a b => Sys2Proof.Machine.execMtask d a b s
  | .mtwait d a => Sys2Proof.Machine.execMtwait d a s
  | .mtstat d a => Sys2Proof.Machine.execMtstat d a s
  | .mtcancel d a => Sys2Proof.Machine.execMtcancel d a s
  | .kcreate d a b => Sys2Proof.Machine.execKcreate d a b s
  | .kclose d a b => Sys2Proof.Machine.execKclose d a b s
  | .kspawn d a => Sys2Proof.Machine.execKspawn d a s
  | .ksend d a b => Sys2Proof.Machine.execKsend d a b s
  | .krecv d a b => Sys2Proof.Machine.execKrecv d a b s
  | .ktryrecv d a b => Sys2Proof.Machine.execKtryrecv d a b s
  | .kpost d a b => Sys2Proof.Machine.execKpost d a b s
  | .kwadd d a b => Sys2Proof.Machine.execKwadd d a b s
  | .kwdel d a b => Sys2Proof.Machine.execKwdel d a b s
  | .kwait d a b => Sys2Proof.Machine.execKwait d a b s
  | .karm d a b => Sys2Proof.Machine.execKarm d a b s
  | .kdisarm d a => Sys2Proof.Machine.execKdisarm d a s
  | .klookup d a => Sys2Proof.Machine.execKlookup d a s
  | .kname d a b => Sys2Proof.Machine.execKname d a b s
  | .kidle d a => Sys2Proof.Machine.execKidle d a s
  | .kwork d => Sys2Proof.Machine.execKwork d s
  | .ktime d => Sys2Proof.Machine.execKtime d s
  | .binit d a b => Sys2Proof.Machine.execBinit d a b s
  | .barrive d a => Sys2Proof.Machine.execBarrive d a s
  | .bwait d a b => Sys2Proof.Machine.execBwait d a b s
  | .bsync d a => Sys2Proof.Machine.execBsync d a s
  | .binval d a => Sys2Proof.Machine.execBinval d a s
  | .bz c off => Sys2Proof.Machine.execBz c off s
  | .bnz c off => Sys2Proof.Machine.execBnz c off s
  | .bra off => Sys2Proof.Machine.execBra off s
  | .call off => Sys2Proof.Machine.execCall off s
  | .callr a => Sys2Proof.Machine.execCallr a s
  | .jmpr a => Sys2Proof.Machine.execJmpr a s
  | .ret => Sys2Proof.Machine.execRet s
  | .reconv => Sys2Proof.Machine.execReconv s
  | .yield => Sys2Proof.Machine.execYield s
  | .exitLane => Sys2Proof.Machine.execExitLane s
  | .nop => Sys2Proof.Machine.execNop s
  | .trapInstr a => Sys2Proof.Machine.execTrapInstr a s
  | .breakTrap => Sys2Proof.Machine.execBreakTrap s
  | .svc a => Sys2Proof.Machine.execSvc a s
  | .eret a b => Sys2Proof.Machine.execEret a b s
  | .tlbinv a => Sys2Proof.Machine.execTlbinv a s
  | .tlbgen => Sys2Proof.Machine.execTlbgen s
  | .preempt a b => Sys2Proof.Machine.execPreempt a b s
  | .resumew a b => Sys2Proof.Machine.execResumew a b s
  | .corerst a b => Sys2Proof.Machine.execCorerst a b s
  | .engrst a b => Sys2Proof.Machine.execEngrst a b s
  | .fadd d a b => Sys2Proof.Machine.execFadd d a b s
  | .fsub d a b => Sys2Proof.Machine.execFsub d a b s
  | .fmul d a b => Sys2Proof.Machine.execFmul d a b s
  | .ffma d a b => Sys2Proof.Machine.execFfma d a b s
  | .fmin d a b => Sys2Proof.Machine.execFmin d a b s
  | .fmax d a b => Sys2Proof.Machine.execFmax d a b s
  | .fabs d a => Sys2Proof.Machine.execFabs d a s
  | .fneg d a => Sys2Proof.Machine.execFneg d a s
  | .fseteq d a b => Sys2Proof.Machine.execFseteq d a b s
  | .fsetne d a b => Sys2Proof.Machine.execFsetne d a b s
  | .fsetlt d a b => Sys2Proof.Machine.execFsetlt d a b s
  | .fsetle d a b => Sys2Proof.Machine.execFsetle d a b s
  | .fsetun d a b => Sys2Proof.Machine.execFsetun d a b s
  | .fclass d a => Sys2Proof.Machine.execFclass d a s
  | .frnd d a => Sys2Proof.Machine.execFrnd d a s
  | .fcvti d a => Sys2Proof.Machine.execFcvti d a s
  | .fcvtui d a => Sys2Proof.Machine.execFcvtui d a s
  | .icvtf d a => Sys2Proof.Machine.execIcvtf d a s
  | .ucvtf d a => Sys2Proof.Machine.execUcvtf d a s
  | .fpkbf d a b => Sys2Proof.Machine.execFpkbf d a b s
  | .fpkh d a b => Sys2Proof.Machine.execFpkh d a b s
  | .fupbfl d a => Sys2Proof.Machine.execFupbfl d a s
  | .fupbfh d a => Sys2Proof.Machine.execFupbfh d a s
  | .fuphl d a => Sys2Proof.Machine.execFuphl d a s
  | .fuphh d a => Sys2Proof.Machine.execFuphh d a s
  | .hadd2Bf d a b => Sys2Proof.Machine.execHadd2Bf d a b s
  | .hmul2Bf d a b => Sys2Proof.Machine.execHmul2Bf d a b s
  | .hfma2Bf d a b => Sys2Proof.Machine.execHfma2Bf d a b s
  | .hmax2Bf d a b => Sys2Proof.Machine.execHmax2Bf d a b s
  | .hmin2Bf d a b => Sys2Proof.Machine.execHmin2Bf d a b s
  | .hadd2H d a b => Sys2Proof.Machine.execHadd2H d a b s
  | .hmul2H d a b => Sys2Proof.Machine.execHmul2H d a b s
  | .hfma2H d a b => Sys2Proof.Machine.execHfma2H d a b s
  | .hmax2H d a b => Sys2Proof.Machine.execHmax2H d a b s
  | .hmin2H d a b => Sys2Proof.Machine.execHmin2H d a b s
  | .hdot2Bf d a b => Sys2Proof.Machine.execHdot2Bf d a b s
  | .hdot2H d a b => Sys2Proof.Machine.execHdot2H d a b s
  | .frcp d a => Sys2Proof.Machine.execFrcp d a s
  | .frsq d a => Sys2Proof.Machine.execFrsq d a s
  | .fsqrt d a => Sys2Proof.Machine.execFsqrt d a s
  | .fex2 d a => Sys2Proof.Machine.execFex2 d a s
  | .flg2 d a => Sys2Proof.Machine.execFlg2 d a s
  | .fsin d a => Sys2Proof.Machine.execFsin d a s
  | .fcos d a => Sys2Proof.Machine.execFcos d a s
  | .ftanh d a => Sys2Proof.Machine.execFtanh d a s
  | .fdiv d a b => Sys2Proof.Machine.execFdiv d a b s
  | .shfli d a b => Sys2Proof.Machine.execShfli d a b s
  | .shflu d a b => Sys2Proof.Machine.execShflu d a b s
  | .shfld d a b => Sys2Proof.Machine.execShfld d a b s
  | .shflx d a b => Sys2Proof.Machine.execShflx d a b s
  | .voteall d a => Sys2Proof.Machine.execVoteall d a s
  | .voteany d a => Sys2Proof.Machine.execVoteany d a s
  | .ballot d a => Sys2Proof.Machine.execBallot d a s
  | .redadd d a => Sys2Proof.Machine.execRedadd d a s
  | .redmin d a => Sys2Proof.Machine.execRedmin d a s
  | .redmax d a => Sys2Proof.Machine.execRedmax d a s
  | .redand d a => Sys2Proof.Machine.execRedand d a s
  | .redor d a => Sys2Proof.Machine.execRedor d a s
  | .redxor d a => Sys2Proof.Machine.execRedxor d a s
  | .fredadd d a => Sys2Proof.Machine.execFredadd d a s
  | .fredmin d a => Sys2Proof.Machine.execFredmin d a s
  | .fredmax d a => Sys2Proof.Machine.execFredmax d a s
  | .scanadd d a => Sys2Proof.Machine.execScanadd d a s
  | .matchLanes d a => Sys2Proof.Machine.execMatchLanes d a s
  | .elect d => Sys2Proof.Machine.execElect d s
  | .active d => Sys2Proof.Machine.execActive d s
  | .packageReset => Sys2Proof.Machine.execPackageReset s
  | .bringupPhaseDone => Sys2Proof.Machine.execBringupPhaseDone s
  | .drvacceptWrite => Sys2Proof.Machine.execDrvacceptWrite s
  | .memsplitWrite => Sys2Proof.Machine.execMemsplitWrite s
  | .registerWrite => Sys2Proof.Machine.execRegisterWrite s
  | .doorbell => Sys2Proof.Machine.execDoorbell s
  | .launchRead => Sys2Proof.Machine.execLaunchRead s
  | .launchStart => Sys2Proof.Machine.execLaunchStart s
  | .blockPlace => Sys2Proof.Machine.execBlockPlace s
  | .runQueuePlace => Sys2Proof.Machine.execRunQueuePlace s
  | .launchComplete => Sys2Proof.Machine.execLaunchComplete s
  | .compactorMove => Sys2Proof.Machine.execCompactorMove s
  | .moveDone => Sys2Proof.Machine.execMoveDone s
  | .waveEnd => Sys2Proof.Machine.execWaveEnd s
  | .waveSaved => Sys2Proof.Machine.execWaveSaved s
  | .generationAdvance => Sys2Proof.Machine.execGenerationAdvance s
  | .linkDegraded => Sys2Proof.Machine.execLinkDegraded s
  | .remoteTimeout => Sys2Proof.Machine.execRemoteTimeout s
  | .holdNoticeSend => Sys2Proof.Machine.execHoldNoticeSend s
  | .holdNotice => Sys2Proof.Machine.execHoldNotice s
  | .remoteRequest => Sys2Proof.Machine.execRemoteRequest s
  | .remoteReply => Sys2Proof.Machine.execRemoteReply s
  | .multicastMemberWrite => Sys2Proof.Machine.execMulticastMemberWrite s
  | .multicastAck => Sys2Proof.Machine.execMulticastAck s
  | .mfreeExchange => Sys2Proof.Machine.execMfreeExchange s
  | .laneCopyComplete => Sys2Proof.Machine.execLaneCopyComplete s
  | .slipJobStart => Sys2Proof.Machine.execSlipJobStart s
  | .slipTileStart => Sys2Proof.Machine.execSlipTileStart s
  | .slipIteration => Sys2Proof.Machine.execSlipIteration s
  | .slipJobComplete => Sys2Proof.Machine.execSlipJobComplete s
  | .slipSignal => Sys2Proof.Machine.execSlipSignal s
  | .wheelSlab => Sys2Proof.Machine.execWheelSlab s
  | .taskDispatch => Sys2Proof.Machine.execTaskDispatch s
  | .taskTileDrain => Sys2Proof.Machine.execTaskTileDrain s
  | .taskComplete => Sys2Proof.Machine.execTaskComplete s
  | .messageArrival => Sys2Proof.Machine.execMessageArrival s
  | .rendezvousLand => Sys2Proof.Machine.execRendezvousLand s
  | .postTimeout => Sys2Proof.Machine.execPostTimeout s
  | .frameStall => Sys2Proof.Machine.execFrameStall s
  | .thruminoMessage => Sys2Proof.Machine.execThruminoMessage s
  | .srdReceive => Sys2Proof.Machine.execSrdReceive s
  | .ptpMessage => Sys2Proof.Machine.execPtpMessage s
  | .arpRequest => Sys2Proof.Machine.execArpRequest s
  | .kmsgDeliver => Sys2Proof.Machine.execKmsgDeliver s
  | .belvedereBind => Sys2Proof.Machine.execBelvedereBind s
  | .belvedereLookup => Sys2Proof.Machine.execBelvedereLookup s
  | .timerExpiry => Sys2Proof.Machine.execTimerExpiry s
  | .kwaitTimeout => Sys2Proof.Machine.execKwaitTimeout s
  | .conePass => Sys2Proof.Machine.execConePass s
  | .reconvTimeout => Sys2Proof.Machine.execReconvTimeout s
  | .lkrateWrite => Sys2Proof.Machine.execLkrateWrite s
  | .linkTrainingDone => Sys2Proof.Machine.execLinkTrainingDone s
  | .laneFault => Sys2Proof.Machine.execLaneFault s
  | .replayWindow => Sys2Proof.Machine.execReplayWindow s
  | .dieFlitReceive => Sys2Proof.Machine.execDieFlitReceive s
  | .uncrst => Sys2Proof.Machine.execUncrst s
  | .poiscrub => Sys2Proof.Machine.execPoiscrub s
  | .flitGroupReceive => Sys2Proof.Machine.execFlitGroupReceive s
  | .portLost => Sys2Proof.Machine.execPortLost s
  | .portTrained => Sys2Proof.Machine.execPortTrained s
  | .planeRemap => Sys2Proof.Machine.execPlaneRemap s
  | .planemapWrite => Sys2Proof.Machine.execPlanemapWrite s
  | .fabrekey => Sys2Proof.Machine.execFabrekey s
  | .rekeyGroupCount => Sys2Proof.Machine.execRekeyGroupCount s
  | .loadConfirm => Sys2Proof.Machine.execLoadConfirm s
  | .receiverAck => Sys2Proof.Machine.execReceiverAck s
  | .getVersion => Sys2Proof.Machine.execGetVersion s
  | .getCapabilities => Sys2Proof.Machine.execGetCapabilities s
  | .negotiateAlgorithms => Sys2Proof.Machine.execNegotiateAlgorithms s
  | .getDigests => Sys2Proof.Machine.execGetDigests s
  | .getCertificate => Sys2Proof.Machine.execGetCertificate s
  | .keyExchange => Sys2Proof.Machine.execKeyExchange s
  | .finish => Sys2Proof.Machine.execFinish s
  | .keyUpdate => Sys2Proof.Machine.execKeyUpdate s
  | .heartbeat => Sys2Proof.Machine.execHeartbeat s
  | .endSession => Sys2Proof.Machine.execEndSession s
  | .getMeasurements => Sys2Proof.Machine.execGetMeasurements s
  | .challenge => Sys2Proof.Machine.execChallenge s
  | .grantPoolAdd => Sys2Proof.Machine.execGrantPoolAdd s
  | .hostMemAccess => Sys2Proof.Machine.execHostMemAccess s
  | .cxlTimeout => Sys2Proof.Machine.execCxlTimeout s
  | .cxlLinkDown => Sys2Proof.Machine.execCxlLinkDown s
  | .cxlLinkUp => Sys2Proof.Machine.execCxlLinkUp s
  | .droopStretch => Sys2Proof.Machine.execDroopStretch s
  | .powerStretch => Sys2Proof.Machine.execPowerStretch s
  | .ptpLockLoss => Sys2Proof.Machine.execPtpLockLoss s
  | .kmsgReply => Sys2Proof.Machine.execKmsgReply s
  | .nameTimeout => Sys2Proof.Machine.execNameTimeout s
  | .kmsgRetransmission => Sys2Proof.Machine.execKmsgRetransmission s
  | .podBarrierMessage => Sys2Proof.Machine.execPodBarrierMessage s
  | .cxlCacheSnoop => Sys2Proof.Machine.execCxlCacheSnoop s

end Sys2Proof.Machine
end

