-- ==== Sys2Proof/Machine/Issue.lean ====
section
/-! DEFINITION. Issue: which lanes are ready (R287, R303, R417), issue groups and their order (R294, R416), fetching and
decoding a unit (R26, R42, R48), and what a lane meets before its instruction (R252 to R254). -/

namespace Sys2Proof.Machine

/-- A slot in one of some states. -/
def State.slotIs (s : State) (core i : Nat) (p : SlotState → Bool) : Bool := p (s.slot core i).st

/-- Room at a port for the message of a lane that waits (R209, R210, R394): in its queue, or in a post or the unexpected queue. -/
def State.hasRoom (s : State) (w : Wave) (l : Nat) (ln : Lane) (wt : Wait) (idx : Nat) : Bool :=
  match s.portIdx idx with
  | none => true
  | some p =>
    !w.sendsBefore idx l ln &&
      (if p.matched then decide (s.uq.length < 65536) || p.posts.any (fun x => x.takes (s.sendSource w) (leNat wt.bytes))
       else decide (s.queueLen idx p < p.capacity))

/-- A tile task's record no longer ARMED, READY or RUNNING, or one that another package has to be asked for (R347). -/
def State.taskOver (s : State) (w : Wave) (ln : Lane) (va : Nat) : Bool :=
  match s.engRead (laneAcc w ln false) va 4 [] with
  | .ok (bs, _, _) => let st := bitsOf (leNat bs) 11 8; st == 0 || decide (4 ≤ st)
  | .error t =>
    match t.need with
    | some (.access _ _ _ _ _) => true
    | some (.link _ _) => false
    | none => t.cause != 0

/-- A KLN instance whose lowest lane is at it, or a cross-lane instance, has all its lanes (R287, R314). -/
def instReady (w : Wave) (pc : VA) : Bool :=
  match instAt w pc with
  | none => true
  | some x =>
    x.complete && (!x.kln || (match (x.arrived.head?).bind (fun a => (w.lane a.lane).bind Lane.wait) with
      | some wt => wt.kind == .inst
      | none => true))

/-- A TMMAQ that a wave waits in can start, or runs (R330), or the wave is to join it again. -/
def State.quadReady (s : State) (u : Nat) (w : Wave) (pc : VA) : Bool :=
  match sget s.blocks w.block with
  | none => true
  | some k =>
    let us := (s.quadArrived k pc).map Prod.snd
    !us.contains u ||
      (us.length == 4 && (match s.quadRuns k with
        | some (pc', _, _) => pc' == pc
        | none => !s.quadBusy w))

/-- Whether a lane that waits can look again: its wait has been answered, or what it waits for is there. -/
def State.canResume (s : State) (u : Nat) (w : Wave) (l : Nat) (ln : Lane) (wt : Wait) : Bool :=
  wt.status.isSome ||
  (match wt.kind with
   | .inst => instReady w ln.pc
   | .slotReady core i => s.slotIs core i (fun x => x == .ready || x == .poisoned)
   | .slotDrain core i => s.slotIs core i (fun x => x == .ready || x == .draining || x == .poisoned)
   | .port i =>
     match s.portIdx i with
     | none => true
     | some p =>
       match p.queue with
       | m :: _ => s.dueMsg i u l ln m
       | [] => p.peerClosed || wt.value == 1
   | .room i => s.hasRoom w l ln wt i
   | .waitSet ws _ => (s.lowestSignalled ws ln).isSome
   | .idle ws g =>
     s.anySignalled ws || (match (s.obj g).body with | some (.pipegroup ended _ _) => ended | _ => true)
   | .task va => s.taskOver w ln va
   | .reconv _ => reconvGo w ln [] ln.pc || s.reconvOver wt
   | .quad => s.quadReady u w ln.pc
   | .acks p => !s.posted u l p
   | .requests => s.requestRoom w.coreKey
   | .dieLink src dst => s.reach src dst
   | .copies => !s.copying u l
   | .turn => !s.behind { wave := u, lanes := [], pc := ln.pc, len := 0, word := 0, pfx := none } l
   | .advance asid gen => !s.olderAccess asid gen
   | .barrier _ _ _ _ | .slotRelease _ _ | .remote _ | .fetch _ | .multicast _ | .cxl | .rendezvous _ | .send _ | .name _ | .saved _ => false)

/-- The failure of an earlier store that a lane takes before its next instruction (R139, R187). -/
def Lane.lateNow (ln : Lane) : Option Late := ln.late.filter (fun e => e.inTrap == ln.inTrap)

/-- A lane that waited for its fetch, or for acknowledgements before its instruction, comes to the instruction, or back to what it waited
for before. -/
def Lane.arriveAt (ln : Lane) : Lane :=
  match ln.wait with
  | none => ln
  | some wt =>
    match wt.kind with
    | .fetch _ => { ln with wait := ln.held, held := none }
    | .dieLink _ _ | .acks _ => if wt.value = 2 then { ln with wait := ln.held, held := none } else ln
    | _ => ln

/-- The unit that a lane waits in, which has been issued for it. -/
def Lane.inProgress (ln : Lane) : Option Fetched := if ln.arriveAt.wait.isSome then ln.issued.map Issued.unit else none

/-- An operand names a g register; as a pair it names the next one too (R28). -/
def namesG (r : Nat) (o : Opd) : Bool := (gRegs o 1).contains r

/-- A pair of g registers holds a g register (R28). -/
def pairHasG (r : Nat) (o : Opd) : Bool := (gRegs o 2).contains r

/-- The g registers that a KLN operand P gives: g(8 + p), and the next one for a pair (R313). -/
def paramHasG (r : Nat) (p : BitVec 3) (n : Nat) : Bool := (List.range n).any (fun k => r == 8 + (p.toNat + k))

/-- An instruction reads a g register (R248); kept says that a masked-off lane keeps its destination's old value (R44). -/
def readsG (r : Nat) (kept : Bool) (i : Instr) : Bool :=
  match i with
  | .iaddC16 d _ | .isubC16 d _ | .imulC16 d _ | .andC16 d _ | .orC16 d _ | .xorC16 d _ | .shlC16 d _ | .shrlC16 d _ | .shraC16 d _
  | .faddC16 d _ | .fmulC16 d _ | .fmaxC16 d _ | .fminC16 d _ | .isetltC16 d _ => namesG r d
  | .imad d a b | .bfi d a b | .sel d a b | .ffma d a b | .hfma2Bf d a b | .hfma2H d a b | .hdot2Bf d a b | .hdot2H d a b =>
    namesG r d || namesG r a || namesG r b
  | .iadd d a b | .isub d a b | .imul d a b | .imulhi d a b | .imulhu d a b | .imin d a b | .imax d a b | .umin d a b | .umax d a b
  | .and d a b | .or d a b | .xor d a b | .andn d a b | .shl d a b | .shrl d a b | .shra d a b | .rotl d a b | .bfe d a b
  | .iseteq d a b | .isetne d a b | .isetlt d a b | .isetle d a b | .isetltu d a b | .isetleu d a b
  | .fadd d a b | .fsub d a b | .fmul d a b | .fmin d a b | .fmax d a b | .fseteq d a b | .fsetne d a b | .fsetlt d a b | .fsetle d a b
  | .fsetun d a b | .fpkbf d a b | .fpkh d a b | .hadd2Bf d a b | .hmul2Bf d a b | .hmax2Bf d a b | .hmin2Bf d a b | .hadd2H d a b
  | .hmul2H d a b | .hmax2H d a b | .hmin2H d a b | .fdiv d a b | .shfli d a b | .shflu d a b | .shfld d a b | .shflx d a b =>
    (kept && namesG r d) || namesG r a || namesG r b
  | .popc d a | .clz d a | .brev d a | .iabs d a | .iaddi d a _ | .andi d a _ | .ori d a _ | .xori d a _ | .shiShl d a _ | .shiShrl d a _
  | .shiShra d a _ | .shiRotl d a _ | .isetiEq d a _ | .isetiNe d a _ | .isetiLt d a _ | .isetiLe d a _ | .isetiLtu d a _
  | .isetiLeu d a _ | .fabs d a | .fneg d a | .fclass d a | .frnd d a | .fcvti d a | .fcvtui d a | .icvtf d a | .ucvtf d a | .fupbfl d a
  | .fupbfh d a | .fuphl d a | .fuphh d a | .frcp d a | .frsq d a | .fsqrt d a | .fex2 d a | .flg2 d a | .fsin d a | .fcos d a
  | .ftanh d a | .voteall d a | .voteany d a | .ballot d a | .redadd d a | .redmin d a | .redmax d a | .redand d a | .redor d a
  | .redxor d a | .fredadd d a | .fredmin d a | .fredmax d a | .scanadd d a | .matchLanes d a => (kept && namesG r d) || namesG r a
  | .elect d | .active d => kept && namesG r d
  | .movmw v _ | .movgw v _ | .movtc v _ => namesG r v
  | .movg _ idx => r == idx.toNat
  | .ld _ a _ _ _ space _ => if spaceOk space .z then namesG r a else pairHasG r a
  | .st v a _ _ _ space _ => namesG r v || (if spaceOk space .z then namesG r a else pairHasG r a)
  | .ldo _ a _ _ => pairHasG r a
  | .sto v a _ _ => namesG r v || pairHasG r a
  | .lds _ a _ _ => namesG r a
  | .sts v a _ _ => namesG r v || namesG r a
  | .atom d a b op _ | .atoma d a b op _ | .atoml d a b op _ | .atomal d a b op _ =>
    (op == .cas && namesG r d) || pairHasG r a || namesG r b
  | .stmc d a b | .stt d a b => namesG r d || pairHasG r a || namesG r b
  | .mfree a | .callr a | .jmpr a => pairHasG r a
  | .cflush a b | .cinv a b | .pref a b | .ldt _ a b | .spoll _ a b | .mtask _ a b => pairHasG r a || namesG r b
  | .lcp s g _ _ _ _ => namesG r s || pairHasG r g
  | .tinit _ a b | .tdef _ a b | .kcreate _ a b | .ksend _ a b | .krecv _ a b | .ktryrecv _ a b | .kpost _ a b | .kwadd _ a b | .karm _ a b
  | .kname _ a b => namesG r a || pairHasG r b
  | .scmd _ a | .shalo _ a | .mtwait _ a | .mtstat _ a | .mtcancel _ a | .kspawn _ a | .klookup _ a => pairHasG r a
  | .kclose _ a b | .kwdel _ a b | .kwait _ a b | .binit _ a b | .bwait _ a b | .eret a b => namesG r a || namesG r b
  | .malloc _ a | .twait _ a | .tstat _ a | .tready _ a | .tempty _ a | .sresume _ a | .spub _ a | .tundef _ a | .scancel _ a | .kdisarm _ a
  | .kidle _ a | .barrive _ a | .bsync _ a | .binval _ a | .bz a _ | .bnz a _ | .trapInstr a | .svc a | .tlbinv a | .preempt a _
  | .resumew a _ | .corerst a _ | .engrst a _ => namesG r a
  | .tld _ p | .tst _ p | .tfill _ p | .tcvt _ _ p => paramHasG r p 1
  | .tdrain _ p => paramHasG r p 2
  | _ => false

/-- A unit reads a g register (R41, R44, R248). -/
def unitReadsG (r : Nat) (f : Fetched) : Bool :=
  match f.pfx with
  | some (p, _) => namesG r p.mask || namesG r p.fourth || readsG r (p.mask != .z && !p.zmask) f.instr
  | none => readsG r false f.instr

/-- One instruction word at an address, compact or long (R25, R26). -/
def State.fetchCode (s : State) (w : Wave) (priv : Bool) (va : Nat) : Except Trap (Code × State) :=
  match s.fetchHalf w priv va with
  | .error t => .error t
  | .ok (lo, s1) =>
    if !lo.getLsbD 0 then .ok (.half lo, s1)
    else
      match s1.fetchHalf w priv (va + 2) with
      | .error t => .error t
      | .ok (hi, s2) => .ok (.word (hi ++ lo), s2)

/-- The unit at an address (R42): a prefix with the word after it, or one word; decoded in the order of R48. Both words are fetched before
the prefix's own form is checked. DESIGN CHOICE, log entry 111. -/
def State.fetchUnit (s : State) (w : Wave) (priv : Bool) (va : Nat) : Except Trap (Except Failed Fetched × State) :=
  match s.fetchCode w priv va with
  | .error t => .error t
  | .ok (c, s1) =>
    match decode1 c with
    | .ok (.pfx _) =>
      match s1.fetchCode w priv (va + 4) with
      | .error t => .error t
      | .ok (c2, s2) => .ok (decodeUnit c (some c2), s2)
    | _ => .ok (decodeUnit c none, s1)

/-- A lane's next unit reads a g register that an earlier-issued group of the wave has yet to write (R248). -/
def State.gHeld (s : State) (w : Wave) (ln : Lane) : Bool :=
  w.gWait.any (fun e => !e.beaten) && ln.inProgress.isNone &&
  (match s.fetchUnit w ln.isPriv ln.pc.toNat with
   | .ok (.ok f, _) => w.gWait.any (fun e => !e.beaten && e.regs.any (fun r => unitReadsG r f))
   | _ => false)

/-- A lane that can issue (R248, R303, R417): it waits for nothing, for something that is there, or has a trap to take; a lane of a wave
that is being saved only until it has stopped; none while bring-up has not been accepted (R445). -/
def State.laneReady (s : State) (u : Nat) (w : Wave) (l : Nat) (ln : Lane) : Bool :=
  s.bringup.accepted && (w.st == .resident || (w.st == .saving && !ln.stopped)) && !s.gHeld w ln &&
  (match ln.wait with
   | none => true
   | some wt => s.canResume u w l ln wt || (ln.lateNow.isSome && wt.interruptible))

/-- An issue group (R294): lanes of one wave at one PC, alike in standing inside or outside a handler. -/
structure Group where
  wave : Nat
  lanes : List Nat
  pc : VA
  inTrap : Bool
  /-- Since when it has waited, and when its wave was placed (R416). -/
  age : Nat
  placed : Nat
  /-- Its partition. -/
  part : Nat
  /-- The unit its lanes wait in, where they do: it is not fetched again. -/
  unit : Option Fetched
  deriving DecidableEq, Repr

/-- The key of a wave's partition. -/
def Wave.partKey (w : Wave) : Nat := 12 * w.coreKey + w.part

/-- Since when a lane has waited to be selected: it was last selected, or its wave was placed. DEDUCED, log entry 17. -/
def Lane.age (ln : Lane) (w : Wave) : Nat := max ln.stamp w.placed

/-- Two lanes are of the same issued instructions with a g destination, or of none (R247). -/
def Wave.together (w : Wave) (l j : Nat) : Bool := w.gWait.all (fun e => e.lanes.contains l == e.lanes.contains j)

/-- A ready lane put into the group it belongs to: lanes that wait in a unit are of the group that was issued. -/
def addToGroup (u : Nat) (w : Wave) (l : Nat) (ln : Lane) (gs : List Group) : List Group :=
  match gs with
  | [] => [{ wave := u, lanes := [l], pc := ln.pc, inTrap := ln.inTrap, age := ln.age w, placed := w.placed, part := w.partKey,
             unit := ln.inProgress }]
  | g :: rest =>
    if g.wave = u && g.pc = ln.pc && g.inTrap = ln.inTrap && g.unit = ln.inProgress && w.together l (g.lanes.headD l) then
      { g with lanes := g.lanes ++ [l], age := min g.age (ln.age w) } :: rest
    else g :: addToGroup u w l ln rest

/-- The ready groups of a wave, of the lanes that a condition allows. -/
def State.waveGroups (s : State) (u : Nat) (w : Wave) (p : Lane → Bool) : List Group :=
  w.lanes.foldl (fun gs x => if s.laneReady u w x.1 x.2 && p x.2 then addToGroup u w x.1 x.2 gs else gs) []

/-- The ready groups of the package, of the waves and lanes that a condition allows. -/
def State.groups (s : State) (p : Wave → Lane → Bool) : List Group := s.waves.flatMap (fun e => s.waveGroups e.1 e.2 (p e.2))

/-- Whether a group is selected before another (R416): the longer wait, then the earlier placement, then the lowest lane. -/
def Group.before (g h : Group) : Bool :=
  decide (g.age < h.age) ||
    (g.age == h.age && (decide (g.placed < h.placed) || (g.placed == h.placed && decide (g.lanes.headD 0 ≤ h.lanes.headD 0))))

/-- The group that is selected first. -/
def firstGroup (gs : List Group) : Option Group :=
  match gs with
  | [] => none
  | g :: rest =>
    match firstGroup rest with
    | none => some g
    | some h => if g.before h then some g else some h

/-- The vector ALU pipe (R416): INT, FLT, HPK, XLN, the I13 majors, MOVI, MOVHI and the compact forms; a unit goes where its
second word goes. -/
def vectorPipe (f : Fetched) : Bool :=
  if f.word.getLsbD 0 then
    let major := (f.word.extractLsb' 1 6).toNat
    (1 ≤ major && major ≤ 3) || (5 ≤ major && major ≤ 0xD)
  else true

/-- The pipe of a group's next instruction. -/
def State.groupPipe (s : State) (g : Group) : Bool :=
  match s.wave g.wave with
  | none => false
  | some w =>
    match w.lane (g.lanes.headD 0), g.unit with
    | none, _ => false
    | some _, some f => vectorPipe f
    | some ln, none =>
      match s.fetchUnit w ln.isPriv g.pc.toNat with
      | .ok (.ok f, _) => vectorPipe f
      | _ => false

/-- The group for the second slot of a clock (R416): of the partition whose first slot has issued, another group that uses
the other pipe. -/
def State.secondPick (s : State) : Option Group :=
  match s.slot2 with
  | none => none
  | some (part, vector, stamp) =>
    firstGroup ((s.groups (fun w ln => w.partKey == part && decide (ln.stamp < stamp))).filter (fun g => s.groupPipe g != vector))

/-- The group whose instruction issues next (R416), and the stamp of its clock where it takes the second slot. DEDUCED, log entry 73. -/
def State.pick (s : State) : Option (Group × Option Nat) :=
  match s.secondPick with
  | some g => some (g, s.slot2.map (fun x => x.2.2))
  | none => (firstGroup (s.groups (fun _ _ => true))).map (fun g => (g, none))

/-- The group of one partition whose instruction issues next. -/
def State.pickPart (s : State) (part : Nat) : Option Group := firstGroup (s.groups (fun w _ => w.partKey == part))

/-- The region-closing instructions (R253). -/
def closes (i : Instr) : Bool :=
  match i with
  | .atom _ _ _ _ _ | .atoma _ _ _ _ _ | .atoml _ _ _ _ _ | .atomal _ _ _ _ _ => true
  | .kcreate _ _ _ | .kclose _ _ _ | .kspawn _ _ | .ksend _ _ _ | .krecv _ _ _ | .ktryrecv _ _ _ | .kpost _ _ _ | .kwadd _ _ _
  | .kwdel _ _ _ | .kwait _ _ _ | .karm _ _ _ | .kdisarm _ _ | .klookup _ _ | .kname _ _ _ | .kidle _ _ | .kwork _ | .ktime _ => true
  | .scmd _ _ | .sresume _ _ | .spub _ _ | .mtask _ _ _ | .mtcancel _ _ | .tinit _ _ _ | .tready _ _ | .tempty _ _ => true
  | .binit _ _ _ | .barrive _ _ | .bwait _ _ _ | .bsync _ _ | .binval _ _ => true
  | .stmc _ _ _ | .lcp _ _ _ _ _ _ | .movmw _ _ | .call _ | .callr _ | .ret | .exitLane | .svc _ => true
  | _ => false

/-- An instruction is REGION. -/
def isRegion (i : Instr) : Bool := match i with | .region _ => true | _ => false

/-- The tail count with the instruction at the PC in it (R253): 0 in a body. -/
def Bank.position (k : Bank) (closing : Bool) : Nat :=
  if k.tail = 0 then (if closing then 1 else 0) else if k.counted then k.tail else k.tail + 1

/-- A bank as its lane meets an instruction: counted in its tail; a restart is over unless the instruction is REGION. -/
def Bank.meet (k : Bank) (closing region : Bool) : Bank :=
  let n := k.position closing
  { k with tail := n, counted := n != 0, restart := k.restart && region }

/-- The trap of a decode that fails (R47, R48). -/
def failedTrap (f : Failed) (priv : Bool) : Trap :=
  match f.why with
  | .illegalInstr => Trap.mk 0x01 0 f.word
  | .illegalOperand => Trap.mk 0x02 0 f.word
  | .privOperand => Trap.mk (if priv then 0x02 else 0x06) 0 f.word
  | .illegalOrder => Trap.mk 0x03 0 f.word
  | .prefixForm => Trap.mk 0x04 0 f.word
  | .tooShort => Trap.mk 0x01 0 f.word

/-- What a lane takes instead of the instruction at its PC (R48, R253, R254): a REGION that is missing, the 17th of a tail,
or the decode's trap. DEDUCED, log entry 15. -/
def meetTrap (k : Bank) (unit : Except Failed Fetched) (priv : Bool) : Option Trap :=
  let region := match unit with | .ok f => isRegion f.instr | .error _ => false
  let closing := match unit with | .ok f => closes f.instr | .error _ => false
  if k.expect != 0 && !region then some (Trap.mk 0x05 0 (BitVec.ofNat 32 k.expect))
  else if 17 ≤ k.position closing && !region then some (Trap.mk 0x05 0 1)
  else
    match unit with
    | .error e => some (failedTrap e priv)
    | .ok _ => none

/-- A lane counted in its bank. DEDUCED, log entry 76. -/
def Lane.meet (ln : Lane) (closing region : Bool) : Lane := ln.setBank (ln.bank.meet closing region)

/-- An instruction that ends a region or a bank's use: it waits until the lane's remote stores have been acknowledged (R187). -/
def settles (i : Instr) : Bool :=
  closes i || isRegion i || (match i with | .eret _ _ => true | _ => false)

/-- A lane takes the trap of an earlier store at that store (R106, R139, R187). -/
def State.takeLate (s : State) (u : Nat) (w : Wave) (l : Nat) (ln : Lane) (e : Late) : State :=
  let a := laneAcc w ln true
  let t : Trap := if e.cause = 0x10 then pageFault a e.va ((s.atDie w.die).leafLevel a e.va) reasonUnbacked
    else if e.cause = 0x29 then Trap.mk 0x29 e.va e.aux else poisonTrap e.va
  let s1 := (s.setWave u (w.withdraw l)).modLane u l (fun x => { x with pc := e.pc, late := none, wait := none, held := none })
  takeTrap s1 u l t false (s.unitLen w { ln with pc := e.pc })

/-- A lane whose fetch has failed: its trap, or it waits for a die link (R171) or for another package (R103). -/
def State.fetchFails (s : State) (u : Nat) (w : Wave) (l : Nat) (ln : Lane) (t : Trap) : State :=
  match t.need with
  | some (.link src dst) => s.waitWith u l (.dieLink src dst) 2 []
  | some (.access pa _ _ _ _) => s.askFetch u l w.asid t.va pa
  | none => takeTrap (s.modLane u l (fun x => x.meet false true)) u l t false (s.unitLen w ln)

/-- The trap of a line that another package has not given for a lane's fetch (R103, R182, R190). -/
def State.fetchRefused (s : State) (w : Wave) (ln : Lane) : Option Trap :=
  match ln.wait with
  | none => none
  | some wt =>
    match wt.kind, wt.status with
    | .fetch _, some st => if st = remoteDone then none else some ((s.atDie w.die).failTrap (fetchAcc w.asid ln.isPriv) wt st)
    | _, _ => none

/-- The failure of an earlier store that a lane takes now (R139, R187): a lane whose instruction has had an effect ends that first. -/
def Lane.lateHere (ln : Lane) : Option Late :=
  match ln.inProgress, ln.wait with
  | some _, some wt => if wt.interruptible then ln.lateNow else none
  | _, _ => ln.lateNow

/-- A lane at its unit: counted in its bank, and, unless it has been issued before, finding the registers of wave scope as they are. -/
def Lane.take (ln : Lane) (w : Wave) (f : Fetched) (closing region : Bool) : Lane :=
  let x := ln.meet closing region
  if ln.inProgress.isSome then x else { x with issued := some { unit := f, g := w.g, ctl := w.ctl } }

/-- The unit of a group's lane: the one it waits in, or a fetch. -/
def State.unitAt (s : State) (g : Group) (w : Wave) (ln : Lane) : Except Trap (Except Failed Fetched × State) :=
  match g.unit with
  | some f => .ok (.ok f, s)
  | none => s.fetchUnit w ln.isPriv g.pc.toNat

/-- One lane of a group at its PC: the trap of an earlier store, its fetch, the acknowledgements its instruction waits for, then its
traps before the instruction; the unit and the lanes that go on are gathered. -/
def meetLane (g : Group) (acc : State × Option Fetched × List Nat) (l : Nat) : State × Option Fetched × List Nat :=
  match (acc.1.wave g.wave).bind (fun w => (w.lane l).map (fun ln => (w, ln))) with
  | none => acc
  | some (w, ln0) =>
    match ln0.lateHere, acc.1.fetchRefused w ln0 with
    | some e, _ => (acc.1.takeLate g.wave w l ln0 e, acc.2)
    | none, some t => (takeTrap (acc.1.modLane g.wave l (fun x => x.meet false true)) g.wave l t false (acc.1.unitLen w ln0), acc.2)
    | none, none =>
      let ln := ln0.arriveAt
      let s := acc.1.modLane g.wave l Lane.arriveAt
      match s.unitAt g w ln with
      | .error t => (s.fetchFails g.wave w l ln t, acc.2)
      | .ok (unit, s0) =>
        let closing := match unit with | .ok f => closes f.instr | .error _ => false
        let region := match unit with | .ok f => isRegion f.instr | .error _ => false
        let settling := match unit with | .ok f => settles f.instr | .error _ => false
        if settling && ln.wait.isNone && s0.posted g.wave l none then (s0.waitWith g.wave l (.acks none) 2 [], acc.2)
        else
          match meetTrap ln.bank unit ln.isPriv, unit with
          | some t, _ => (takeTrap (s0.modLane g.wave l (fun x => x.meet closing region)) g.wave l t false (s.unitLen w ln), acc.2)
          | none, .ok f => (s0.modLane g.wave l (fun x => x.take w f closing region), some (acc.2.1.getD f), acc.2.2 ++ [l])
          | none, .error _ => (s0.modLane g.wave l (fun x => x.meet closing region), acc.2)

/-- Lanes of a wave have been selected at a stamp. -/
def State.stampLanes (s : State) (u : Nat) (lanes : List Nat) (stamp : Nat) : State :=
  s.modWave u (fun w => { w with lanes := w.lanes.map (fun (x : Nat × Lane) => if lanes.contains x.1 then (x.1, { x.2 with stamp := stamp }) else x) })

/-- A group selected (R416): with a new stamp, or with that of the clock whose second slot it takes. -/
def State.selectGroup (s : State) (g : Group) (second : Option Nat) : State :=
  ({ s with ticket := s.ticket + 1 } : State).stampLanes g.wave g.lanes (second.getD s.ticket)

/-- A YIELD counts as a selection after every other one of its clock (R301, R416). -/
def State.yielding (s : State) (g : Group) (f : Fetched) (lanes : List Nat) : State :=
  match f.instr with
  | .yield => ({ s with ticket := s.ticket + 1 } : State).stampLanes g.wave lanes s.ticket
  | _ => s

/-- A group at its instruction: the state in which the instruction runs, and the instructions of the unit in order. -/
def State.issueGroup (s : State) (g : Group) (second : Option Nat) : State × List Instr :=
  let r := g.lanes.foldl (meetLane g) (s.selectGroup g second, none, [])
  match r.2.1 with
  | none => (r.1, [])
  | some f =>
    ({ r.1.yielding g f r.2.2 with focus := some { wave := g.wave, lanes := r.2.2, pc := g.pc, len := f.len, word := f.word, pfx := none } },
      (match f.pfx with | some (p, _) => [.pfx p] | none => []) ++ [f.instr])

end Sys2Proof.Machine
end

