-- ==== Sys2Proof/Machine/Engines.lean ====
section
/-! DEFINITION. The next step of the part's other agents: what an engine, the distributor, a Setter or Logen can do now, what
is due by device time, and what time brings when nothing else can go on. -/

namespace Sys2Proof.Machine

/-- The end of a wave, of a move and of a save (R365, R414, R415). -/
def State.waveEvent (s : State) : Option Event :=
  s.waves.findSome? (fun e =>
    if s.waveOver e.1 e.2 then some (.waveEnd e.1)
    else if e.2.st == .moving then some (.moveDone e.1)
    else if e.2.st == .saving && s.blockStopped e.2.block then some (.waveSaved e.2.block)
    else none)

/-- A lane copy that can complete (R232). -/
def State.copyEvent (s : State) (core : Nat) (cs : List LaneCopy) : Option Event :=
  (List.range cs.length).findSome? (fun n => if (s.copyStep core n).isSome then some (.laneCopyComplete core n) else none)

/-- What a core's copies, its job channel and its Kiln can do (R232, R236 to R238, R325, R339). -/
def State.coreEvent (s : State) (core : Nat) (c : CoreState) : Option Event :=
  (s.copyEvent core c.copies).or <|
    (if c.jobs.isEmpty then none
     else if (s.slipStart core).isSome then some (.slipJobStart core)
     else if (s.slipTile core).isSome then some (.slipTileStart core)
     else if (s.slipIterate core).isSome then some (.slipIteration core)
     else if (s.slipComplete core).isSome then some (.slipJobComplete core)
     else if (s.slipSignal core).isSome then some (.slipSignal core)
     else none).or <|
      (if c.kiln.isNone then none
       else if (s.wheelSlab core).isSome then some (.wheelSlab core)
       else if (s.tileDrain core).isSome then some (.taskTileDrain core)
       else none)

/-- What a Setter can do (R341, R342). -/
def State.setterEvent (s : State) (die : Nat) : Option Event :=
  let x := s.setter die
  ((List.range x.running.length).findSome? (fun n => if (s.complete die n).isSome then some (.taskComplete die n) else none)).or
    (if x.ready.isEmpty then none else if (s.dispatch die).isSome then some (.taskDispatch die) else none)

/-- The cores on which waves stand. -/
def State.busyCores (s : State) : List Nat := (s.waves.filter (fun e => e.2.onCore)).map (fun e => e.2.coreKey)

/-- What the command processors and the distributor can do (R363, R364, R408 to R414). -/
def State.launchEvent (s : State) : Option Event :=
  (s.launches.findSome? (fun e =>
    if (s.launchComplete e.1 e.2).isSome then some (.launchComplete e.2.q e.2.seq)
    else if s.canStart e.1 e.2 then some (.launchStart e.2.q e.2.seq)
    else none)).or <|
    (if s.blockPlace.isSome then some Event.blockPlace
     else if s.runQueuePlace.isSome then some Event.runQueuePlace
     else none).or <|
      (if s.roomWanted.isEmpty then none
       else s.busyCores.findSome? (fun c => if (s.compactFor c).isSome then some (.compactorMove c) else none)).or
        (if s.launchRead.isSome then some .launchRead else none)

/-- What Logen and the receive engine can do (R134, R210 to R213, R377, R394). -/
def State.logenEvent (s : State) : Option Event :=
  (if s.exchanges.isEmpty then none else some (Event.mfreeExchange 0)).or <|
    ((List.range s.parted.length).findSome? (fun n => if (s.partedStep n).isSome then some (Event.rendezvousLand partedPort n) else none)).or <|
    (s.objs.findSome? (fun e =>
      match e.2.body with
      | some (.port p) =>
        (List.range p.posts.length).findSome? (fun n => if (s.postStep e.1 n).isSome then some (Event.rendezvousLand e.1 n) else none)
      | some (.pipegroup _ _ _) => if (s.conePass e.1).isSome then some (Event.conePass e.1) else none
      | _ => none)).or
      (s.heldKmsg.map (fun e => Event.kmsgDeliver e.1 e.2.1 e.2.2))

/-- What the fabric can do: a dead plane's entries move (R200). -/
def State.fabricEvent (s : State) : Option Event := ((List.range 8).find? s.fabric.remapDue).map Event.planeRemap

/-- What an agent of the part can do now, whatever the time. -/
def State.nextEngine (s : State) : Option Event :=
  s.waveEvent.or <|
    ((s.cores.rotateLeft (s.freeCtr / 2)).findSome? (fun e => s.coreEvent e.1 e.2)).or <|
      ((List.range 6).findSome? s.setterEvent).or <| s.launchEvent.or <| s.logenEvent.or s.fabricEvent

/-- What a lane's wait ends in when its time has run out (R300, R401, R426), and when. -/
def Wait.limit (wt : Wait) (now u l : Nat) : Option (Nat × Event) :=
  if wt.status.isSome then none
  else
    match wt.kind with
    | .waitSet _ (some t) => some (t, .kwaitTimeout u l)
    | .cxl => some (leNat (wt.bytes.take 8) + 4000000, .cxlTimeout u l)
    | .reconv _ => some (now + 1, .reconvTimeout u l)
    | _ => none

/-- The posts of a port that run out (R214, R221). -/
def postLimits (idx : Nat) (p : Port) : List (Nat × Event) :=
  (List.range p.posts.length).filterMap (fun n =>
    match p.posts[n]? with
    | none => none
    | some x =>
      if x.stall = 0 || !x.live then none
      else if x.frame then some (x.stallEnd, .frameStall idx n)
      else some (x.stallEnd, .postTimeout idx n))

/-- Everything that device time brings, with its instant (R190, R193, R214, R221, R300, R401, R403, R405, R426).
DEDUCED, log entries 74 and 75. -/
def State.limits (s : State) : List (Nat × Event) :=
  s.waves.flatMap (fun e => e.2.lanes.filterMap (fun x => x.2.wait.bind (fun wt => wt.limit s.time e.1 x.1))) ++
  s.objs.flatMap (fun e =>
    match e.2.body with
    | some (.timer _ (some t) _) => [(t, Event.timerExpiry e.1)]
    | some (.port p) => postLimits e.1 p
    | _ => []) ++
  s.fabric.out.filterMap (fun e =>
    if e.2.held && s.fabric.anyLive then none else some (s.replyLimit e.2.sentAt e.2.suspended, .remoteTimeout e.1)) ++
  s.fabric.casts.flatMap (fun e =>
    if e.2.held && s.fabric.anyLive then []
    else e.2.waiting.map (fun m => (s.replyLimit e.2.sentAt m.suspended, Event.multicastAck e.1 m.member (some 0x29)))) ++
  s.fabric.heldIn.zipIdx.map (fun e => (e.1.noticed + 20000, Event.holdNoticeSend e.2)) ++
  s.kmsgs.filterMap (fun e => match e.2.body with
    | .bind _ _ _ | .lookup _ => some (e.2.sentAt + 1000 * s.fabric.timeout, Event.nameTimeout e.1)
    | _ => none)

/-- The earliest of a list, the first of equal ones. -/
def earliest (xs : List (Nat × Event)) : Option (Nat × Event) :=
  match xs with
  | [] => none
  | x :: rest =>
    match earliest rest with
    | none => some x
    | some y => if x.1 ≤ y.1 then some x else some y

/-- What is due by device time. -/
def State.due (s : State) : Option Event :=
  match earliest s.limits with
  | some (t, e) => if t ≤ s.time then some e else none
  | none => none

/-- What the next step of the package is. -/
inductive Plan where
  /-- A step of another agent. -/
  | event (e : Event) (s : State)
  /-- The unit of an issue group. -/
  | issue (s : State) (is : List Instr)
  /-- Nothing can go on. -/
  | idle (s : State)
  deriving DecidableEq, Repr

/-- The issue of a group as a plan. -/
def State.planGroup (s : State) (g : Group) (second : Option Nat) : Plan := .issue (s.issueGroup g second).1 (s.issueGroup g second).2

/-- The turns alternate, so that neither an engine with much to do nor a lane that polls holds the other up (R303; log entry 7). -/
def State.enginesTurn (s : State) : Bool := s.freeCtr % 2 == 1

/-- The issue of the group that R416 selects, the other slot of the clock being its partition's next; an agent where no group
is ready, and a time limit where nothing else can go on. -/
def State.planIssue (s : State) : Plan :=
  match s.pick with
  | some (g, second) =>
    ({ s with slot2 := if second.isSome then none else some (g.part, s.groupPipe g, s.ticket) } : State).planGroup g second
  | none =>
    match s.nextEngine with
    | some e => .event e s
    | none =>
      match earliest s.limits with
      | some (_, e) => .event e s
      | none => .idle s

/-- The agents of the part in their turn, what is due, the issue of instructions. -/
def State.planAgents (s : State) : Plan :=
  match if s.enginesTurn then s.nextEngine else none with
  | some e => .event e s
  | none =>
    match s.due with
    | some e => .event e s
    | none => s.planIssue

/-- The next step, no launch dealing its first rounds: a LINK_DEGRADED trap that is due (R176, R424), what the agenda says, an agent, an
issue group. DESIGN CHOICE, log entry 7. -/
def State.planFree (s : State) : Plan :=
  match s.degradedLane with
  | some _ => .event .linkDegraded s
  | none =>
    match s.agenda with
    | .step e :: rest => .event e { s with agenda := rest }
    | .issue die core part :: rest =>
      let s1 := { s with agenda := rest, slot2 := none }
      match s1.pickPart (12 * coreKey die core + part) with
      | some g => s1.planGroup g none
      | none => .idle s1
    | [] => s.planAgents

/-- The next step: nothing comes between the first rounds of a launch, which deal the room that was free at its start (R411). -/
def State.plan (s : State) : Plan := if s.dealing.isSome then .event .blockPlace s else s.planFree

/-- A state at the beginning of a step: no instruction runs, no event has come, fresh free values. -/
def State.begin (s : State) : State := { s with focus := none, run := Runner.idle, input := none, freeCtr := s.freeCtr + 1 }

end Sys2Proof.Machine
end

