-- ==== Sys2Proof/Machine/Step.lean ====
section
/-! DEFINITION. The step of the package, and the placing of one instruction where the next step fetches. -/

namespace Sys2Proof.Machine

/-- The instructions of a unit, one after another (R42). -/
def runAll (is : List Instr) (s : State) : Host.Outcome State Fault Refusal :=
  match is with
  | [] => .next s
  | i :: rest =>
    match exec i s with
    | .next s1 => runAll rest s1
    | .fault f => .fault f
    | .refused r => .refused r

/-- What a plan does. DESIGN CHOICE, log entry 84. -/
def Plan.run (p : Plan) : Host.Outcome State Fault Refusal :=
  match p with
  | .event e s => exec e.instr { s with input := some e }
  | .issue s is => runAll is s
  | .idle s => .next s

/-- One step: an event of the agenda, a step of another agent, or the unit of one issue group. -/
def step (s : State) : Host.Outcome State Fault Refusal := s.begin.plan.run

/-- The bytes of one instruction of a table row, and the zeros up to the longest unit. -/
def wordBytes (nbits w : Nat) : List Byte :=
  if nbits ≤ 16 then natLe 2 w ++ List.replicate 6 0 else natLe 4 w ++ List.replicate 4 0

/-- Code put at a physical address, seen by every instruction cache. -/
def State.patchCode (s : State) (la : Nat) (bs : List Byte) : State :=
  { s with mem := zwrite s.mem la bs, cores := s.cores.map (fun (e : Nat × CoreState) => (e.1, { e.2 with icache := [] })) }

/-- Where an issue group fetches, when a run of 8 bytes stands in one line of this package. -/
def State.codePlace (s : State) (g : Group) : Option Nat :=
  match s.wave g.wave with
  | none => none
  | some w =>
    match s.translate (Acc.mk w.asid true false true false) g.pc.toNat with
    | .error _ => none
    | .ok t => if (t.kind == .hbm || t.kind == .host) && g.pc.toNat % 128 ≤ 120 && g.unit.isNone then some (localOf t.pa) else none

/-- The page that a loaded program stands in: its virtual address, which the tables below map with R, W and X. -/
def codeVa : Nat := 0x20000

/-- The frames of the context table, of the tables of levels 5 to 1, and of the code. -/
def codeFrame : Nat := 0x100

/-- The lane of a loaded program. -/
def codeLane : Lane := Lane.start (BitVec.ofNat 64 codeVa) 65536 true

/-- The wave of a loaded program: of context 0, privileged, one lane, on die 0, core 0, its private area clear of tables and code. -/
def codeWave : Wave :=
  { block := 0, wv := 0, asid := 0, die := 0, core := 0, part := 0, st := .resident, lanes := [(0, codeLane)], g := [], ctl := [],
    launchId := 0, prio := 0, depth := 0, group := none, regs := 256, privBytes := 65536, tileCount := 8, tiles := [], tileLost := false,
    insts := [], barrier := Barrier.start, mainBase := 0, tileSlots := [0, 1, 2, 3, 4, 5, 6, 7], idle := false, started := true, placed := 0,
    obj := 0, area := 0x1000000 }

/-- The block of a loaded program: the whole scratchpad of its core. -/
def codeBlock : Block :=
  { asid := 0, die := 0, core := 0, scratchBase := 0, scratchBytes := 524288, waves := [0], placed := true, image := [], dies := 1,
    prio := 0, launch := none, index := 0, blocks := 1, workTiles := 0, workK := 0, cursor := 0, barriers := [], quadInsts := [] }

/-- A table entry: present, pointing at the next table. -/
def tableEntry (frame : Nat) : List Byte := natLe 8 (1 + frame * 4096)

/-- A leaf entry of level 1: present, leaf, W, X and U, local HBM (R102). -/
def leafEntry (frame : Nat) : List Byte := natLe 8 (0x4F + frame * 4096)

/-- A program of one instruction loaded from outside: bring-up accepted (R445), translation on, tables for one page, one wave, and nothing
else to do first. -/
def State.loadCode (s : State) (bs : List Byte) : State :=
  let f := codeFrame
  let m0 := zwrite s.mem (f * 4096) (tableEntry (f + 1))
  let m1 := zwrite m0 ((f + 1) * 4096) (tableEntry (f + 2))
  let m2 := zwrite m1 ((f + 2) * 4096) (tableEntry (f + 3))
  let m3 := zwrite m2 ((f + 3) * 4096) (tableEntry (f + 4))
  let m4 := zwrite m3 ((f + 4) * 4096) (tableEntry (f + 5))
  let m5 := zwrite m4 ((f + 5) * 4096 + 8 * (codeVa / 4096)) (leafEntry (f + 6))
  { s with
    mem := zwrite m5 ((f + 6) * 4096) bs, poison := [], ecc := [], softEcc := [], dir := [], tlb := [], tables := [], cores := [],
    links := State.reset.links, cfg := { s.cfg with ctxroot := f, xlaten := true }, waves := [(0, codeWave)], blocks := [(0, codeBlock)],
    bringup := { s.bringup with accepted := true }, launches := s.launches.map (fun (e : Nat × Launch) => (e.1, { e.2 with deal := none })),
    linkCtl := { s.linkCtl with raised := [] }, agenda := [.issue 0 0 0] }

/-- The state with an instruction stored where the next step fetches: at the PC of the group that issues next, or, where no
group does, as the program of one wave (log entry 12). DESIGN CHOICE, log entry 12. -/
def State.withFetchWord (s : State) (nbits w : Nat) : State :=
  match s.begin.plan, s.begin.pick with
  | .issue _ _, some (g, _) =>
    match s.codePlace g with
    | some la => s.patchCode la (wordBytes nbits w)
    | none => s.loadCode (wordBytes nbits w)
  | _, _ => s.loadCode (wordBytes nbits w)

end Sys2Proof.Machine
end

