-- ==== Sys2Proof/Laws/Fields.lean ====
section
/-! SUPPORT. Encoding and decoding agree, instruction by instruction: a word made from its fields gives them back (R25 to R41). -/

set_option Elab.async false

namespace Sys2Proof.Laws

/-- A field above the low part of a word. -/
theorem field_high {n w : Nat} (x : BitVec n) (y : BitVec w) (lo len : Nat) (h : w ≤ lo) :
    (x ++ y).extractLsb' lo len = x.extractLsb' (lo - w) len := by
  ext i hi
  simp [BitVec.getLsbD_append, show ¬ (lo + i < w) by omega, show lo + i - w = lo - w + i by omega]

/-- A field within the low part of a word. -/
theorem field_low {n w : Nat} (x : BitVec n) (y : BitVec w) (lo len : Nat) (h : lo + len ≤ w) :
    (x ++ y).extractLsb' lo len = y.extractLsb' lo len := by
  ext i hi
  simp [BitVec.getLsbD_append, show lo + i < w by omega]

/-- A field of a word, between what stands above it and below it. -/
theorem field_mid {n w len : Nat} (x : BitVec n) (f : BitVec len) (y : BitVec w) : (x ++ f ++ y).extractLsb' w len = f := by
  rw [field_high _ _ _ _ (Nat.le_refl _), field_low _ _ _ _ (by omega)]; simp

/-- The highest field of a word. -/
theorem field_top {n w : Nat} (x : BitVec n) (y : BitVec w) : (x ++ y).extractLsb' w n = x := by
  rw [field_high _ _ _ _ (Nat.le_refl _)]; simp

/-- An operand's code reads back. -/
theorem ofCode_code (o : Opd) : Opd.ofCode o.code = some o := by
  cases o with
  | b r => revert r; decide
  | g r => revert r; decide
  | _ => rfl

/-- An operand that meets a check reads back. -/
theorem opdWith_code {p : Opd → Bool} {o : Opd} (h : p o = true) : opdWith p o.code = .ok o := by
  simp [opdWith, ofCode_code, h]

/-- A readable operand reads back. -/
theorem rdOpd_code (o : Opd) : rdOpd o.code = .ok o := opdWith_code rfl

theorem size_code (z : Size) : Size.ofCode z.code = some z := by cases z <;> rfl
theorem sem_code (z : Sem) : Sem.ofCode z.code = z := by cases z <;> rfl
theorem scope_code (z : Scope) : Scope.ofCode z.code = some z := by cases z <;> rfl
theorem space_code (z : Space) : Space.ofCode z.code = z := by cases z <;> rfl
theorem hint_code (z : Hint) : Hint.ofCode z.code = z := by cases z <;> rfl
theorem atomOp_code (z : AtomOp) : AtomOp.ofCode z.code = z := by cases z <;> rfl
theorem aScope_code (z : AScope) : AScope.ofCode z.code = z := by cases z <;> rfl
theorem fenceKind_code (z : FenceKind) : FenceKind.ofCode z.code = z := by cases z <;> rfl
theorem fenceDomain_code (z : FenceDomain) : FenceDomain.ofCode z.code = z := by cases z <;> rfl
theorem copySize_code (z : CopySize) : CopySize.ofCode z.code = some z := by cases z <;> rfl
theorem rnd_code (z : Rnd) : Rnd.ofCode z.code = some z := by cases z <;> rfl
theorem tileBits_tf (t : BitVec 3) : tileBits (tf t) = t := by revert t; decide
theorem tileField_tf (t : BitVec 3) : tileField (tf t) = true := by revert t; decide

/-! The fields of an A3 word (R34). -/

theorem a3_fn (fn : BitVec 7) (b : BitVec 6) (a : BitVec 6) (d : BitVec 6) (m : BitVec 6) :
    BitVec.extractLsb' (n := 32) 25 7 (fn ++ b ++ a ++ d ++ m ++ 1#1) = fn :=
  (field_high (w := 1) _ _ _ _ (by decide)).trans <| (field_high (w := 6) _ _ _ _ (by decide)).trans <| (field_high (w := 6) _ _ _ _ (by decide)).trans <| (field_high (w := 6) _ _ _ _ (by decide)).trans <| field_top (w := 6) _ _
theorem a3_b (fn : BitVec 7) (b : BitVec 6) (a : BitVec 6) (d : BitVec 6) (m : BitVec 6) :
    BitVec.extractLsb' (n := 32) 19 6 (fn ++ b ++ a ++ d ++ m ++ 1#1) = b :=
  (field_high (w := 1) _ _ _ _ (by decide)).trans <| (field_high (w := 6) _ _ _ _ (by decide)).trans <| (field_high (w := 6) _ _ _ _ (by decide)).trans <| field_mid (w := 6) _ _ _
theorem a3_a (fn : BitVec 7) (b : BitVec 6) (a : BitVec 6) (d : BitVec 6) (m : BitVec 6) :
    BitVec.extractLsb' (n := 32) 13 6 (fn ++ b ++ a ++ d ++ m ++ 1#1) = a :=
  (field_high (w := 1) _ _ _ _ (by decide)).trans <| (field_high (w := 6) _ _ _ _ (by decide)).trans <| field_mid (w := 6) _ _ _
theorem a3_d (fn : BitVec 7) (b : BitVec 6) (a : BitVec 6) (d : BitVec 6) (m : BitVec 6) :
    BitVec.extractLsb' (n := 32) 7 6 (fn ++ b ++ a ++ d ++ m ++ 1#1) = d :=
  (field_high (w := 1) _ _ _ _ (by decide)).trans <| field_mid (w := 6) _ _ _
theorem a3_m (fn : BitVec 7) (b : BitVec 6) (a : BitVec 6) (d : BitVec 6) (m : BitVec 6) :
    BitVec.extractLsb' (n := 32) 1 6 (fn ++ b ++ a ++ d ++ m ++ 1#1) = m :=
  field_mid (w := 1) _ _ _

/-! The fields of an I13 word (R35). -/

theorem i13_imm (imm : BitVec 13) (a : BitVec 6) (d : BitVec 6) (m : BitVec 6) :
    BitVec.extractLsb' (n := 32) 19 13 (imm ++ a ++ d ++ m ++ 1#1) = imm :=
  (field_high (w := 1) _ _ _ _ (by decide)).trans <| (field_high (w := 6) _ _ _ _ (by decide)).trans <| (field_high (w := 6) _ _ _ _ (by decide)).trans <| field_top (w := 6) _ _
theorem i13_a (imm : BitVec 13) (a : BitVec 6) (d : BitVec 6) (m : BitVec 6) :
    BitVec.extractLsb' (n := 32) 13 6 (imm ++ a ++ d ++ m ++ 1#1) = a :=
  (field_high (w := 1) _ _ _ _ (by decide)).trans <| (field_high (w := 6) _ _ _ _ (by decide)).trans <| field_mid (w := 6) _ _ _
theorem i13_d (imm : BitVec 13) (a : BitVec 6) (d : BitVec 6) (m : BitVec 6) :
    BitVec.extractLsb' (n := 32) 7 6 (imm ++ a ++ d ++ m ++ 1#1) = d :=
  (field_high (w := 1) _ _ _ _ (by decide)).trans <| field_mid (w := 6) _ _ _
theorem i13_m (imm : BitVec 13) (a : BitVec 6) (d : BitVec 6) (m : BitVec 6) :
    BitVec.extractLsb' (n := 32) 1 6 (imm ++ a ++ d ++ m ++ 1#1) = m :=
  field_mid (w := 1) _ _ _

/-! The fields of an I19 or BR word (R35, R39). -/

theorem i19_imm (imm : BitVec 19) (d : BitVec 6) (m : BitVec 6) :
    BitVec.extractLsb' (n := 32) 13 19 (imm ++ d ++ m ++ 1#1) = imm :=
  (field_high (w := 1) _ _ _ _ (by decide)).trans <| (field_high (w := 6) _ _ _ _ (by decide)).trans <| field_top (w := 6) _ _
theorem i19_d (imm : BitVec 19) (d : BitVec 6) (m : BitVec 6) :
    BitVec.extractLsb' (n := 32) 7 6 (imm ++ d ++ m ++ 1#1) = d :=
  (field_high (w := 1) _ _ _ _ (by decide)).trans <| field_mid (w := 6) _ _ _
theorem i19_m (imm : BitVec 19) (d : BitVec 6) (m : BitVec 6) :
    BitVec.extractLsb' (n := 32) 1 6 (imm ++ d ++ m ++ 1#1) = m :=
  field_mid (w := 1) _ _ _

/-! The fields of a word with a 25-bit offset (R39). -/

theorem j25_off (off : BitVec 25) (m : BitVec 6) :
    BitVec.extractLsb' (n := 32) 7 25 (off ++ m ++ 1#1) = off :=
  (field_high (w := 1) _ _ _ _ (by decide)).trans <| field_top (w := 6) _ _
theorem j25_m (off : BitVec 25) (m : BitVec 6) :
    BitVec.extractLsb' (n := 32) 1 6 (off ++ m ++ 1#1) = m :=
  field_mid (w := 1) _ _ _

/-! The fields of an IX word (R36). -/

theorem ix_zero (k : BitVec 3) (idx : BitVec 9) (v : BitVec 6) (m : BitVec 6) :
    BitVec.extractLsb' (n := 32) 25 7 (0#7 ++ k ++ idx ++ v ++ m ++ 1#1) = 0#7 :=
  (field_high (w := 1) _ _ _ _ (by decide)).trans <| (field_high (w := 6) _ _ _ _ (by decide)).trans <| (field_high (w := 6) _ _ _ _ (by decide)).trans <| (field_high (w := 9) _ _ _ _ (by decide)).trans <| field_top (w := 3) _ _
theorem ix_k (k : BitVec 3) (idx : BitVec 9) (v : BitVec 6) (m : BitVec 6) :
    BitVec.extractLsb' (n := 32) 22 3 (0#7 ++ k ++ idx ++ v ++ m ++ 1#1) = k :=
  (field_high (w := 1) _ _ _ _ (by decide)).trans <| (field_high (w := 6) _ _ _ _ (by decide)).trans <| (field_high (w := 6) _ _ _ _ (by decide)).trans <| field_mid (w := 9) _ _ _
theorem ix_idx (k : BitVec 3) (idx : BitVec 9) (v : BitVec 6) (m : BitVec 6) :
    BitVec.extractLsb' (n := 32) 13 9 (0#7 ++ k ++ idx ++ v ++ m ++ 1#1) = idx :=
  (field_high (w := 1) _ _ _ _ (by decide)).trans <| (field_high (w := 6) _ _ _ _ (by decide)).trans <| field_mid (w := 6) _ _ _
theorem ix_v (k : BitVec 3) (idx : BitVec 9) (v : BitVec 6) (m : BitVec 6) :
    BitVec.extractLsb' (n := 32) 7 6 (0#7 ++ k ++ idx ++ v ++ m ++ 1#1) = v :=
  (field_high (w := 1) _ _ _ _ (by decide)).trans <| field_mid (w := 6) _ _ _
theorem ix_m (k : BitVec 3) (idx : BitVec 9) (v : BitVec 6) (m : BitVec 6) :
    BitVec.extractLsb' (n := 32) 1 6 (0#7 ++ k ++ idx ++ v ++ m ++ 1#1) = m :=
  field_mid (w := 1) _ _ _

/-! The fields of LD and ST (R37). -/

theorem mem_hint (hint : BitVec 2) (sp : BitVec 2) (sc : BitVec 4) (sem : BitVec 2) (size : BitVec 3) (a : BitVec 6) (v : BitVec 6) (m : BitVec 6) :
    BitVec.extractLsb' (n := 32) 30 2 (hint ++ sp ++ sc ++ sem ++ size ++ a ++ v ++ m ++ 1#1) = hint :=
  (field_high (w := 1) _ _ _ _ (by decide)).trans <| (field_high (w := 6) _ _ _ _ (by decide)).trans <| (field_high (w := 6) _ _ _ _ (by decide)).trans <| (field_high (w := 6) _ _ _ _ (by decide)).trans <| (field_high (w := 3) _ _ _ _ (by decide)).trans <| (field_high (w := 2) _ _ _ _ (by decide)).trans <| (field_high (w := 4) _ _ _ _ (by decide)).trans <| field_top (w := 2) _ _
theorem mem_sp (hint : BitVec 2) (sp : BitVec 2) (sc : BitVec 4) (sem : BitVec 2) (size : BitVec 3) (a : BitVec 6) (v : BitVec 6) (m : BitVec 6) :
    BitVec.extractLsb' (n := 32) 28 2 (hint ++ sp ++ sc ++ sem ++ size ++ a ++ v ++ m ++ 1#1) = sp :=
  (field_high (w := 1) _ _ _ _ (by decide)).trans <| (field_high (w := 6) _ _ _ _ (by decide)).trans <| (field_high (w := 6) _ _ _ _ (by decide)).trans <| (field_high (w := 6) _ _ _ _ (by decide)).trans <| (field_high (w := 3) _ _ _ _ (by decide)).trans <| (field_high (w := 2) _ _ _ _ (by decide)).trans <| field_mid (w := 4) _ _ _
theorem mem_sc (hint : BitVec 2) (sp : BitVec 2) (sc : BitVec 4) (sem : BitVec 2) (size : BitVec 3) (a : BitVec 6) (v : BitVec 6) (m : BitVec 6) :
    BitVec.extractLsb' (n := 32) 24 4 (hint ++ sp ++ sc ++ sem ++ size ++ a ++ v ++ m ++ 1#1) = sc :=
  (field_high (w := 1) _ _ _ _ (by decide)).trans <| (field_high (w := 6) _ _ _ _ (by decide)).trans <| (field_high (w := 6) _ _ _ _ (by decide)).trans <| (field_high (w := 6) _ _ _ _ (by decide)).trans <| (field_high (w := 3) _ _ _ _ (by decide)).trans <| field_mid (w := 2) _ _ _
theorem mem_sem (hint : BitVec 2) (sp : BitVec 2) (sc : BitVec 4) (sem : BitVec 2) (size : BitVec 3) (a : BitVec 6) (v : BitVec 6) (m : BitVec 6) :
    BitVec.extractLsb' (n := 32) 22 2 (hint ++ sp ++ sc ++ sem ++ size ++ a ++ v ++ m ++ 1#1) = sem :=
  (field_high (w := 1) _ _ _ _ (by decide)).trans <| (field_high (w := 6) _ _ _ _ (by decide)).trans <| (field_high (w := 6) _ _ _ _ (by decide)).trans <| (field_high (w := 6) _ _ _ _ (by decide)).trans <| field_mid (w := 3) _ _ _
theorem mem_size (hint : BitVec 2) (sp : BitVec 2) (sc : BitVec 4) (sem : BitVec 2) (size : BitVec 3) (a : BitVec 6) (v : BitVec 6) (m : BitVec 6) :
    BitVec.extractLsb' (n := 32) 19 3 (hint ++ sp ++ sc ++ sem ++ size ++ a ++ v ++ m ++ 1#1) = size :=
  (field_high (w := 1) _ _ _ _ (by decide)).trans <| (field_high (w := 6) _ _ _ _ (by decide)).trans <| (field_high (w := 6) _ _ _ _ (by decide)).trans <| field_mid (w := 6) _ _ _
theorem mem_a (hint : BitVec 2) (sp : BitVec 2) (sc : BitVec 4) (sem : BitVec 2) (size : BitVec 3) (a : BitVec 6) (v : BitVec 6) (m : BitVec 6) :
    BitVec.extractLsb' (n := 32) 13 6 (hint ++ sp ++ sc ++ sem ++ size ++ a ++ v ++ m ++ 1#1) = a :=
  (field_high (w := 1) _ _ _ _ (by decide)).trans <| (field_high (w := 6) _ _ _ _ (by decide)).trans <| field_mid (w := 6) _ _ _
theorem mem_v (hint : BitVec 2) (sp : BitVec 2) (sc : BitVec 4) (sem : BitVec 2) (size : BitVec 3) (a : BitVec 6) (v : BitVec 6) (m : BitVec 6) :
    BitVec.extractLsb' (n := 32) 7 6 (hint ++ sp ++ sc ++ sem ++ size ++ a ++ v ++ m ++ 1#1) = v :=
  (field_high (w := 1) _ _ _ _ (by decide)).trans <| field_mid (w := 6) _ _ _
theorem mem_m (hint : BitVec 2) (sp : BitVec 2) (sc : BitVec 4) (sem : BitVec 2) (size : BitVec 3) (a : BitVec 6) (v : BitVec 6) (m : BitVec 6) :
    BitVec.extractLsb' (n := 32) 1 6 (hint ++ sp ++ sc ++ sem ++ size ++ a ++ v ++ m ++ 1#1) = m :=
  field_mid (w := 1) _ _ _

/-! The fields of LDO, STO, LDS and STS (R37). -/

theorem mo_off (off : BitVec 10) (size : BitVec 3) (a : BitVec 6) (v : BitVec 6) (m : BitVec 6) :
    BitVec.extractLsb' (n := 32) 22 10 (off ++ size ++ a ++ v ++ m ++ 1#1) = off :=
  (field_high (w := 1) _ _ _ _ (by decide)).trans <| (field_high (w := 6) _ _ _ _ (by decide)).trans <| (field_high (w := 6) _ _ _ _ (by decide)).trans <| (field_high (w := 6) _ _ _ _ (by decide)).trans <| field_top (w := 3) _ _
theorem mo_size (off : BitVec 10) (size : BitVec 3) (a : BitVec 6) (v : BitVec 6) (m : BitVec 6) :
    BitVec.extractLsb' (n := 32) 19 3 (off ++ size ++ a ++ v ++ m ++ 1#1) = size :=
  (field_high (w := 1) _ _ _ _ (by decide)).trans <| (field_high (w := 6) _ _ _ _ (by decide)).trans <| (field_high (w := 6) _ _ _ _ (by decide)).trans <| field_mid (w := 6) _ _ _
theorem mo_a (off : BitVec 10) (size : BitVec 3) (a : BitVec 6) (v : BitVec 6) (m : BitVec 6) :
    BitVec.extractLsb' (n := 32) 13 6 (off ++ size ++ a ++ v ++ m ++ 1#1) = a :=
  (field_high (w := 1) _ _ _ _ (by decide)).trans <| (field_high (w := 6) _ _ _ _ (by decide)).trans <| field_mid (w := 6) _ _ _
theorem mo_v (off : BitVec 10) (size : BitVec 3) (a : BitVec 6) (v : BitVec 6) (m : BitVec 6) :
    BitVec.extractLsb' (n := 32) 7 6 (off ++ size ++ a ++ v ++ m ++ 1#1) = v :=
  (field_high (w := 1) _ _ _ _ (by decide)).trans <| field_mid (w := 6) _ _ _
theorem mo_m (off : BitVec 10) (size : BitVec 3) (a : BitVec 6) (v : BitVec 6) (m : BitVec 6) :
    BitVec.extractLsb' (n := 32) 1 6 (off ++ size ++ a ++ v ++ m ++ 1#1) = m :=
  field_mid (w := 1) _ _ _

/-! The fields of an atomic (R38). -/

theorem at_op (op : BitVec 4) (sc : BitVec 3) (b : BitVec 6) (a : BitVec 6) (d : BitVec 6) (m : BitVec 6) :
    BitVec.extractLsb' (n := 32) 28 4 (op ++ sc ++ b ++ a ++ d ++ m ++ 1#1) = op :=
  (field_high (w := 1) _ _ _ _ (by decide)).trans <| (field_high (w := 6) _ _ _ _ (by decide)).trans <| (field_high (w := 6) _ _ _ _ (by decide)).trans <| (field_high (w := 6) _ _ _ _ (by decide)).trans <| (field_high (w := 6) _ _ _ _ (by decide)).trans <| field_top (w := 3) _ _
theorem at_sc (op : BitVec 4) (sc : BitVec 3) (b : BitVec 6) (a : BitVec 6) (d : BitVec 6) (m : BitVec 6) :
    BitVec.extractLsb' (n := 32) 25 3 (op ++ sc ++ b ++ a ++ d ++ m ++ 1#1) = sc :=
  (field_high (w := 1) _ _ _ _ (by decide)).trans <| (field_high (w := 6) _ _ _ _ (by decide)).trans <| (field_high (w := 6) _ _ _ _ (by decide)).trans <| (field_high (w := 6) _ _ _ _ (by decide)).trans <| field_mid (w := 6) _ _ _
theorem at_b (op : BitVec 4) (sc : BitVec 3) (b : BitVec 6) (a : BitVec 6) (d : BitVec 6) (m : BitVec 6) :
    BitVec.extractLsb' (n := 32) 19 6 (op ++ sc ++ b ++ a ++ d ++ m ++ 1#1) = b :=
  (field_high (w := 1) _ _ _ _ (by decide)).trans <| (field_high (w := 6) _ _ _ _ (by decide)).trans <| (field_high (w := 6) _ _ _ _ (by decide)).trans <| field_mid (w := 6) _ _ _
theorem at_a (op : BitVec 4) (sc : BitVec 3) (b : BitVec 6) (a : BitVec 6) (d : BitVec 6) (m : BitVec 6) :
    BitVec.extractLsb' (n := 32) 13 6 (op ++ sc ++ b ++ a ++ d ++ m ++ 1#1) = a :=
  (field_high (w := 1) _ _ _ _ (by decide)).trans <| (field_high (w := 6) _ _ _ _ (by decide)).trans <| field_mid (w := 6) _ _ _
theorem at_d (op : BitVec 4) (sc : BitVec 3) (b : BitVec 6) (a : BitVec 6) (d : BitVec 6) (m : BitVec 6) :
    BitVec.extractLsb' (n := 32) 7 6 (op ++ sc ++ b ++ a ++ d ++ m ++ 1#1) = d :=
  (field_high (w := 1) _ _ _ _ (by decide)).trans <| field_mid (w := 6) _ _ _
theorem at_m (op : BitVec 4) (sc : BitVec 3) (b : BitVec 6) (a : BitVec 6) (d : BitVec 6) (m : BitVec 6) :
    BitVec.extractLsb' (n := 32) 1 6 (op ++ sc ++ b ++ a ++ d ++ m ++ 1#1) = m :=
  field_mid (w := 1) _ _ _

/-! The fields of FENCE (R34). -/

theorem fe_zero (dom : BitVec 2) (kind : BitVec 2) (sc : BitVec 4) (x : BitVec 6) (y : BitVec 6) (m : BitVec 6) :
    BitVec.extractLsb' (n := 32) 27 5 (0#5 ++ dom ++ kind ++ sc ++ x ++ y ++ m ++ 1#1) = 0#5 :=
  (field_high (w := 1) _ _ _ _ (by decide)).trans <| (field_high (w := 6) _ _ _ _ (by decide)).trans <| (field_high (w := 6) _ _ _ _ (by decide)).trans <| (field_high (w := 6) _ _ _ _ (by decide)).trans <| (field_high (w := 4) _ _ _ _ (by decide)).trans <| (field_high (w := 2) _ _ _ _ (by decide)).trans <| field_top (w := 2) _ _
theorem fe_dom (dom : BitVec 2) (kind : BitVec 2) (sc : BitVec 4) (x : BitVec 6) (y : BitVec 6) (m : BitVec 6) :
    BitVec.extractLsb' (n := 32) 25 2 (0#5 ++ dom ++ kind ++ sc ++ x ++ y ++ m ++ 1#1) = dom :=
  (field_high (w := 1) _ _ _ _ (by decide)).trans <| (field_high (w := 6) _ _ _ _ (by decide)).trans <| (field_high (w := 6) _ _ _ _ (by decide)).trans <| (field_high (w := 6) _ _ _ _ (by decide)).trans <| (field_high (w := 4) _ _ _ _ (by decide)).trans <| field_mid (w := 2) _ _ _
theorem fe_kind (dom : BitVec 2) (kind : BitVec 2) (sc : BitVec 4) (x : BitVec 6) (y : BitVec 6) (m : BitVec 6) :
    BitVec.extractLsb' (n := 32) 23 2 (0#5 ++ dom ++ kind ++ sc ++ x ++ y ++ m ++ 1#1) = kind :=
  (field_high (w := 1) _ _ _ _ (by decide)).trans <| (field_high (w := 6) _ _ _ _ (by decide)).trans <| (field_high (w := 6) _ _ _ _ (by decide)).trans <| (field_high (w := 6) _ _ _ _ (by decide)).trans <| field_mid (w := 4) _ _ _
theorem fe_sc (dom : BitVec 2) (kind : BitVec 2) (sc : BitVec 4) (x : BitVec 6) (y : BitVec 6) (m : BitVec 6) :
    BitVec.extractLsb' (n := 32) 19 4 (0#5 ++ dom ++ kind ++ sc ++ x ++ y ++ m ++ 1#1) = sc :=
  (field_high (w := 1) _ _ _ _ (by decide)).trans <| (field_high (w := 6) _ _ _ _ (by decide)).trans <| (field_high (w := 6) _ _ _ _ (by decide)).trans <| field_mid (w := 6) _ _ _
theorem fe_x (dom : BitVec 2) (kind : BitVec 2) (sc : BitVec 4) (x : BitVec 6) (y : BitVec 6) (m : BitVec 6) :
    BitVec.extractLsb' (n := 32) 13 6 (0#5 ++ dom ++ kind ++ sc ++ x ++ y ++ m ++ 1#1) = x :=
  (field_high (w := 1) _ _ _ _ (by decide)).trans <| (field_high (w := 6) _ _ _ _ (by decide)).trans <| field_mid (w := 6) _ _ _
theorem fe_y (dom : BitVec 2) (kind : BitVec 2) (sc : BitVec 4) (x : BitVec 6) (y : BitVec 6) (m : BitVec 6) :
    BitVec.extractLsb' (n := 32) 7 6 (0#5 ++ dom ++ kind ++ sc ++ x ++ y ++ m ++ 1#1) = y :=
  (field_high (w := 1) _ _ _ _ (by decide)).trans <| field_mid (w := 6) _ _ _
theorem fe_m (dom : BitVec 2) (kind : BitVec 2) (sc : BitVec 4) (x : BitVec 6) (y : BitVec 6) (m : BitVec 6) :
    BitVec.extractLsb' (n := 32) 1 6 (0#5 ++ dom ++ kind ++ sc ++ x ++ y ++ m ++ 1#1) = m :=
  field_mid (w := 1) _ _ _

/-! The fields of LCP (R40). -/

theorem lc_zero (o : BitVec 1) (slot : BitVec 6) (w : BitVec 1) (size : BitVec 2) (g : BitVec 6) (s : BitVec 6) (m : BitVec 6) :
    BitVec.extractLsb' (n := 32) 29 3 (0#3 ++ o ++ slot ++ w ++ size ++ g ++ s ++ m ++ 1#1) = 0#3 :=
  (field_high (w := 1) _ _ _ _ (by decide)).trans <| (field_high (w := 6) _ _ _ _ (by decide)).trans <| (field_high (w := 6) _ _ _ _ (by decide)).trans <| (field_high (w := 6) _ _ _ _ (by decide)).trans <| (field_high (w := 2) _ _ _ _ (by decide)).trans <| (field_high (w := 1) _ _ _ _ (by decide)).trans <| (field_high (w := 6) _ _ _ _ (by decide)).trans <| field_top (w := 1) _ _
theorem lc_o (o : BitVec 1) (slot : BitVec 6) (w : BitVec 1) (size : BitVec 2) (g : BitVec 6) (s : BitVec 6) (m : BitVec 6) :
    BitVec.extractLsb' (n := 32) 28 1 (0#3 ++ o ++ slot ++ w ++ size ++ g ++ s ++ m ++ 1#1) = o :=
  (field_high (w := 1) _ _ _ _ (by decide)).trans <| (field_high (w := 6) _ _ _ _ (by decide)).trans <| (field_high (w := 6) _ _ _ _ (by decide)).trans <| (field_high (w := 6) _ _ _ _ (by decide)).trans <| (field_high (w := 2) _ _ _ _ (by decide)).trans <| (field_high (w := 1) _ _ _ _ (by decide)).trans <| field_mid (w := 6) _ _ _
theorem lc_slot (o : BitVec 1) (slot : BitVec 6) (w : BitVec 1) (size : BitVec 2) (g : BitVec 6) (s : BitVec 6) (m : BitVec 6) :
    BitVec.extractLsb' (n := 32) 22 6 (0#3 ++ o ++ slot ++ w ++ size ++ g ++ s ++ m ++ 1#1) = slot :=
  (field_high (w := 1) _ _ _ _ (by decide)).trans <| (field_high (w := 6) _ _ _ _ (by decide)).trans <| (field_high (w := 6) _ _ _ _ (by decide)).trans <| (field_high (w := 6) _ _ _ _ (by decide)).trans <| (field_high (w := 2) _ _ _ _ (by decide)).trans <| field_mid (w := 1) _ _ _
theorem lc_w (o : BitVec 1) (slot : BitVec 6) (w : BitVec 1) (size : BitVec 2) (g : BitVec 6) (s : BitVec 6) (m : BitVec 6) :
    BitVec.extractLsb' (n := 32) 21 1 (0#3 ++ o ++ slot ++ w ++ size ++ g ++ s ++ m ++ 1#1) = w :=
  (field_high (w := 1) _ _ _ _ (by decide)).trans <| (field_high (w := 6) _ _ _ _ (by decide)).trans <| (field_high (w := 6) _ _ _ _ (by decide)).trans <| (field_high (w := 6) _ _ _ _ (by decide)).trans <| field_mid (w := 2) _ _ _
theorem lc_size (o : BitVec 1) (slot : BitVec 6) (w : BitVec 1) (size : BitVec 2) (g : BitVec 6) (s : BitVec 6) (m : BitVec 6) :
    BitVec.extractLsb' (n := 32) 19 2 (0#3 ++ o ++ slot ++ w ++ size ++ g ++ s ++ m ++ 1#1) = size :=
  (field_high (w := 1) _ _ _ _ (by decide)).trans <| (field_high (w := 6) _ _ _ _ (by decide)).trans <| (field_high (w := 6) _ _ _ _ (by decide)).trans <| field_mid (w := 6) _ _ _
theorem lc_g (o : BitVec 1) (slot : BitVec 6) (w : BitVec 1) (size : BitVec 2) (g : BitVec 6) (s : BitVec 6) (m : BitVec 6) :
    BitVec.extractLsb' (n := 32) 13 6 (0#3 ++ o ++ slot ++ w ++ size ++ g ++ s ++ m ++ 1#1) = g :=
  (field_high (w := 1) _ _ _ _ (by decide)).trans <| (field_high (w := 6) _ _ _ _ (by decide)).trans <| field_mid (w := 6) _ _ _
theorem lc_s (o : BitVec 1) (slot : BitVec 6) (w : BitVec 1) (size : BitVec 2) (g : BitVec 6) (s : BitVec 6) (m : BitVec 6) :
    BitVec.extractLsb' (n := 32) 7 6 (0#3 ++ o ++ slot ++ w ++ size ++ g ++ s ++ m ++ 1#1) = s :=
  (field_high (w := 1) _ _ _ _ (by decide)).trans <| field_mid (w := 6) _ _ _
theorem lc_m (o : BitVec 1) (slot : BitVec 6) (w : BitVec 1) (size : BitVec 2) (g : BitVec 6) (s : BitVec 6) (m : BitVec 6) :
    BitVec.extractLsb' (n := 32) 1 6 (0#3 ++ o ++ slot ++ w ++ size ++ g ++ s ++ m ++ 1#1) = m :=
  field_mid (w := 1) _ _ _

/-! The fields of the prefix (R41). -/

theorem pf_zero (ftz : BitVec 1) (sat : BitVec 1) (rnd : BitVec 3) (zm : BitVec 1) (mask : BitVec 6) (fourth : BitVec 6) (m : BitVec 6) :
    BitVec.extractLsb' (n := 32) 25 7 (0#7 ++ ftz ++ sat ++ rnd ++ zm ++ mask ++ fourth ++ m ++ 1#1) = 0#7 :=
  (field_high (w := 1) _ _ _ _ (by decide)).trans <| (field_high (w := 6) _ _ _ _ (by decide)).trans <| (field_high (w := 6) _ _ _ _ (by decide)).trans <| (field_high (w := 6) _ _ _ _ (by decide)).trans <| (field_high (w := 1) _ _ _ _ (by decide)).trans <| (field_high (w := 3) _ _ _ _ (by decide)).trans <| (field_high (w := 1) _ _ _ _ (by decide)).trans <| field_top (w := 1) _ _
theorem pf_ftz (ftz : BitVec 1) (sat : BitVec 1) (rnd : BitVec 3) (zm : BitVec 1) (mask : BitVec 6) (fourth : BitVec 6) (m : BitVec 6) :
    BitVec.extractLsb' (n := 32) 24 1 (0#7 ++ ftz ++ sat ++ rnd ++ zm ++ mask ++ fourth ++ m ++ 1#1) = ftz :=
  (field_high (w := 1) _ _ _ _ (by decide)).trans <| (field_high (w := 6) _ _ _ _ (by decide)).trans <| (field_high (w := 6) _ _ _ _ (by decide)).trans <| (field_high (w := 6) _ _ _ _ (by decide)).trans <| (field_high (w := 1) _ _ _ _ (by decide)).trans <| (field_high (w := 3) _ _ _ _ (by decide)).trans <| field_mid (w := 1) _ _ _
theorem pf_sat (ftz : BitVec 1) (sat : BitVec 1) (rnd : BitVec 3) (zm : BitVec 1) (mask : BitVec 6) (fourth : BitVec 6) (m : BitVec 6) :
    BitVec.extractLsb' (n := 32) 23 1 (0#7 ++ ftz ++ sat ++ rnd ++ zm ++ mask ++ fourth ++ m ++ 1#1) = sat :=
  (field_high (w := 1) _ _ _ _ (by decide)).trans <| (field_high (w := 6) _ _ _ _ (by decide)).trans <| (field_high (w := 6) _ _ _ _ (by decide)).trans <| (field_high (w := 6) _ _ _ _ (by decide)).trans <| (field_high (w := 1) _ _ _ _ (by decide)).trans <| field_mid (w := 3) _ _ _
theorem pf_rnd (ftz : BitVec 1) (sat : BitVec 1) (rnd : BitVec 3) (zm : BitVec 1) (mask : BitVec 6) (fourth : BitVec 6) (m : BitVec 6) :
    BitVec.extractLsb' (n := 32) 20 3 (0#7 ++ ftz ++ sat ++ rnd ++ zm ++ mask ++ fourth ++ m ++ 1#1) = rnd :=
  (field_high (w := 1) _ _ _ _ (by decide)).trans <| (field_high (w := 6) _ _ _ _ (by decide)).trans <| (field_high (w := 6) _ _ _ _ (by decide)).trans <| (field_high (w := 6) _ _ _ _ (by decide)).trans <| field_mid (w := 1) _ _ _
theorem pf_zm (ftz : BitVec 1) (sat : BitVec 1) (rnd : BitVec 3) (zm : BitVec 1) (mask : BitVec 6) (fourth : BitVec 6) (m : BitVec 6) :
    BitVec.extractLsb' (n := 32) 19 1 (0#7 ++ ftz ++ sat ++ rnd ++ zm ++ mask ++ fourth ++ m ++ 1#1) = zm :=
  (field_high (w := 1) _ _ _ _ (by decide)).trans <| (field_high (w := 6) _ _ _ _ (by decide)).trans <| (field_high (w := 6) _ _ _ _ (by decide)).trans <| field_mid (w := 6) _ _ _
theorem pf_mask (ftz : BitVec 1) (sat : BitVec 1) (rnd : BitVec 3) (zm : BitVec 1) (mask : BitVec 6) (fourth : BitVec 6) (m : BitVec 6) :
    BitVec.extractLsb' (n := 32) 13 6 (0#7 ++ ftz ++ sat ++ rnd ++ zm ++ mask ++ fourth ++ m ++ 1#1) = mask :=
  (field_high (w := 1) _ _ _ _ (by decide)).trans <| (field_high (w := 6) _ _ _ _ (by decide)).trans <| field_mid (w := 6) _ _ _
theorem pf_fourth (ftz : BitVec 1) (sat : BitVec 1) (rnd : BitVec 3) (zm : BitVec 1) (mask : BitVec 6) (fourth : BitVec 6) (m : BitVec 6) :
    BitVec.extractLsb' (n := 32) 7 6 (0#7 ++ ftz ++ sat ++ rnd ++ zm ++ mask ++ fourth ++ m ++ 1#1) = fourth :=
  (field_high (w := 1) _ _ _ _ (by decide)).trans <| field_mid (w := 6) _ _ _
theorem pf_m (ftz : BitVec 1) (sat : BitVec 1) (rnd : BitVec 3) (zm : BitVec 1) (mask : BitVec 6) (fourth : BitVec 6) (m : BitVec 6) :
    BitVec.extractLsb' (n := 32) 1 6 (0#7 ++ ftz ++ sat ++ rnd ++ zm ++ mask ++ fourth ++ m ++ 1#1) = m :=
  field_mid (w := 1) _ _ _

/-! The fields of a SYS word (R429). -/

theorem sys_fn (fn : BitVec 13) (b : BitVec 6) (a : BitVec 6) (m : BitVec 6) :
    BitVec.extractLsb' (n := 32) 19 13 (fn ++ b ++ a ++ m ++ 1#1) = fn :=
  (field_high (w := 1) _ _ _ _ (by decide)).trans <| (field_high (w := 6) _ _ _ _ (by decide)).trans <| (field_high (w := 6) _ _ _ _ (by decide)).trans <| field_top (w := 6) _ _
theorem sys_b (fn : BitVec 13) (b : BitVec 6) (a : BitVec 6) (m : BitVec 6) :
    BitVec.extractLsb' (n := 32) 13 6 (fn ++ b ++ a ++ m ++ 1#1) = b :=
  (field_high (w := 1) _ _ _ _ (by decide)).trans <| (field_high (w := 6) _ _ _ _ (by decide)).trans <| field_mid (w := 6) _ _ _
theorem sys_a (fn : BitVec 13) (b : BitVec 6) (a : BitVec 6) (m : BitVec 6) :
    BitVec.extractLsb' (n := 32) 7 6 (fn ++ b ++ a ++ m ++ 1#1) = a :=
  (field_high (w := 1) _ _ _ _ (by decide)).trans <| field_mid (w := 6) _ _ _
theorem sys_m (fn : BitVec 13) (b : BitVec 6) (a : BitVec 6) (m : BitVec 6) :
    BitVec.extractLsb' (n := 32) 1 6 (fn ++ b ++ a ++ m ++ 1#1) = m :=
  field_mid (w := 1) _ _ _

/-! The fields of a compact halfword (R30). -/

theorem ch_s (s : BitVec 5) (d : BitVec 6) (op : BitVec 4) :
    BitVec.extractLsb' (n := 16) 11 5 (s ++ d ++ op ++ 0#1) = s :=
  (field_high (w := 1) _ _ _ _ (by decide)).trans <| (field_high (w := 4) _ _ _ _ (by decide)).trans <| field_top (w := 6) _ _
theorem ch_d (s : BitVec 5) (d : BitVec 6) (op : BitVec 4) :
    BitVec.extractLsb' (n := 16) 5 6 (s ++ d ++ op ++ 0#1) = d :=
  (field_high (w := 1) _ _ _ _ (by decide)).trans <| field_mid (w := 4) _ _ _
theorem ch_op (s : BitVec 5) (d : BitVec 6) (op : BitVec 4) :
    BitVec.extractLsb' (n := 16) 1 4 (s ++ d ++ op ++ 0#1) = op :=
  field_mid (w := 1) _ _ _

/-! The fields of the immediates of SHI and ISETI (R35), and of a KLN function with its hints (R313). -/

theorem shi_high (x : BitVec 6) (k : BitVec 2) (n : BitVec 5) : BitVec.extractLsb' (n := 13) 7 6 (x ++ k ++ n) = x :=
  (field_high (w := 5) _ _ _ _ (by decide)).trans (field_top (w := 2) _ _)
theorem shi_kind (x : BitVec 6) (k : BitVec 2) (n : BitVec 5) : BitVec.extractLsb' (n := 13) 5 2 (x ++ k ++ n) = k := field_mid _ _ _
theorem shi_n (x : BitVec 6) (k : BitVec 2) (n : BitVec 5) : BitVec.extractLsb' (n := 13) 0 5 (x ++ k ++ n) = n :=
  (field_low (w := 5) _ _ _ _ (by decide)).trans (by simp)
theorem iseti_cond (k : BitVec 3) (n : BitVec 10) : BitVec.extractLsb' (n := 13) 10 3 (k ++ n) = k := field_top (w := 10) _ _
theorem iseti_n (k : BitVec 3) (n : BitVec 10) : BitVec.extractLsb' (n := 13) 0 10 (k ++ n) = n :=
  (field_low (w := 10) _ _ _ _ (by decide)).trans (by simp)
theorem kln_fn (rb ra : Bool) (fn : BitVec 5) : BitVec.extractLsb' (n := 7) 0 5 (bit rb ++ bit ra ++ fn) = fn :=
  (field_low (w := 5) _ _ _ _ (by decide)).trans (by simp)
theorem kln_ra (rb ra : Bool) (fn : BitVec 5) : BitVec.getLsbD (w := 7) (bit rb ++ bit ra ++ fn) 5 = ra := by
  revert rb ra fn; decide
theorem kln_rb (rb ra : Bool) (fn : BitVec 5) : BitVec.getLsbD (w := 7) (bit rb ++ bit ra ++ fn) 6 = rb := by
  revert rb ra fn; decide

/-- One bit of a word as a field. -/
theorem bit_field {n : Nat} (x : BitVec n) (i : Nat) (p : Bool) (h : x.extractLsb' i 1 = bit p) : x.getLsbD i = p := by
  have h1 : (x.extractLsb' i 1).getLsbD 0 = (bit p).getLsbD 0 := by rw [h]
  simpa [bit] using h1

/-- A compact halfword with an operation or operands is not NOP16 (R32). -/
theorem half_ne_zero (h : BitVec 16) (lo len : Nat) (f : BitVec len) (hf : h.extractLsb' lo len = f) (hn : f ≠ 0) : (h == 0) = false := by
  rw [beq_eq_false_iff_ne]
  rintro rfl
  exact hn (by rw [← hf]; simp)

/-! Words by their major (R45): the decoder of the major gets the fields. -/

theorem word_int (fn : BitVec 7) (b a d : BitVec 6) : decodeWord (fn ++ b ++ a ++ d ++ 1#6 ++ 1#1) = decodeInt fn.toNat d a b := by
  unfold decodeWord; rw [a3_m, a3_d, a3_a, a3_b, a3_fn]; rfl
theorem word_flt (fn : BitVec 7) (b a d : BitVec 6) : decodeWord (fn ++ b ++ a ++ d ++ 2#6 ++ 1#1) = decodeFlt fn.toNat d a b := by
  unfold decodeWord; rw [a3_m, a3_d, a3_a, a3_b, a3_fn]; rfl
theorem word_hpk (fn : BitVec 7) (b a d : BitVec 6) : decodeWord (fn ++ b ++ a ++ d ++ 3#6 ++ 1#1) = decodeHpk fn.toNat d a b := by
  unfold decodeWord; rw [a3_m, a3_d, a3_a, a3_b, a3_fn]; rfl
theorem word_sfu (fn : BitVec 7) (b a d : BitVec 6) : decodeWord (fn ++ b ++ a ++ d ++ 4#6 ++ 1#1) = decodeSfu fn.toNat d a b := by
  unfold decodeWord; rw [a3_m, a3_d, a3_a, a3_b, a3_fn]; rfl
theorem word_xln (fn : BitVec 7) (b a d : BitVec 6) : decodeWord (fn ++ b ++ a ++ d ++ 5#6 ++ 1#1) = decodeXln fn.toNat d a b := by
  unfold decodeWord; rw [a3_m, a3_d, a3_a, a3_b, a3_fn]; rfl
theorem word_memx (fn : BitVec 7) (b a d : BitVec 6) : decodeWord (fn ++ b ++ a ++ d ++ 28#6 ++ 1#1) = decodeMemx fn.toNat d a b := by
  unfold decodeWord; rw [a3_m, a3_d, a3_a, a3_b, a3_fn]; rfl
theorem word_tsync (fn : BitVec 7) (b a d : BitVec 6) : decodeWord (fn ++ b ++ a ++ d ++ 30#6 ++ 1#1) = decodeTsync fn.toNat d a b := by
  unfold decodeWord; rw [a3_m, a3_d, a3_a, a3_b, a3_fn]; rfl
theorem word_strm (fn : BitVec 7) (b a d : BitVec 6) : decodeWord (fn ++ b ++ a ++ d ++ 31#6 ++ 1#1) = decodeStrm fn.toNat d a b := by
  unfold decodeWord; rw [a3_m, a3_d, a3_a, a3_b, a3_fn]; rfl
theorem word_kln (fn : BitVec 7) (b a d : BitVec 6) : decodeWord (fn ++ b ++ a ++ d ++ 32#6 ++ 1#1) = decodeKln fn d a b := by
  unfold decodeWord; rw [a3_m, a3_d, a3_a, a3_b, a3_fn]; rfl
theorem word_task (fn : BitVec 7) (b a d : BitVec 6) : decodeWord (fn ++ b ++ a ++ d ++ 33#6 ++ 1#1) = decodeTask fn.toNat d a b := by
  unfold decodeWord; rw [a3_m, a3_d, a3_a, a3_b, a3_fn]; rfl
theorem word_krn (fn : BitVec 7) (b a d : BitVec 6) : decodeWord (fn ++ b ++ a ++ d ++ 34#6 ++ 1#1) = decodeKrn fn.toNat d a b := by
  unfold decodeWord; rw [a3_m, a3_d, a3_a, a3_b, a3_fn]; rfl
theorem word_bar (fn : BitVec 7) (b a d : BitVec 6) : decodeWord (fn ++ b ++ a ++ d ++ 35#6 ++ 1#1) = decodeBar fn.toNat d a b := by
  unfold decodeWord; rw [a3_m, a3_d, a3_a, a3_b, a3_fn]; rfl
theorem word_ctl (fn : BitVec 7) (b a d : BitVec 6) : decodeWord (fn ++ b ++ a ++ d ++ 40#6 ++ 1#1) = decodeCtl fn.toNat d a b := by
  unfold decodeWord; rw [a3_m, a3_d, a3_a, a3_b, a3_fn]; rfl
theorem word_sys (fn : BitVec 13) (b a : BitVec 6) : decodeWord (fn ++ b ++ a ++ 41#6 ++ 1#1) = privFirst (decodeSys fn.toNat b a) := by
  unfold decodeWord; rw [sys_m, sys_a, sys_b, sys_fn]; rfl
theorem word_iaddi (imm : BitVec 13) (a d : BitVec 6) : decodeWord (imm ++ a ++ d ++ 6#6 ++ 1#1) = do
    let d ← wrOpd d
    let a ← rdOpd a
    return .iaddi d a imm := by
  unfold decodeWord decodeI13; rw [i13_m, i13_d, i13_a, i13_imm]; rfl
theorem word_andi (imm : BitVec 13) (a d : BitVec 6) : decodeWord (imm ++ a ++ d ++ 7#6 ++ 1#1) = do
    let d ← wrOpd d
    let a ← rdOpd a
    return .andi d a imm := by
  unfold decodeWord decodeI13; rw [i13_m, i13_d, i13_a, i13_imm]; rfl
theorem word_ori (imm : BitVec 13) (a d : BitVec 6) : decodeWord (imm ++ a ++ d ++ 8#6 ++ 1#1) = do
    let d ← wrOpd d
    let a ← rdOpd a
    return .ori d a imm := by
  unfold decodeWord decodeI13; rw [i13_m, i13_d, i13_a, i13_imm]; rfl
theorem word_xori (imm : BitVec 13) (a d : BitVec 6) : decodeWord (imm ++ a ++ d ++ 9#6 ++ 1#1) = do
    let d ← wrOpd d
    let a ← rdOpd a
    return .xori d a imm := by
  unfold decodeWord decodeI13; rw [i13_m, i13_d, i13_a, i13_imm]; rfl
theorem word_shi (imm : BitVec 13) (a d : BitVec 6) : decodeWord (imm ++ a ++ d ++ 10#6 ++ 1#1) = decodeShi imm a d := by
  unfold decodeWord; rw [i13_m, i13_d, i13_a, i13_imm]; rfl
theorem word_iseti (imm : BitVec 13) (a d : BitVec 6) : decodeWord (imm ++ a ++ d ++ 11#6 ++ 1#1) = decodeIseti imm a d := by
  unfold decodeWord; rw [i13_m, i13_d, i13_a, i13_imm]; rfl
theorem word_movi (imm : BitVec 19) (d : BitVec 6) : decodeWord (imm ++ d ++ 12#6 ++ 1#1) = do
    let d ← wrOpd d
    return .movi d imm := by
  unfold decodeWord decodeI19; rw [i19_m, i19_d, i19_imm]; rfl
theorem word_movhi (imm : BitVec 19) (d : BitVec 6) : decodeWord (imm ++ d ++ 13#6 ++ 1#1) = do
    let d ← wrOpd d
    return .movhi d imm := by
  unfold decodeWord decodeI19; rw [i19_m, i19_d, i19_imm]; rfl
theorem word_ldl (imm : BitVec 19) (d : BitVec 6) : decodeWord (imm ++ d ++ 14#6 ++ 1#1) = do
    let d ← wrOpd d
    return .ldl d imm := by
  unfold decodeWord decodeI19; rw [i19_m, i19_d, i19_imm]; rfl
theorem word_bz (imm : BitVec 19) (d : BitVec 6) : decodeWord (imm ++ d ++ 36#6 ++ 1#1) = do
    let c ← rdOpd d
    return .bz c imm := by
  unfold decodeWord; rw [i19_m, i19_d, i19_imm]; rfl
theorem word_bnz (imm : BitVec 19) (d : BitVec 6) : decodeWord (imm ++ d ++ 37#6 ++ 1#1) = do
    let c ← rdOpd d
    return .bnz c imm := by
  unfold decodeWord; rw [i19_m, i19_d, i19_imm]; rfl
theorem word_region (imm : BitVec 19) : decodeWord (imm ++ 0#6 ++ 15#6 ++ 1#1) = .ok (.region imm) := by
  unfold decodeWord; rw [i19_m, i19_d, i19_imm]; rfl
theorem word_bra (off : BitVec 25) : decodeWord (off ++ 38#6 ++ 1#1) = .ok (.bra off) := by
  unfold decodeWord; rw [j25_m, j25_off]; rfl
theorem word_call (off : BitVec 25) : decodeWord (off ++ 39#6 ++ 1#1) = .ok (.call off) := by
  unfold decodeWord; rw [j25_m, j25_off]; rfl
theorem word_ix (k : BitVec 3) (idx : BitVec 9) (v : BitVec 6) : decodeWord (0#7 ++ k ++ idx ++ v ++ 16#6 ++ 1#1) = decodeIx k.toNat idx v := by
  unfold decodeWord; rw [ix_m, ix_zero, ix_k, ix_idx, ix_v]; rfl
theorem word_ld (hint sp : BitVec 2) (sc : BitVec 4) (sem : BitVec 2) (size : BitVec 3) (a v : BitVec 6) :
    decodeWord (hint ++ sp ++ sc ++ sem ++ size ++ a ++ v ++ 17#6 ++ 1#1) = decodeMem true hint sp sc sem size a v := by
  unfold decodeWord; rw [mem_m, mem_hint, mem_sp, mem_sc, mem_sem, mem_size, mem_a, mem_v]; rfl
theorem word_st (hint sp : BitVec 2) (sc : BitVec 4) (sem : BitVec 2) (size : BitVec 3) (a v : BitVec 6) :
    decodeWord (hint ++ sp ++ sc ++ sem ++ size ++ a ++ v ++ 18#6 ++ 1#1) = decodeMem false hint sp sc sem size a v := by
  unfold decodeWord; rw [mem_m, mem_hint, mem_sp, mem_sc, mem_sem, mem_size, mem_a, mem_v]; rfl
theorem word_ldo (off : BitVec 10) (size : BitVec 3) (a v : BitVec 6) :
    decodeWord (off ++ size ++ a ++ v ++ 19#6 ++ 1#1) = decodeMo 19 off size a v := by
  unfold decodeWord; rw [mo_m, mo_off, mo_size, mo_a, mo_v]; rfl
theorem word_sto (off : BitVec 10) (size : BitVec 3) (a v : BitVec 6) :
    decodeWord (off ++ size ++ a ++ v ++ 20#6 ++ 1#1) = decodeMo 20 off size a v := by
  unfold decodeWord; rw [mo_m, mo_off, mo_size, mo_a, mo_v]; rfl
theorem word_lds (off : BitVec 10) (size : BitVec 3) (a v : BitVec 6) :
    decodeWord (off ++ size ++ a ++ v ++ 21#6 ++ 1#1) = decodeMo 21 off size a v := by
  unfold decodeWord; rw [mo_m, mo_off, mo_size, mo_a, mo_v]; rfl
theorem word_sts (off : BitVec 10) (size : BitVec 3) (a v : BitVec 6) :
    decodeWord (off ++ size ++ a ++ v ++ 22#6 ++ 1#1) = decodeMo 22 off size a v := by
  unfold decodeWord; rw [mo_m, mo_off, mo_size, mo_a, mo_v]; rfl
theorem word_atom (op : BitVec 4) (sc : BitVec 3) (b a d : BitVec 6) : decodeWord (op ++ sc ++ b ++ a ++ d ++ 23#6 ++ 1#1) = do
    let d ← wrOpd d
    let a ← pairOpd a
    let b ← rdOpd b
    return .atom d a b (AtomOp.ofCode op) (AScope.ofCode sc) := by
  unfold decodeWord decodeAtom; rw [at_m, at_op, at_sc, at_b, at_a, at_d]; rfl
theorem word_atoma (op : BitVec 4) (sc : BitVec 3) (b a d : BitVec 6) : decodeWord (op ++ sc ++ b ++ a ++ d ++ 24#6 ++ 1#1) = do
    let d ← wrOpd d
    let a ← pairOpd a
    let b ← rdOpd b
    return .atoma d a b (AtomOp.ofCode op) (AScope.ofCode sc) := by
  unfold decodeWord decodeAtom; rw [at_m, at_op, at_sc, at_b, at_a, at_d]; rfl
theorem word_atoml (op : BitVec 4) (sc : BitVec 3) (b a d : BitVec 6) : decodeWord (op ++ sc ++ b ++ a ++ d ++ 25#6 ++ 1#1) = do
    let d ← wrOpd d
    let a ← pairOpd a
    let b ← rdOpd b
    return .atoml d a b (AtomOp.ofCode op) (AScope.ofCode sc) := by
  unfold decodeWord decodeAtom; rw [at_m, at_op, at_sc, at_b, at_a, at_d]; rfl
theorem word_atomal (op : BitVec 4) (sc : BitVec 3) (b a d : BitVec 6) : decodeWord (op ++ sc ++ b ++ a ++ d ++ 26#6 ++ 1#1) = do
    let d ← wrOpd d
    let a ← pairOpd a
    let b ← rdOpd b
    return .atomal d a b (AtomOp.ofCode op) (AScope.ofCode sc) := by
  unfold decodeWord decodeAtom; rw [at_m, at_op, at_sc, at_b, at_a, at_d]; rfl

/-! Operands that read back, one after another. -/

theorem ok1 {p : Opd → Bool} (k : Opd → Instr) {d : Opd} (hd : p d = true) :
    (do let d ← opdWith p d.code; return k d : Except Reject Instr) = .ok (k d) := by
  rw [opdWith_code hd]; rfl
theorem ok2 {p q : Opd → Bool} (k : Opd → Opd → Instr) {d a : Opd} (hd : p d = true) (ha : q a = true) :
    (do let d ← opdWith p d.code; let a ← opdWith q a.code; return k d a : Except Reject Instr) = .ok (k d a) := by
  rw [opdWith_code hd, opdWith_code ha]; rfl
theorem ok3 {p q r : Opd → Bool} (k : Opd → Opd → Opd → Instr) {d a b : Opd} (hd : p d = true) (ha : q a = true) (hb : r b = true) :
    (do let d ← opdWith p d.code; let a ← opdWith q a.code; let b ← opdWith r b.code; return k d a b : Except Reject Instr) = .ok (k d a b) := by
  rw [opdWith_code hd, opdWith_code ha, opdWith_code hb]; rfl
theorem okPriv {k : Except Reject Instr} {i : Instr} (h : k = .ok i) : privFirst k = .ok i := by rw [h]; rfl

/-- Zero fields side by side. -/
theorem zero_zero {n : Nat} (y : BitVec n) : (y ++ 0#6 ++ 0#6).extractLsb' 0 12 = 0#12 := by
  ext i hi
  simp only [BitVec.getElem_extractLsb', BitVec.getLsbD_append, BitVec.getLsbD_zero, BitVec.getElem_zero, Nat.zero_add]
  split
  · rfl
  · rw [if_pos (by omega)]

/-- The zero fields of FENCE below its scope. -/
theorem fence_low (x : BitVec 5) (dom kind : BitVec 2) (sc : BitVec 4) :
    BitVec.extractLsb' (n := 32) 7 12 (x ++ dom ++ kind ++ sc ++ 0#6 ++ 0#6 ++ 27#6 ++ 1#1) = 0#12 :=
  (field_high (w := 1) _ _ _ _ (by decide)).trans <| (field_high (w := 6) _ _ _ _ (by decide)).trans (zero_zero _)

end Sys2Proof.Laws
end

