-- ==== Sys2Proof/Laws/PerInstr.lean ====
section
/-! SUPPORT. The family RoundTrip: for each instruction, the decoder reads a well-formed instruction back from its own words
(R25 to R48). -/

set_option Elab.async false

/-- What the family says of an instruction: where it is well-formed, decoding its word gives it. -/
def Sys2Proof.Laws.RoundTrip.Statement (i : Sys2Proof.Instr) : Prop :=
  Sys2Proof.WellFormed i = true → ∀ c, Sys2Proof.encode i = some c → Sys2Proof.decode1 c = .ok i

namespace Sys2Proof.Laws
open RoundTrip

/-- A step of another agent has no words. -/
theorem RoundTrip.step_of_agent {i : Instr} (h : encode i = none) : RoundTrip.Statement i := fun _ c hc => by simp [h] at hc

/-- An instruction of 32 bits, from the decoding of its word. -/
theorem RoundTrip.of_word {i : Instr} {w : BitVec 32} (h : encode i = some (.word w)) (hd : WellFormed i = true → decodeWord w = .ok i) :
    RoundTrip.Statement i := by
  intro hw c hc
  rw [h] at hc
  obtain rfl := Option.some.inj hc
  exact hd hw

/-- A compact instruction, from its operation. -/
theorem RoundTrip.of_half {i : Instr} {s : BitVec 5} {d : Opd} {op : BitVec 4} (h : encode i = c16 s d.code op)
    (hz : s ++ d.code ++ op ++ 0#1 ≠ (0 : BitVec 16)) (hw : WellFormed i = true → d.writable = true)
    (hi : (match op.toNat with
      | 0 => Instr.movC16 d s | 1 => .iaddC16 d s | 2 => .isubC16 d s | 3 => .imulC16 d s | 4 => .andC16 d s | 5 => .orC16 d s
      | 6 => .xorC16 d s | 7 => .shlC16 d s | 8 => .shrlC16 d s | 9 => .shraC16 d s | 10 => .faddC16 d s | 11 => .fmulC16 d s
      | 12 => .fmaxC16 d s | 13 => .fminC16 d s | 14 => .isetltC16 d s | _ => .not d s) = i) : RoundTrip.Statement i := by
  intro h1 c hc
  rw [h] at hc
  obtain rfl := Option.some.inj hc
  subst hi
  show decodeHalf _ = _
  unfold decodeHalf
  rw [if_neg (by simpa using hz), ch_s, ch_d, ch_op]
  show (wrOpd d.code >>= _) = _
  rw [show wrOpd d.code = .ok d from opdWith_code (hw h1)]
  clear h hz hw h1
  have : ∀ o : BitVec 4, o = 0 ∨ o = 1 ∨ o = 2 ∨ o = 3 ∨ o = 4 ∨ o = 5 ∨ o = 6 ∨ o = 7 ∨ o = 8 ∨ o = 9 ∨ o = 10 ∨ o = 11 ∨ o = 12 ∨ o = 13 ∨ o = 14 ∨ o = 15 := by decide
  rcases this op with h | h | h | h | h | h | h | h | h | h | h | h | h | h | h | h <;> subst h <;> rfl

theorem RoundTrip.nop16 : Statement (.nop16) := by
  intro _ c hc
  obtain rfl := Option.some.inj hc
  rfl
theorem RoundTrip.movC16 (d : Opd) (s : BitVec 5) : Statement (.movC16 d s) := by
  intro h c hc
  refine of_half (i := .movC16 d s) (s := s) (d := d) (op := 0) rfl ?_ (fun _ => (Bool.and_eq_true_iff.mp h).1) rfl h c hc
  intro hz
  have hs : s = 0 := (ch_s s d.code 0).symm.trans (congrArg (BitVec.extractLsb' (n := 16) 11 5) hz)
  have hd : d.code = 0 := (ch_d s d.code 0).symm.trans (congrArg (BitVec.extractLsb' (n := 16) 5 6) hz)
  have hb : d = .b 0 := Option.some.inj ((ofCode_code d).symm.trans (by rw [hd]; rfl))
  simp [WellFormed, hs, hb] at h
theorem RoundTrip.iaddC16 (d : Opd) (s : BitVec 5) : Statement (.iaddC16 d s) := by
  refine of_half rfl ?_ (fun h => h) rfl
  intro hz
  exact absurd ((ch_op s d.code 1#4).symm.trans (congrArg (BitVec.extractLsb' (n := 16) 1 4) hz)) (by decide)
theorem RoundTrip.isubC16 (d : Opd) (s : BitVec 5) : Statement (.isubC16 d s) := by
  refine of_half rfl ?_ (fun h => h) rfl
  intro hz
  exact absurd ((ch_op s d.code 2#4).symm.trans (congrArg (BitVec.extractLsb' (n := 16) 1 4) hz)) (by decide)
theorem RoundTrip.imulC16 (d : Opd) (s : BitVec 5) : Statement (.imulC16 d s) := by
  refine of_half rfl ?_ (fun h => h) rfl
  intro hz
  exact absurd ((ch_op s d.code 3#4).symm.trans (congrArg (BitVec.extractLsb' (n := 16) 1 4) hz)) (by decide)
theorem RoundTrip.andC16 (d : Opd) (s : BitVec 5) : Statement (.andC16 d s) := by
  refine of_half rfl ?_ (fun h => h) rfl
  intro hz
  exact absurd ((ch_op s d.code 4#4).symm.trans (congrArg (BitVec.extractLsb' (n := 16) 1 4) hz)) (by decide)
theorem RoundTrip.orC16 (d : Opd) (s : BitVec 5) : Statement (.orC16 d s) := by
  refine of_half rfl ?_ (fun h => h) rfl
  intro hz
  exact absurd ((ch_op s d.code 5#4).symm.trans (congrArg (BitVec.extractLsb' (n := 16) 1 4) hz)) (by decide)
theorem RoundTrip.xorC16 (d : Opd) (s : BitVec 5) : Statement (.xorC16 d s) := by
  refine of_half rfl ?_ (fun h => h) rfl
  intro hz
  exact absurd ((ch_op s d.code 6#4).symm.trans (congrArg (BitVec.extractLsb' (n := 16) 1 4) hz)) (by decide)
theorem RoundTrip.shlC16 (d : Opd) (s : BitVec 5) : Statement (.shlC16 d s) := by
  refine of_half rfl ?_ (fun h => h) rfl
  intro hz
  exact absurd ((ch_op s d.code 7#4).symm.trans (congrArg (BitVec.extractLsb' (n := 16) 1 4) hz)) (by decide)
theorem RoundTrip.shrlC16 (d : Opd) (s : BitVec 5) : Statement (.shrlC16 d s) := by
  refine of_half rfl ?_ (fun h => h) rfl
  intro hz
  exact absurd ((ch_op s d.code 8#4).symm.trans (congrArg (BitVec.extractLsb' (n := 16) 1 4) hz)) (by decide)
theorem RoundTrip.shraC16 (d : Opd) (s : BitVec 5) : Statement (.shraC16 d s) := by
  refine of_half rfl ?_ (fun h => h) rfl
  intro hz
  exact absurd ((ch_op s d.code 9#4).symm.trans (congrArg (BitVec.extractLsb' (n := 16) 1 4) hz)) (by decide)
theorem RoundTrip.faddC16 (d : Opd) (s : BitVec 5) : Statement (.faddC16 d s) := by
  refine of_half rfl ?_ (fun h => h) rfl
  intro hz
  exact absurd ((ch_op s d.code 10#4).symm.trans (congrArg (BitVec.extractLsb' (n := 16) 1 4) hz)) (by decide)
theorem RoundTrip.fmulC16 (d : Opd) (s : BitVec 5) : Statement (.fmulC16 d s) := by
  refine of_half rfl ?_ (fun h => h) rfl
  intro hz
  exact absurd ((ch_op s d.code 11#4).symm.trans (congrArg (BitVec.extractLsb' (n := 16) 1 4) hz)) (by decide)
theorem RoundTrip.fmaxC16 (d : Opd) (s : BitVec 5) : Statement (.fmaxC16 d s) := by
  refine of_half rfl ?_ (fun h => h) rfl
  intro hz
  exact absurd ((ch_op s d.code 12#4).symm.trans (congrArg (BitVec.extractLsb' (n := 16) 1 4) hz)) (by decide)
theorem RoundTrip.fminC16 (d : Opd) (s : BitVec 5) : Statement (.fminC16 d s) := by
  refine of_half rfl ?_ (fun h => h) rfl
  intro hz
  exact absurd ((ch_op s d.code 13#4).symm.trans (congrArg (BitVec.extractLsb' (n := 16) 1 4) hz)) (by decide)
theorem RoundTrip.isetltC16 (d : Opd) (s : BitVec 5) : Statement (.isetltC16 d s) := by
  refine of_half rfl ?_ (fun h => h) rfl
  intro hz
  exact absurd ((ch_op s d.code 14#4).symm.trans (congrArg (BitVec.extractLsb' (n := 16) 1 4) hz)) (by decide)
theorem RoundTrip.not (d : Opd) (s : BitVec 5) : Statement (.not d s) := by
  refine of_half rfl ?_ (fun h => h) rfl
  intro hz
  exact absurd ((ch_op s d.code 15#4).symm.trans (congrArg (BitVec.extractLsb' (n := 16) 1 4) hz)) (by decide)
theorem RoundTrip.pfx (p : PfxFields) : Statement (.pfx p) := of_word rfl fun h => by
  unfold decodeWord; rw [pf_m]
  show decodePfx _ = _
  unfold decodePfx
  rw [pf_rnd, pf_zero, pf_mask, pf_fourth, bit_field _ _ _ (pf_ftz ..), bit_field _ _ _ (pf_sat ..), bit_field _ _ _ (pf_zm ..), rnd_code]
  refine ok2 (fun mask fourth => Instr.pfx (PfxFields.mk p.ftz p.sat p.rnd p.zmask mask fourth)) ?_ ?_ <;> first | exact h | rfl
theorem RoundTrip.iadd (d a b : Opd) : Statement (.iadd d a b) := of_word rfl fun h => by
  refine (word_int _ _ _ _).trans (ok3 Instr.iadd ?_ ?_ ?_) <;> first | exact h | rfl
theorem RoundTrip.isub (d a b : Opd) : Statement (.isub d a b) := of_word rfl fun h => by
  refine (word_int _ _ _ _).trans (ok3 Instr.isub ?_ ?_ ?_) <;> first | exact h | rfl
theorem RoundTrip.imul (d a b : Opd) : Statement (.imul d a b) := of_word rfl fun h => by
  refine (word_int _ _ _ _).trans (ok3 Instr.imul ?_ ?_ ?_) <;> first | exact h | rfl
theorem RoundTrip.imulhi (d a b : Opd) : Statement (.imulhi d a b) := of_word rfl fun h => by
  refine (word_int _ _ _ _).trans (ok3 Instr.imulhi ?_ ?_ ?_) <;> first | exact h | rfl
theorem RoundTrip.imulhu (d a b : Opd) : Statement (.imulhu d a b) := of_word rfl fun h => by
  refine (word_int _ _ _ _).trans (ok3 Instr.imulhu ?_ ?_ ?_) <;> first | exact h | rfl
theorem RoundTrip.imad (d a b : Opd) : Statement (.imad d a b) := of_word rfl fun h => by
  refine (word_int _ _ _ _).trans (ok3 Instr.imad ?_ ?_ ?_) <;> first | exact h | rfl
theorem RoundTrip.imin (d a b : Opd) : Statement (.imin d a b) := of_word rfl fun h => by
  refine (word_int _ _ _ _).trans (ok3 Instr.imin ?_ ?_ ?_) <;> first | exact h | rfl
theorem RoundTrip.imax (d a b : Opd) : Statement (.imax d a b) := of_word rfl fun h => by
  refine (word_int _ _ _ _).trans (ok3 Instr.imax ?_ ?_ ?_) <;> first | exact h | rfl
theorem RoundTrip.umin (d a b : Opd) : Statement (.umin d a b) := of_word rfl fun h => by
  refine (word_int _ _ _ _).trans (ok3 Instr.umin ?_ ?_ ?_) <;> first | exact h | rfl
theorem RoundTrip.umax (d a b : Opd) : Statement (.umax d a b) := of_word rfl fun h => by
  refine (word_int _ _ _ _).trans (ok3 Instr.umax ?_ ?_ ?_) <;> first | exact h | rfl
theorem RoundTrip.and (d a b : Opd) : Statement (.and d a b) := of_word rfl fun h => by
  refine (word_int _ _ _ _).trans (ok3 Instr.and ?_ ?_ ?_) <;> first | exact h | rfl
theorem RoundTrip.or (d a b : Opd) : Statement (.or d a b) := of_word rfl fun h => by
  refine (word_int _ _ _ _).trans (ok3 Instr.or ?_ ?_ ?_) <;> first | exact h | rfl
theorem RoundTrip.xor (d a b : Opd) : Statement (.xor d a b) := of_word rfl fun h => by
  refine (word_int _ _ _ _).trans (ok3 Instr.xor ?_ ?_ ?_) <;> first | exact h | rfl
theorem RoundTrip.andn (d a b : Opd) : Statement (.andn d a b) := of_word rfl fun h => by
  refine (word_int _ _ _ _).trans (ok3 Instr.andn ?_ ?_ ?_) <;> first | exact h | rfl
theorem RoundTrip.shl (d a b : Opd) : Statement (.shl d a b) := of_word rfl fun h => by
  refine (word_int _ _ _ _).trans (ok3 Instr.shl ?_ ?_ ?_) <;> first | exact h | rfl
theorem RoundTrip.shrl (d a b : Opd) : Statement (.shrl d a b) := of_word rfl fun h => by
  refine (word_int _ _ _ _).trans (ok3 Instr.shrl ?_ ?_ ?_) <;> first | exact h | rfl
theorem RoundTrip.shra (d a b : Opd) : Statement (.shra d a b) := of_word rfl fun h => by
  refine (word_int _ _ _ _).trans (ok3 Instr.shra ?_ ?_ ?_) <;> first | exact h | rfl
theorem RoundTrip.rotl (d a b : Opd) : Statement (.rotl d a b) := of_word rfl fun h => by
  refine (word_int _ _ _ _).trans (ok3 Instr.rotl ?_ ?_ ?_) <;> first | exact h | rfl
theorem RoundTrip.popc (d a : Opd) : Statement (.popc d a) := of_word rfl fun h => by
  refine (word_int _ _ _ _).trans (ok2 Instr.popc ?_ ?_) <;> first | exact h | rfl
theorem RoundTrip.clz (d a : Opd) : Statement (.clz d a) := of_word rfl fun h => by
  refine (word_int _ _ _ _).trans (ok2 Instr.clz ?_ ?_) <;> first | exact h | rfl
theorem RoundTrip.brev (d a : Opd) : Statement (.brev d a) := of_word rfl fun h => by
  refine (word_int _ _ _ _).trans (ok2 Instr.brev ?_ ?_) <;> first | exact h | rfl
theorem RoundTrip.bfe (d a b : Opd) : Statement (.bfe d a b) := of_word rfl fun h => by
  refine (word_int _ _ _ _).trans (ok3 Instr.bfe ?_ ?_ ?_) <;> first | exact h | rfl
theorem RoundTrip.bfi (d a b : Opd) : Statement (.bfi d a b) := of_word rfl fun h => by
  refine (word_int _ _ _ _).trans (ok3 Instr.bfi ?_ ?_ ?_) <;> first | exact h | rfl
theorem RoundTrip.sel (d a b : Opd) : Statement (.sel d a b) := of_word rfl fun h => by
  refine (word_int _ _ _ _).trans (ok3 Instr.sel ?_ ?_ ?_) <;> first | exact h | rfl
theorem RoundTrip.iseteq (d a b : Opd) : Statement (.iseteq d a b) := of_word rfl fun h => by
  refine (word_int _ _ _ _).trans (ok3 Instr.iseteq ?_ ?_ ?_) <;> first | exact h | rfl
theorem RoundTrip.isetne (d a b : Opd) : Statement (.isetne d a b) := of_word rfl fun h => by
  refine (word_int _ _ _ _).trans (ok3 Instr.isetne ?_ ?_ ?_) <;> first | exact h | rfl
theorem RoundTrip.isetlt (d a b : Opd) : Statement (.isetlt d a b) := of_word rfl fun h => by
  refine (word_int _ _ _ _).trans (ok3 Instr.isetlt ?_ ?_ ?_) <;> first | exact h | rfl
theorem RoundTrip.isetle (d a b : Opd) : Statement (.isetle d a b) := of_word rfl fun h => by
  refine (word_int _ _ _ _).trans (ok3 Instr.isetle ?_ ?_ ?_) <;> first | exact h | rfl
theorem RoundTrip.isetltu (d a b : Opd) : Statement (.isetltu d a b) := of_word rfl fun h => by
  refine (word_int _ _ _ _).trans (ok3 Instr.isetltu ?_ ?_ ?_) <;> first | exact h | rfl
theorem RoundTrip.isetleu (d a b : Opd) : Statement (.isetleu d a b) := of_word rfl fun h => by
  refine (word_int _ _ _ _).trans (ok3 Instr.isetleu ?_ ?_ ?_) <;> first | exact h | rfl
theorem RoundTrip.iabs (d a : Opd) : Statement (.iabs d a) := of_word rfl fun h => by
  refine (word_int _ _ _ _).trans (ok2 Instr.iabs ?_ ?_) <;> first | exact h | rfl
theorem RoundTrip.iaddi (d a : Opd) (imm : BitVec 13) : Statement (.iaddi d a imm) := of_word rfl fun h => by
  refine (word_iaddi _ _ _).trans (ok2 (fun d a => Instr.iaddi d a imm) ?_ ?_) <;> first | exact h | rfl
theorem RoundTrip.andi (d a : Opd) (imm : BitVec 13) : Statement (.andi d a imm) := of_word rfl fun h => by
  refine (word_andi _ _ _).trans (ok2 (fun d a => Instr.andi d a imm) ?_ ?_) <;> first | exact h | rfl
theorem RoundTrip.ori (d a : Opd) (imm : BitVec 13) : Statement (.ori d a imm) := of_word rfl fun h => by
  refine (word_ori _ _ _).trans (ok2 (fun d a => Instr.ori d a imm) ?_ ?_) <;> first | exact h | rfl
theorem RoundTrip.xori (d a : Opd) (imm : BitVec 13) : Statement (.xori d a imm) := of_word rfl fun h => by
  refine (word_xori _ _ _).trans (ok2 (fun d a => Instr.xori d a imm) ?_ ?_) <;> first | exact h | rfl
theorem RoundTrip.shiShl (d a : Opd) (n : BitVec 5) : Statement (.shiShl d a n) := of_word rfl fun h => by
  refine (word_shi _ _ _).trans ?_
  unfold decodeShi; rw [shi_high, shi_kind, shi_n]
  refine ok2 (fun d a => Instr.shiShl d a n) ?_ ?_ <;> first | exact h | rfl
theorem RoundTrip.shiShrl (d a : Opd) (n : BitVec 5) : Statement (.shiShrl d a n) := of_word rfl fun h => by
  refine (word_shi _ _ _).trans ?_
  unfold decodeShi; rw [shi_high, shi_kind, shi_n]
  refine ok2 (fun d a => Instr.shiShrl d a n) ?_ ?_ <;> first | exact h | rfl
theorem RoundTrip.shiShra (d a : Opd) (n : BitVec 5) : Statement (.shiShra d a n) := of_word rfl fun h => by
  refine (word_shi _ _ _).trans ?_
  unfold decodeShi; rw [shi_high, shi_kind, shi_n]
  refine ok2 (fun d a => Instr.shiShra d a n) ?_ ?_ <;> first | exact h | rfl
theorem RoundTrip.shiRotl (d a : Opd) (n : BitVec 5) : Statement (.shiRotl d a n) := of_word rfl fun h => by
  refine (word_shi _ _ _).trans ?_
  unfold decodeShi; rw [shi_high, shi_kind, shi_n]
  refine ok2 (fun d a => Instr.shiRotl d a n) ?_ ?_ <;> first | exact h | rfl
theorem RoundTrip.isetiEq (d a : Opd) (imm : BitVec 10) : Statement (.isetiEq d a imm) := of_word rfl fun h => by
  refine (word_iseti _ _ _).trans ?_
  unfold decodeIseti; rw [iseti_cond, iseti_n]
  refine ok2 (fun d a => Instr.isetiEq d a imm) ?_ ?_ <;> first | exact h | rfl
theorem RoundTrip.isetiNe (d a : Opd) (imm : BitVec 10) : Statement (.isetiNe d a imm) := of_word rfl fun h => by
  refine (word_iseti _ _ _).trans ?_
  unfold decodeIseti; rw [iseti_cond, iseti_n]
  refine ok2 (fun d a => Instr.isetiNe d a imm) ?_ ?_ <;> first | exact h | rfl
theorem RoundTrip.isetiLt (d a : Opd) (imm : BitVec 10) : Statement (.isetiLt d a imm) := of_word rfl fun h => by
  refine (word_iseti _ _ _).trans ?_
  unfold decodeIseti; rw [iseti_cond, iseti_n]
  refine ok2 (fun d a => Instr.isetiLt d a imm) ?_ ?_ <;> first | exact h | rfl
theorem RoundTrip.isetiLe (d a : Opd) (imm : BitVec 10) : Statement (.isetiLe d a imm) := of_word rfl fun h => by
  refine (word_iseti _ _ _).trans ?_
  unfold decodeIseti; rw [iseti_cond, iseti_n]
  refine ok2 (fun d a => Instr.isetiLe d a imm) ?_ ?_ <;> first | exact h | rfl
theorem RoundTrip.isetiLtu (d a : Opd) (imm : BitVec 10) : Statement (.isetiLtu d a imm) := of_word rfl fun h => by
  refine (word_iseti _ _ _).trans ?_
  unfold decodeIseti; rw [iseti_cond, iseti_n]
  refine ok2 (fun d a => Instr.isetiLtu d a imm) ?_ ?_ <;> first | exact h | rfl
theorem RoundTrip.isetiLeu (d a : Opd) (imm : BitVec 10) : Statement (.isetiLeu d a imm) := of_word rfl fun h => by
  refine (word_iseti _ _ _).trans ?_
  unfold decodeIseti; rw [iseti_cond, iseti_n]
  refine ok2 (fun d a => Instr.isetiLeu d a imm) ?_ ?_ <;> first | exact h | rfl
theorem RoundTrip.movi (d : Opd) (imm : BitVec 19) : Statement (.movi d imm) := of_word rfl fun h => by
  refine (word_movi _ _).trans (ok1 (fun d => Instr.movi d imm) ?_); exact h
theorem RoundTrip.movhi (d : Opd) (imm : BitVec 19) : Statement (.movhi d imm) := of_word rfl fun h => by
  refine (word_movhi _ _).trans (ok1 (fun d => Instr.movhi d imm) ?_); exact h
theorem RoundTrip.ldl (d : Opd) (imm : BitVec 19) : Statement (.ldl d imm) := of_word rfl fun h => by
  refine (word_ldl _ _).trans (ok1 (fun d => Instr.ldl d imm) ?_); exact h
theorem RoundTrip.region (imm : BitVec 19) : Statement (.region imm) := of_word rfl fun _ => word_region _
theorem RoundTrip.movm (v : Opd) (idx : BitVec 9) : Statement (.movm v idx) := of_word rfl fun h => by
  refine (word_ix _ _ _).trans ?_
  show (opdWith _ v.code >>= fun v => if idx.toNat < 256 then _ else _) = _
  rw [opdWith_code (Bool.and_eq_true_iff.mp h).1]
  exact if_pos (of_decide_eq_true ((Bool.and_eq_true_iff.mp h).2))
theorem RoundTrip.movmw (v : Opd) (idx : BitVec 9) : Statement (.movmw v idx) := of_word rfl fun h => by
  refine (word_ix _ _ _).trans ?_
  show (opdWith _ v.code >>= fun v => if idx.toNat < 256 then _ else _) = _
  rw [opdWith_code rfl]
  exact if_pos (of_decide_eq_true (h))
theorem RoundTrip.movg (v : Opd) (idx : BitVec 9) : Statement (.movg v idx) := of_word rfl fun h => by
  refine (word_ix _ _ _).trans (ok1 (fun v => Instr.movg v idx) ?_); exact h
theorem RoundTrip.movgw (v : Opd) (idx : BitVec 9) : Statement (.movgw v idx) := of_word rfl fun h => by
  refine (word_ix _ _ _).trans (ok1 (fun v => Instr.movgw v idx) ?_); exact h
theorem RoundTrip.movc (v : Opd) (idx : BitVec 9) : Statement (.movc v idx) := of_word rfl fun h => by
  refine (word_ix _ _ _).trans ?_
  have hv : wrOpd v.code = .ok v := opdWith_code (Bool.and_eq_true_iff.mp h).1
  have hc : ctlAssigned idx = true := (Bool.and_eq_true_iff.mp h).2
  simp [decodeIx, hv, hc, privFirst, Bind.bind, Except.bind, Pure.pure, Except.pure]
theorem RoundTrip.movtc (v : Opd) (idx : BitVec 9) : Statement (.movtc v idx) := of_word rfl fun h => by
  refine (word_ix _ _ _).trans ?_
  have hv : rdOpd v.code = .ok v := opdWith_code rfl
  have hc : ctlAssigned idx = true := h
  simp [decodeIx, hv, hc, privFirst, Bind.bind, Except.bind, Pure.pure, Except.pure]
theorem RoundTrip.ld (v a : Opd) (size : Size) (sem : Sem) (scope : Scope) (space : Space) (hint : Hint) : Statement (.ld v a size sem scope space hint) := of_word rfl fun h => by
  refine (word_ld _ _ _ _ _ _ _).trans ?_
  simp only [WellFormed, Bool.and_eq_true] at h
  obtain ⟨⟨⟨h1, h2⟩, h3⟩, h4⟩ := h
  simp [decodeMem, size_code, scope_code, sem_code, space_code, hint_code, sizedOpd, mbz, h3, opdWith_code h1, opdWith_code h2, h4, Bind.bind, Except.bind, Pure.pure, Except.pure]
theorem RoundTrip.st (v a : Opd) (size : Size) (sem : Sem) (scope : Scope) (space : Space) (hint : Hint) : Statement (.st v a size sem scope space hint) := of_word rfl fun h => by
  refine (word_st _ _ _ _ _ _ _).trans ?_
  simp only [WellFormed, Bool.and_eq_true] at h
  obtain ⟨⟨⟨h1, h2⟩, h3⟩, h4⟩ := h
  simp [decodeMem, size_code, scope_code, sem_code, space_code, hint_code, sizedOpd, mbz, h3, opdWith_code h1, opdWith_code h2, h4, Bind.bind, Except.bind, Pure.pure, Except.pure]
theorem RoundTrip.ldo (v a : Opd) (size : Size) (off : BitVec 10) : Statement (.ldo v a size off) := of_word rfl fun h => by
  refine (word_ldo _ _ _ _).trans ?_
  unfold decodeMo; rw [size_code]
  refine ok2 (fun v a => Instr.ldo v a size off) ?_ ?_ <;> first | exact h | rfl | exact (Bool.and_eq_true_iff.mp h).1 | exact (Bool.and_eq_true_iff.mp h).2
theorem RoundTrip.sto (v a : Opd) (size : Size) (off : BitVec 10) : Statement (.sto v a size off) := of_word rfl fun h => by
  refine (word_sto _ _ _ _).trans ?_
  unfold decodeMo; rw [size_code]
  refine ok2 (fun v a => Instr.sto v a size off) ?_ ?_ <;> first | exact h | rfl | exact (Bool.and_eq_true_iff.mp h).1 | exact (Bool.and_eq_true_iff.mp h).2
theorem RoundTrip.lds (v a : Opd) (size : Size) (off : BitVec 10) : Statement (.lds v a size off) := of_word rfl fun h => by
  refine (word_lds _ _ _ _).trans ?_
  unfold decodeMo; rw [size_code]
  refine ok2 (fun v a => Instr.lds v a size off) ?_ ?_ <;> first | exact h | rfl
theorem RoundTrip.sts (v a : Opd) (size : Size) (off : BitVec 10) : Statement (.sts v a size off) := of_word rfl fun h => by
  refine (word_sts _ _ _ _).trans ?_
  unfold decodeMo; rw [size_code]
  refine ok2 (fun v a => Instr.sts v a size off) ?_ ?_ <;> first | exact h | rfl
theorem RoundTrip.atom (d a b : Opd) (op : AtomOp) (scope : AScope) : Statement (.atom d a b op scope) := of_word rfl fun h => by
  refine (word_atom _ _ _ _ _).trans ?_
  rw [atomOp_code, aScope_code]
  refine ok3 (fun d a b => Instr.atom d a b op scope) ?_ ?_ ?_ <;> first | exact h | rfl | exact (Bool.and_eq_true_iff.mp h).1 | exact (Bool.and_eq_true_iff.mp h).2
theorem RoundTrip.atoma (d a b : Opd) (op : AtomOp) (scope : AScope) : Statement (.atoma d a b op scope) := of_word rfl fun h => by
  refine (word_atoma _ _ _ _ _).trans ?_
  rw [atomOp_code, aScope_code]
  refine ok3 (fun d a b => Instr.atoma d a b op scope) ?_ ?_ ?_ <;> first | exact h | rfl | exact (Bool.and_eq_true_iff.mp h).1 | exact (Bool.and_eq_true_iff.mp h).2
theorem RoundTrip.atoml (d a b : Opd) (op : AtomOp) (scope : AScope) : Statement (.atoml d a b op scope) := of_word rfl fun h => by
  refine (word_atoml _ _ _ _ _).trans ?_
  rw [atomOp_code, aScope_code]
  refine ok3 (fun d a b => Instr.atoml d a b op scope) ?_ ?_ ?_ <;> first | exact h | rfl | exact (Bool.and_eq_true_iff.mp h).1 | exact (Bool.and_eq_true_iff.mp h).2
theorem RoundTrip.atomal (d a b : Opd) (op : AtomOp) (scope : AScope) : Statement (.atomal d a b op scope) := of_word rfl fun h => by
  refine (word_atomal _ _ _ _ _).trans ?_
  rw [atomOp_code, aScope_code]
  refine ok3 (fun d a b => Instr.atomal d a b op scope) ?_ ?_ ?_ <;> first | exact h | rfl | exact (Bool.and_eq_true_iff.mp h).1 | exact (Bool.and_eq_true_iff.mp h).2
theorem RoundTrip.fence (scope : Scope) (kind : FenceKind) (dom : FenceDomain) : Statement (.fence scope kind dom) := of_word rfl fun _ => by
  unfold decodeWord; rw [fe_m]
  show decodeFence _ = _
  unfold decodeFence; rw [fe_sc, fe_kind, fe_dom, fe_zero, fence_low, scope_code, fenceKind_code, fenceDomain_code]
  rfl
theorem RoundTrip.stmc (d a b : Opd) : Statement (.stmc d a b) := of_word rfl fun h => by
  refine (word_memx _ _ _ _).trans (ok3 Instr.stmc ?_ ?_ ?_) <;> first | exact h | rfl
theorem RoundTrip.malloc (d a : Opd) : Statement (.malloc d a) := of_word rfl fun h => by
  refine (word_memx _ _ _ _).trans (ok2 Instr.malloc ?_ ?_) <;> first | exact h | rfl
theorem RoundTrip.mfree (a : Opd) : Statement (.mfree a) := of_word rfl fun h => by
  refine (word_memx _ _ _ _).trans (ok1 Instr.mfree ?_); exact h
theorem RoundTrip.cflush (a b : Opd) : Statement (.cflush a b) := of_word rfl fun h => by
  refine (word_memx _ _ _ _).trans (ok2 Instr.cflush ?_ ?_) <;> first | exact h | rfl
theorem RoundTrip.cinv (a b : Opd) : Statement (.cinv a b) := of_word rfl fun h => by
  refine (word_memx _ _ _ _).trans (ok2 Instr.cinv ?_ ?_) <;> first | exact h | rfl
theorem RoundTrip.pref (a b : Opd) : Statement (.pref a b) := of_word rfl fun h => by
  refine (word_memx _ _ _ _).trans (ok2 Instr.pref ?_ ?_) <;> first | exact h | rfl
theorem RoundTrip.ldt (d a b : Opd) : Statement (.ldt d a b) := of_word rfl fun h => by
  refine (word_memx _ _ _ _).trans (ok3 Instr.ldt ?_ ?_ ?_) <;> first | exact h | rfl | exact (Bool.and_eq_true_iff.mp h).1 | exact (Bool.and_eq_true_iff.mp h).2
theorem RoundTrip.stt (d a b : Opd) : Statement (.stt d a b) := of_word rfl fun h => by
  refine (word_memx _ _ _ _).trans (ok3 Instr.stt ?_ ?_ ?_) <;> first | exact h | rfl
theorem RoundTrip.lcp (s g : Opd) (size : CopySize) (out : Bool) (slot : BitVec 6) (ordered : Bool) : Statement (.lcp s g size out slot ordered) := of_word rfl fun h => by
  unfold decodeWord; rw [lc_m]
  show decodeLcp _ = _
  unfold decodeLcp
  rw [lc_size, lc_zero, lc_s, lc_g, lc_slot, bit_field _ _ _ (lc_w ..), bit_field _ _ _ (lc_o ..), copySize_code]
  refine ok2 (fun s g => Instr.lcp s g size out slot ordered) ?_ ?_ <;> first | exact h | rfl
theorem RoundTrip.tinit (d a b : Opd) : Statement (.tinit d a b) := of_word rfl fun h => by
  refine (word_tsync _ _ _ _).trans (ok3 Instr.tinit ?_ ?_ ?_) <;> first | exact h | rfl | exact (Bool.and_eq_true_iff.mp h).1 | exact (Bool.and_eq_true_iff.mp h).2
theorem RoundTrip.twait (d a : Opd) : Statement (.twait d a) := of_word rfl fun h => by
  refine (word_tsync _ _ _ _).trans (ok2 Instr.twait ?_ ?_) <;> first | exact h | rfl
theorem RoundTrip.tstat (d a : Opd) : Statement (.tstat d a) := of_word rfl fun h => by
  refine (word_tsync _ _ _ _).trans (ok2 Instr.tstat ?_ ?_) <;> first | exact h | rfl
theorem RoundTrip.tready (d a : Opd) : Statement (.tready d a) := of_word rfl fun h => by
  refine (word_tsync _ _ _ _).trans (ok2 Instr.tready ?_ ?_) <;> first | exact h | rfl
theorem RoundTrip.tempty (d a : Opd) : Statement (.tempty d a) := of_word rfl fun h => by
  refine (word_tsync _ _ _ _).trans (ok2 Instr.tempty ?_ ?_) <;> first | exact h | rfl
theorem RoundTrip.scmd (d a : Opd) : Statement (.scmd d a) := of_word rfl fun h => by
  refine (word_strm _ _ _ _).trans (ok2 Instr.scmd ?_ ?_) <;> first | exact h | rfl | exact (Bool.and_eq_true_iff.mp h).1 | exact (Bool.and_eq_true_iff.mp h).2
theorem RoundTrip.sresume (d a : Opd) : Statement (.sresume d a) := of_word rfl fun h => by
  refine (word_strm _ _ _ _).trans (ok2 Instr.sresume ?_ ?_) <;> first | exact h | rfl
theorem RoundTrip.shalo (d a : Opd) : Statement (.shalo d a) := of_word rfl fun h => by
  refine (word_strm _ _ _ _).trans (ok2 Instr.shalo ?_ ?_) <;> first | exact h | rfl | exact (Bool.and_eq_true_iff.mp h).1 | exact (Bool.and_eq_true_iff.mp h).2
theorem RoundTrip.spub (d a : Opd) : Statement (.spub d a) := of_word rfl fun h => by
  refine (word_strm _ _ _ _).trans (ok2 Instr.spub ?_ ?_) <;> first | exact h | rfl
theorem RoundTrip.spoll (d a b : Opd) : Statement (.spoll d a b) := of_word rfl fun h => by
  refine (word_strm _ _ _ _).trans (ok3 Instr.spoll ?_ ?_ ?_) <;> first | exact h | rfl | exact (Bool.and_eq_true_iff.mp h).1 | exact (Bool.and_eq_true_iff.mp h).2
theorem RoundTrip.tdef (d a b : Opd) : Statement (.tdef d a b) := of_word rfl fun h => by
  refine (word_strm _ _ _ _).trans (ok3 Instr.tdef ?_ ?_ ?_) <;> first | exact h | rfl | exact (Bool.and_eq_true_iff.mp h).1 | exact (Bool.and_eq_true_iff.mp h).2
theorem RoundTrip.tundef (d a : Opd) : Statement (.tundef d a) := of_word rfl fun h => by
  refine (word_strm _ _ _ _).trans (ok2 Instr.tundef ?_ ?_) <;> first | exact h | rfl
theorem RoundTrip.scancel (d a : Opd) : Statement (.scancel d a) := of_word rfl fun h => by
  refine (word_strm _ _ _ _).trans (ok2 Instr.scancel ?_ ?_) <;> first | exact h | rfl
theorem RoundTrip.tld (t p : BitVec 3) : Statement (.tld t p) := of_word rfl fun h => by
  refine (word_kln _ _ _ _).trans ?_
  simp only [decodeKln, mbz, tileBits_tf, tileField_tf]; rfl
theorem RoundTrip.tst (t p : BitVec 3) : Statement (.tst t p) := of_word rfl fun h => by
  refine (word_kln _ _ _ _).trans ?_
  simp only [decodeKln, mbz, tileBits_tf, tileField_tf]; rfl
theorem RoundTrip.tzero (t : BitVec 3) : Statement (.tzero t) := of_word rfl fun h => by
  refine (word_kln _ _ _ _).trans ?_
  simp only [decodeKln, mbz, tileBits_tf, tileField_tf]; rfl
theorem RoundTrip.tmma (c a b : BitVec 3) (ra rb : Bool) : Statement (.tmma c a b ra rb) := of_word rfl fun h => by
  refine (word_kln (bit rb ++ bit ra ++ 3#5) _ _ _).trans ?_
  simp only [decodeKln, kln_fn, kln_ra, kln_rb, mbz, tileBits_tf, tileField_tf]
  simp only [WellFormed, Bool.and_eq_true, bne_iff_ne] at h
  simp [h.1, h.2]
theorem RoundTrip.tmmaq (c a b : BitVec 3) (ra rb : Bool) : Statement (.tmmaq c a b ra rb) := of_word rfl fun h => by
  refine (word_kln (bit rb ++ bit ra ++ 4#5) _ _ _).trans ?_
  simp only [decodeKln, kln_fn, kln_ra, kln_rb, mbz, tileBits_tf, tileField_tf]
  simp only [WellFormed, Bool.and_eq_true, bne_iff_ne] at h
  simp [h.1, h.2]
theorem RoundTrip.tdrain (t p : BitVec 3) : Statement (.tdrain t p) := of_word rfl fun h => by
  refine (word_kln _ _ _ _).trans ?_
  simp only [decodeKln, mbz, tileBits_tf, tileField_tf]; first | rfl | (simp only [WellFormed] at h; simp_all)
theorem RoundTrip.tcvt (d a p : BitVec 3) : Statement (.tcvt d a p) := of_word rfl fun h => by
  refine (word_kln _ _ _ _).trans ?_
  simp only [decodeKln, mbz, tileBits_tf, tileField_tf]; rfl
theorem RoundTrip.ttrans (d a : BitVec 3) : Statement (.ttrans d a) := of_word rfl fun h => by
  refine (word_kln _ _ _ _).trans ?_
  simp only [decodeKln, mbz, tileBits_tf, tileField_tf]; rfl
theorem RoundTrip.tfill (d p : BitVec 3) : Statement (.tfill d p) := of_word rfl fun h => by
  refine (word_kln _ _ _ _).trans ?_
  simp only [decodeKln, mbz, tileBits_tf, tileField_tf]; rfl
theorem RoundTrip.mtask (d a b : Opd) : Statement (.mtask d a b) := of_word rfl fun h => by
  refine (word_task _ _ _ _).trans (ok3 Instr.mtask ?_ ?_ ?_) <;> first | exact h | rfl | exact (Bool.and_eq_true_iff.mp h).1 | exact (Bool.and_eq_true_iff.mp h).2
theorem RoundTrip.mtwait (d a : Opd) : Statement (.mtwait d a) := of_word rfl fun h => by
  refine (word_task _ _ _ _).trans (ok2 Instr.mtwait ?_ ?_) <;> first | exact h | rfl | exact (Bool.and_eq_true_iff.mp h).1 | exact (Bool.and_eq_true_iff.mp h).2
theorem RoundTrip.mtstat (d a : Opd) : Statement (.mtstat d a) := of_word rfl fun h => by
  refine (word_task _ _ _ _).trans (ok2 Instr.mtstat ?_ ?_) <;> first | exact h | rfl | exact (Bool.and_eq_true_iff.mp h).1 | exact (Bool.and_eq_true_iff.mp h).2
theorem RoundTrip.mtcancel (d a : Opd) : Statement (.mtcancel d a) := of_word rfl fun h => by
  refine (word_task _ _ _ _).trans (ok2 Instr.mtcancel ?_ ?_) <;> first | exact h | rfl | exact (Bool.and_eq_true_iff.mp h).1 | exact (Bool.and_eq_true_iff.mp h).2
theorem RoundTrip.kcreate (d a b : Opd) : Statement (.kcreate d a b) := of_word rfl fun h => by
  refine (word_krn _ _ _ _).trans (ok3 Instr.kcreate ?_ ?_ ?_) <;> first | exact h | rfl | exact (Bool.and_eq_true_iff.mp h).1 | exact (Bool.and_eq_true_iff.mp h).2
theorem RoundTrip.kclose (d a b : Opd) : Statement (.kclose d a b) := of_word rfl fun h => by
  refine (word_krn _ _ _ _).trans (ok3 Instr.kclose ?_ ?_ ?_) <;> first | exact h | rfl
theorem RoundTrip.kspawn (d a : Opd) : Statement (.kspawn d a) := of_word rfl fun h => by
  refine (word_krn _ _ _ _).trans (ok2 Instr.kspawn ?_ ?_) <;> first | exact h | rfl | exact (Bool.and_eq_true_iff.mp h).1 | exact (Bool.and_eq_true_iff.mp h).2
theorem RoundTrip.ksend (d a b : Opd) : Statement (.ksend d a b) := of_word rfl fun h => by
  refine (word_krn _ _ _ _).trans (ok3 Instr.ksend ?_ ?_ ?_) <;> first | exact h | rfl | exact (Bool.and_eq_true_iff.mp h).1 | exact (Bool.and_eq_true_iff.mp h).2
theorem RoundTrip.krecv (d a b : Opd) : Statement (.krecv d a b) := of_word rfl fun h => by
  refine (word_krn _ _ _ _).trans (ok3 Instr.krecv ?_ ?_ ?_) <;> first | exact h | rfl | exact (Bool.and_eq_true_iff.mp h).1 | exact (Bool.and_eq_true_iff.mp h).2
theorem RoundTrip.ktryrecv (d a b : Opd) : Statement (.ktryrecv d a b) := of_word rfl fun h => by
  refine (word_krn _ _ _ _).trans (ok3 Instr.ktryrecv ?_ ?_ ?_) <;> first | exact h | rfl | exact (Bool.and_eq_true_iff.mp h).1 | exact (Bool.and_eq_true_iff.mp h).2
theorem RoundTrip.kpost (d a b : Opd) : Statement (.kpost d a b) := of_word rfl fun h => by
  refine (word_krn _ _ _ _).trans (ok3 Instr.kpost ?_ ?_ ?_) <;> first | exact h | rfl | exact (Bool.and_eq_true_iff.mp h).1 | exact (Bool.and_eq_true_iff.mp h).2
theorem RoundTrip.kwadd (d a b : Opd) : Statement (.kwadd d a b) := of_word rfl fun h => by
  refine (word_krn _ _ _ _).trans (ok3 Instr.kwadd ?_ ?_ ?_) <;> first | exact h | rfl | exact (Bool.and_eq_true_iff.mp h).1 | exact (Bool.and_eq_true_iff.mp h).2
theorem RoundTrip.kwdel (d a b : Opd) : Statement (.kwdel d a b) := of_word rfl fun h => by
  refine (word_krn _ _ _ _).trans (ok3 Instr.kwdel ?_ ?_ ?_) <;> first | exact h | rfl
theorem RoundTrip.kwait (d a b : Opd) : Statement (.kwait d a b) := of_word rfl fun h => by
  refine (word_krn _ _ _ _).trans (ok3 Instr.kwait ?_ ?_ ?_) <;> first | exact h | rfl
theorem RoundTrip.karm (d a b : Opd) : Statement (.karm d a b) := of_word rfl fun h => by
  refine (word_krn _ _ _ _).trans (ok3 Instr.karm ?_ ?_ ?_) <;> first | exact h | rfl | exact (Bool.and_eq_true_iff.mp h).1 | exact (Bool.and_eq_true_iff.mp h).2
theorem RoundTrip.kdisarm (d a : Opd) : Statement (.kdisarm d a) := of_word rfl fun h => by
  refine (word_krn _ _ _ _).trans (ok2 Instr.kdisarm ?_ ?_) <;> first | exact h | rfl
theorem RoundTrip.klookup (d a : Opd) : Statement (.klookup d a) := of_word rfl fun h => by
  refine (word_krn _ _ _ _).trans (ok2 Instr.klookup ?_ ?_) <;> first | exact h | rfl | exact (Bool.and_eq_true_iff.mp h).1 | exact (Bool.and_eq_true_iff.mp h).2
theorem RoundTrip.kname (d a b : Opd) : Statement (.kname d a b) := of_word rfl fun h => by
  refine (word_krn _ _ _ _).trans (ok3 Instr.kname ?_ ?_ ?_) <;> first | exact h | rfl | exact (Bool.and_eq_true_iff.mp h).1 | exact (Bool.and_eq_true_iff.mp h).2
theorem RoundTrip.kidle (d a : Opd) : Statement (.kidle d a) := of_word rfl fun h => by
  refine (word_krn _ _ _ _).trans (ok2 Instr.kidle ?_ ?_) <;> first | exact h | rfl
theorem RoundTrip.kwork (d : Opd) : Statement (.kwork d) := of_word rfl fun h => by
  refine (word_krn _ _ _ _).trans (ok1 Instr.kwork ?_); exact h
theorem RoundTrip.ktime (d : Opd) : Statement (.ktime d) := of_word rfl fun h => by
  refine (word_krn _ _ _ _).trans (ok1 Instr.ktime ?_); exact h
theorem RoundTrip.binit (d a b : Opd) : Statement (.binit d a b) := of_word rfl fun h => by
  refine (word_bar _ _ _ _).trans (ok3 Instr.binit ?_ ?_ ?_) <;> first | exact h | rfl
theorem RoundTrip.barrive (d a : Opd) : Statement (.barrive d a) := of_word rfl fun h => by
  refine (word_bar _ _ _ _).trans (ok2 Instr.barrive ?_ ?_) <;> first | exact h | rfl
theorem RoundTrip.bwait (d a b : Opd) : Statement (.bwait d a b) := of_word rfl fun h => by
  refine (word_bar _ _ _ _).trans (ok3 Instr.bwait ?_ ?_ ?_) <;> first | exact h | rfl
theorem RoundTrip.bsync (d a : Opd) : Statement (.bsync d a) := of_word rfl fun h => by
  refine (word_bar _ _ _ _).trans (ok2 Instr.bsync ?_ ?_) <;> first | exact h | rfl
theorem RoundTrip.binval (d a : Opd) : Statement (.binval d a) := of_word rfl fun h => by
  refine (word_bar _ _ _ _).trans (ok2 Instr.binval ?_ ?_) <;> first | exact h | rfl
theorem RoundTrip.bz (c : Opd) (off : BitVec 19) : Statement (.bz c off) := of_word rfl fun h => by
  refine (word_bz _ _).trans (ok1 (fun d => Instr.bz d off) ?_); exact h
theorem RoundTrip.bnz (c : Opd) (off : BitVec 19) : Statement (.bnz c off) := of_word rfl fun h => by
  refine (word_bnz _ _).trans (ok1 (fun d => Instr.bnz d off) ?_); exact h
theorem RoundTrip.bra (off : BitVec 25) : Statement (.bra off) := of_word rfl fun _ => word_bra _
theorem RoundTrip.call (off : BitVec 25) : Statement (.call off) := of_word rfl fun _ => word_call _
theorem RoundTrip.callr (a : Opd) : Statement (.callr a) := of_word rfl fun h => by
  refine (word_ctl _ _ _ _).trans (ok1 Instr.callr ?_); exact h
theorem RoundTrip.jmpr (a : Opd) : Statement (.jmpr a) := of_word rfl fun h => by
  refine (word_ctl _ _ _ _).trans (ok1 Instr.jmpr ?_); exact h
theorem RoundTrip.ret : Statement (.ret) := of_word rfl fun _ => (word_ctl _ _ _ _).trans rfl
theorem RoundTrip.reconv : Statement (.reconv) := of_word rfl fun _ => (word_ctl _ _ _ _).trans rfl
theorem RoundTrip.yield : Statement (.yield) := of_word rfl fun _ => (word_ctl _ _ _ _).trans rfl
theorem RoundTrip.exitLane : Statement (.exitLane) := of_word rfl fun _ => (word_ctl _ _ _ _).trans rfl
theorem RoundTrip.nop : Statement (.nop) := of_word rfl fun _ => (word_ctl _ _ _ _).trans rfl
theorem RoundTrip.trapInstr (a : Opd) : Statement (.trapInstr a) := of_word rfl fun h => by
  refine (word_ctl _ _ _ _).trans (ok1 Instr.trapInstr ?_); exact h
theorem RoundTrip.breakTrap : Statement (.breakTrap) := of_word rfl fun _ => (word_ctl _ _ _ _).trans rfl
theorem RoundTrip.svc (a : Opd) : Statement (.svc a) := of_word rfl fun h => by
  refine (word_ctl _ _ _ _).trans (ok1 Instr.svc ?_); exact h
theorem RoundTrip.eret (a b : Opd) : Statement (.eret a b) := of_word rfl fun h => by
  refine (word_sys _ _ _).trans (okPriv (ok2 Instr.eret ?_ ?_)) <;> exact h
theorem RoundTrip.tlbinv (a : Opd) : Statement (.tlbinv a) := of_word rfl fun h => by
  refine (word_sys _ _ _).trans (okPriv (ok1 Instr.tlbinv ?_)); exact h
theorem RoundTrip.tlbgen : Statement (.tlbgen) := of_word rfl fun _ => (word_sys _ _ _).trans rfl
theorem RoundTrip.preempt (a b : Opd) : Statement (.preempt a b) := of_word rfl fun h => by
  refine (word_sys _ _ _).trans (okPriv (ok2 Instr.preempt ?_ ?_)) <;> first | exact h | rfl
theorem RoundTrip.resumew (a b : Opd) : Statement (.resumew a b) := of_word rfl fun h => by
  refine (word_sys _ _ _).trans (okPriv (ok2 Instr.resumew ?_ ?_)) <;> first | exact h | rfl
theorem RoundTrip.corerst (a b : Opd) : Statement (.corerst a b) := of_word rfl fun h => by
  refine (word_sys _ _ _).trans (okPriv (ok2 Instr.corerst ?_ ?_)) <;> first | exact h | rfl
theorem RoundTrip.engrst (a b : Opd) : Statement (.engrst a b) := of_word rfl fun h => by
  refine (word_sys _ _ _).trans (okPriv (ok2 Instr.engrst ?_ ?_)) <;> first | exact h | rfl
theorem RoundTrip.fadd (d a b : Opd) : Statement (.fadd d a b) := of_word rfl fun h => by
  refine (word_flt _ _ _ _).trans (ok3 Instr.fadd ?_ ?_ ?_) <;> first | exact h | rfl
theorem RoundTrip.fsub (d a b : Opd) : Statement (.fsub d a b) := of_word rfl fun h => by
  refine (word_flt _ _ _ _).trans (ok3 Instr.fsub ?_ ?_ ?_) <;> first | exact h | rfl
theorem RoundTrip.fmul (d a b : Opd) : Statement (.fmul d a b) := of_word rfl fun h => by
  refine (word_flt _ _ _ _).trans (ok3 Instr.fmul ?_ ?_ ?_) <;> first | exact h | rfl
theorem RoundTrip.ffma (d a b : Opd) : Statement (.ffma d a b) := of_word rfl fun h => by
  refine (word_flt _ _ _ _).trans (ok3 Instr.ffma ?_ ?_ ?_) <;> first | exact h | rfl
theorem RoundTrip.fmin (d a b : Opd) : Statement (.fmin d a b) := of_word rfl fun h => by
  refine (word_flt _ _ _ _).trans (ok3 Instr.fmin ?_ ?_ ?_) <;> first | exact h | rfl
theorem RoundTrip.fmax (d a b : Opd) : Statement (.fmax d a b) := of_word rfl fun h => by
  refine (word_flt _ _ _ _).trans (ok3 Instr.fmax ?_ ?_ ?_) <;> first | exact h | rfl
theorem RoundTrip.fabs (d a : Opd) : Statement (.fabs d a) := of_word rfl fun h => by
  refine (word_flt _ _ _ _).trans (ok2 Instr.fabs ?_ ?_) <;> first | exact h | rfl
theorem RoundTrip.fneg (d a : Opd) : Statement (.fneg d a) := of_word rfl fun h => by
  refine (word_flt _ _ _ _).trans (ok2 Instr.fneg ?_ ?_) <;> first | exact h | rfl
theorem RoundTrip.fseteq (d a b : Opd) : Statement (.fseteq d a b) := of_word rfl fun h => by
  refine (word_flt _ _ _ _).trans (ok3 Instr.fseteq ?_ ?_ ?_) <;> first | exact h | rfl
theorem RoundTrip.fsetne (d a b : Opd) : Statement (.fsetne d a b) := of_word rfl fun h => by
  refine (word_flt _ _ _ _).trans (ok3 Instr.fsetne ?_ ?_ ?_) <;> first | exact h | rfl
theorem RoundTrip.fsetlt (d a b : Opd) : Statement (.fsetlt d a b) := of_word rfl fun h => by
  refine (word_flt _ _ _ _).trans (ok3 Instr.fsetlt ?_ ?_ ?_) <;> first | exact h | rfl
theorem RoundTrip.fsetle (d a b : Opd) : Statement (.fsetle d a b) := of_word rfl fun h => by
  refine (word_flt _ _ _ _).trans (ok3 Instr.fsetle ?_ ?_ ?_) <;> first | exact h | rfl
theorem RoundTrip.fsetun (d a b : Opd) : Statement (.fsetun d a b) := of_word rfl fun h => by
  refine (word_flt _ _ _ _).trans (ok3 Instr.fsetun ?_ ?_ ?_) <;> first | exact h | rfl
theorem RoundTrip.fclass (d a : Opd) : Statement (.fclass d a) := of_word rfl fun h => by
  refine (word_flt _ _ _ _).trans (ok2 Instr.fclass ?_ ?_) <;> first | exact h | rfl
theorem RoundTrip.frnd (d a : Opd) : Statement (.frnd d a) := of_word rfl fun h => by
  refine (word_flt _ _ _ _).trans (ok2 Instr.frnd ?_ ?_) <;> first | exact h | rfl
theorem RoundTrip.fcvti (d a : Opd) : Statement (.fcvti d a) := of_word rfl fun h => by
  refine (word_flt _ _ _ _).trans (ok2 Instr.fcvti ?_ ?_) <;> first | exact h | rfl
theorem RoundTrip.fcvtui (d a : Opd) : Statement (.fcvtui d a) := of_word rfl fun h => by
  refine (word_flt _ _ _ _).trans (ok2 Instr.fcvtui ?_ ?_) <;> first | exact h | rfl
theorem RoundTrip.icvtf (d a : Opd) : Statement (.icvtf d a) := of_word rfl fun h => by
  refine (word_flt _ _ _ _).trans (ok2 Instr.icvtf ?_ ?_) <;> first | exact h | rfl
theorem RoundTrip.ucvtf (d a : Opd) : Statement (.ucvtf d a) := of_word rfl fun h => by
  refine (word_flt _ _ _ _).trans (ok2 Instr.ucvtf ?_ ?_) <;> first | exact h | rfl
theorem RoundTrip.fpkbf (d a b : Opd) : Statement (.fpkbf d a b) := of_word rfl fun h => by
  refine (word_flt _ _ _ _).trans (ok3 Instr.fpkbf ?_ ?_ ?_) <;> first | exact h | rfl
theorem RoundTrip.fpkh (d a b : Opd) : Statement (.fpkh d a b) := of_word rfl fun h => by
  refine (word_flt _ _ _ _).trans (ok3 Instr.fpkh ?_ ?_ ?_) <;> first | exact h | rfl
theorem RoundTrip.fupbfl (d a : Opd) : Statement (.fupbfl d a) := of_word rfl fun h => by
  refine (word_flt _ _ _ _).trans (ok2 Instr.fupbfl ?_ ?_) <;> first | exact h | rfl
theorem RoundTrip.fupbfh (d a : Opd) : Statement (.fupbfh d a) := of_word rfl fun h => by
  refine (word_flt _ _ _ _).trans (ok2 Instr.fupbfh ?_ ?_) <;> first | exact h | rfl
theorem RoundTrip.fuphl (d a : Opd) : Statement (.fuphl d a) := of_word rfl fun h => by
  refine (word_flt _ _ _ _).trans (ok2 Instr.fuphl ?_ ?_) <;> first | exact h | rfl
theorem RoundTrip.fuphh (d a : Opd) : Statement (.fuphh d a) := of_word rfl fun h => by
  refine (word_flt _ _ _ _).trans (ok2 Instr.fuphh ?_ ?_) <;> first | exact h | rfl
theorem RoundTrip.hadd2Bf (d a b : Opd) : Statement (.hadd2Bf d a b) := of_word rfl fun h => by
  refine (word_hpk _ _ _ _).trans (ok3 Instr.hadd2Bf ?_ ?_ ?_) <;> first | exact h | rfl
theorem RoundTrip.hmul2Bf (d a b : Opd) : Statement (.hmul2Bf d a b) := of_word rfl fun h => by
  refine (word_hpk _ _ _ _).trans (ok3 Instr.hmul2Bf ?_ ?_ ?_) <;> first | exact h | rfl
theorem RoundTrip.hfma2Bf (d a b : Opd) : Statement (.hfma2Bf d a b) := of_word rfl fun h => by
  refine (word_hpk _ _ _ _).trans (ok3 Instr.hfma2Bf ?_ ?_ ?_) <;> first | exact h | rfl
theorem RoundTrip.hmax2Bf (d a b : Opd) : Statement (.hmax2Bf d a b) := of_word rfl fun h => by
  refine (word_hpk _ _ _ _).trans (ok3 Instr.hmax2Bf ?_ ?_ ?_) <;> first | exact h | rfl
theorem RoundTrip.hmin2Bf (d a b : Opd) : Statement (.hmin2Bf d a b) := of_word rfl fun h => by
  refine (word_hpk _ _ _ _).trans (ok3 Instr.hmin2Bf ?_ ?_ ?_) <;> first | exact h | rfl
theorem RoundTrip.hadd2H (d a b : Opd) : Statement (.hadd2H d a b) := of_word rfl fun h => by
  refine (word_hpk _ _ _ _).trans (ok3 Instr.hadd2H ?_ ?_ ?_) <;> first | exact h | rfl
theorem RoundTrip.hmul2H (d a b : Opd) : Statement (.hmul2H d a b) := of_word rfl fun h => by
  refine (word_hpk _ _ _ _).trans (ok3 Instr.hmul2H ?_ ?_ ?_) <;> first | exact h | rfl
theorem RoundTrip.hfma2H (d a b : Opd) : Statement (.hfma2H d a b) := of_word rfl fun h => by
  refine (word_hpk _ _ _ _).trans (ok3 Instr.hfma2H ?_ ?_ ?_) <;> first | exact h | rfl
theorem RoundTrip.hmax2H (d a b : Opd) : Statement (.hmax2H d a b) := of_word rfl fun h => by
  refine (word_hpk _ _ _ _).trans (ok3 Instr.hmax2H ?_ ?_ ?_) <;> first | exact h | rfl
theorem RoundTrip.hmin2H (d a b : Opd) : Statement (.hmin2H d a b) := of_word rfl fun h => by
  refine (word_hpk _ _ _ _).trans (ok3 Instr.hmin2H ?_ ?_ ?_) <;> first | exact h | rfl
theorem RoundTrip.hdot2Bf (d a b : Opd) : Statement (.hdot2Bf d a b) := of_word rfl fun h => by
  refine (word_hpk _ _ _ _).trans (ok3 Instr.hdot2Bf ?_ ?_ ?_) <;> first | exact h | rfl
theorem RoundTrip.hdot2H (d a b : Opd) : Statement (.hdot2H d a b) := of_word rfl fun h => by
  refine (word_hpk _ _ _ _).trans (ok3 Instr.hdot2H ?_ ?_ ?_) <;> first | exact h | rfl
theorem RoundTrip.frcp (d a : Opd) : Statement (.frcp d a) := of_word rfl fun h => by
  refine (word_sfu _ _ _ _).trans (ok2 Instr.frcp ?_ ?_) <;> first | exact h | rfl
theorem RoundTrip.frsq (d a : Opd) : Statement (.frsq d a) := of_word rfl fun h => by
  refine (word_sfu _ _ _ _).trans (ok2 Instr.frsq ?_ ?_) <;> first | exact h | rfl
theorem RoundTrip.fsqrt (d a : Opd) : Statement (.fsqrt d a) := of_word rfl fun h => by
  refine (word_sfu _ _ _ _).trans (ok2 Instr.fsqrt ?_ ?_) <;> first | exact h | rfl
theorem RoundTrip.fex2 (d a : Opd) : Statement (.fex2 d a) := of_word rfl fun h => by
  refine (word_sfu _ _ _ _).trans (ok2 Instr.fex2 ?_ ?_) <;> first | exact h | rfl
theorem RoundTrip.flg2 (d a : Opd) : Statement (.flg2 d a) := of_word rfl fun h => by
  refine (word_sfu _ _ _ _).trans (ok2 Instr.flg2 ?_ ?_) <;> first | exact h | rfl
theorem RoundTrip.fsin (d a : Opd) : Statement (.fsin d a) := of_word rfl fun h => by
  refine (word_sfu _ _ _ _).trans (ok2 Instr.fsin ?_ ?_) <;> first | exact h | rfl
theorem RoundTrip.fcos (d a : Opd) : Statement (.fcos d a) := of_word rfl fun h => by
  refine (word_sfu _ _ _ _).trans (ok2 Instr.fcos ?_ ?_) <;> first | exact h | rfl
theorem RoundTrip.ftanh (d a : Opd) : Statement (.ftanh d a) := of_word rfl fun h => by
  refine (word_sfu _ _ _ _).trans (ok2 Instr.ftanh ?_ ?_) <;> first | exact h | rfl
theorem RoundTrip.fdiv (d a b : Opd) : Statement (.fdiv d a b) := of_word rfl fun h => by
  refine (word_sfu _ _ _ _).trans (ok3 Instr.fdiv ?_ ?_ ?_) <;> first | exact h | rfl
theorem RoundTrip.shfli (d a b : Opd) : Statement (.shfli d a b) := of_word rfl fun h => by
  refine (word_xln _ _ _ _).trans (ok3 Instr.shfli ?_ ?_ ?_) <;> first | exact h | rfl
theorem RoundTrip.shflu (d a b : Opd) : Statement (.shflu d a b) := of_word rfl fun h => by
  refine (word_xln _ _ _ _).trans (ok3 Instr.shflu ?_ ?_ ?_) <;> first | exact h | rfl
theorem RoundTrip.shfld (d a b : Opd) : Statement (.shfld d a b) := of_word rfl fun h => by
  refine (word_xln _ _ _ _).trans (ok3 Instr.shfld ?_ ?_ ?_) <;> first | exact h | rfl
theorem RoundTrip.shflx (d a b : Opd) : Statement (.shflx d a b) := of_word rfl fun h => by
  refine (word_xln _ _ _ _).trans (ok3 Instr.shflx ?_ ?_ ?_) <;> first | exact h | rfl
theorem RoundTrip.voteall (d a : Opd) : Statement (.voteall d a) := of_word rfl fun h => by
  refine (word_xln _ _ _ _).trans (ok2 Instr.voteall ?_ ?_) <;> first | exact h | rfl
theorem RoundTrip.voteany (d a : Opd) : Statement (.voteany d a) := of_word rfl fun h => by
  refine (word_xln _ _ _ _).trans (ok2 Instr.voteany ?_ ?_) <;> first | exact h | rfl
theorem RoundTrip.ballot (d a : Opd) : Statement (.ballot d a) := of_word rfl fun h => by
  refine (word_xln _ _ _ _).trans (ok2 Instr.ballot ?_ ?_) <;> first | exact h | rfl
theorem RoundTrip.redadd (d a : Opd) : Statement (.redadd d a) := of_word rfl fun h => by
  refine (word_xln _ _ _ _).trans (ok2 Instr.redadd ?_ ?_) <;> first | exact h | rfl
theorem RoundTrip.redmin (d a : Opd) : Statement (.redmin d a) := of_word rfl fun h => by
  refine (word_xln _ _ _ _).trans (ok2 Instr.redmin ?_ ?_) <;> first | exact h | rfl
theorem RoundTrip.redmax (d a : Opd) : Statement (.redmax d a) := of_word rfl fun h => by
  refine (word_xln _ _ _ _).trans (ok2 Instr.redmax ?_ ?_) <;> first | exact h | rfl
theorem RoundTrip.redand (d a : Opd) : Statement (.redand d a) := of_word rfl fun h => by
  refine (word_xln _ _ _ _).trans (ok2 Instr.redand ?_ ?_) <;> first | exact h | rfl
theorem RoundTrip.redor (d a : Opd) : Statement (.redor d a) := of_word rfl fun h => by
  refine (word_xln _ _ _ _).trans (ok2 Instr.redor ?_ ?_) <;> first | exact h | rfl
theorem RoundTrip.redxor (d a : Opd) : Statement (.redxor d a) := of_word rfl fun h => by
  refine (word_xln _ _ _ _).trans (ok2 Instr.redxor ?_ ?_) <;> first | exact h | rfl
theorem RoundTrip.fredadd (d a : Opd) : Statement (.fredadd d a) := of_word rfl fun h => by
  refine (word_xln _ _ _ _).trans (ok2 Instr.fredadd ?_ ?_) <;> first | exact h | rfl
theorem RoundTrip.fredmin (d a : Opd) : Statement (.fredmin d a) := of_word rfl fun h => by
  refine (word_xln _ _ _ _).trans (ok2 Instr.fredmin ?_ ?_) <;> first | exact h | rfl
theorem RoundTrip.fredmax (d a : Opd) : Statement (.fredmax d a) := of_word rfl fun h => by
  refine (word_xln _ _ _ _).trans (ok2 Instr.fredmax ?_ ?_) <;> first | exact h | rfl
theorem RoundTrip.scanadd (d a : Opd) : Statement (.scanadd d a) := of_word rfl fun h => by
  refine (word_xln _ _ _ _).trans (ok2 Instr.scanadd ?_ ?_) <;> first | exact h | rfl
theorem RoundTrip.matchLanes (d a : Opd) : Statement (.matchLanes d a) := of_word rfl fun h => by
  refine (word_xln _ _ _ _).trans (ok2 Instr.matchLanes ?_ ?_) <;> first | exact h | rfl
theorem RoundTrip.elect (d : Opd) : Statement (.elect d) := of_word rfl fun h => by
  refine (word_xln _ _ _ _).trans (ok1 Instr.elect ?_); exact h
theorem RoundTrip.active (d : Opd) : Statement (.active d) := of_word rfl fun h => by
  refine (word_xln _ _ _ _).trans (ok1 Instr.active ?_); exact h
theorem RoundTrip.packageReset : Statement .packageReset := step_of_agent rfl
theorem RoundTrip.bringupPhaseDone : Statement .bringupPhaseDone := step_of_agent rfl
theorem RoundTrip.drvacceptWrite : Statement .drvacceptWrite := step_of_agent rfl
theorem RoundTrip.memsplitWrite : Statement .memsplitWrite := step_of_agent rfl
theorem RoundTrip.registerWrite : Statement .registerWrite := step_of_agent rfl
theorem RoundTrip.doorbell : Statement .doorbell := step_of_agent rfl
theorem RoundTrip.launchRead : Statement .launchRead := step_of_agent rfl
theorem RoundTrip.launchStart : Statement .launchStart := step_of_agent rfl
theorem RoundTrip.blockPlace : Statement .blockPlace := step_of_agent rfl
theorem RoundTrip.runQueuePlace : Statement .runQueuePlace := step_of_agent rfl
theorem RoundTrip.launchComplete : Statement .launchComplete := step_of_agent rfl
theorem RoundTrip.compactorMove : Statement .compactorMove := step_of_agent rfl
theorem RoundTrip.moveDone : Statement .moveDone := step_of_agent rfl
theorem RoundTrip.waveEnd : Statement .waveEnd := step_of_agent rfl
theorem RoundTrip.waveSaved : Statement .waveSaved := step_of_agent rfl
theorem RoundTrip.generationAdvance : Statement .generationAdvance := step_of_agent rfl
theorem RoundTrip.linkDegraded : Statement .linkDegraded := step_of_agent rfl
theorem RoundTrip.remoteTimeout : Statement .remoteTimeout := step_of_agent rfl
theorem RoundTrip.holdNoticeSend : Statement .holdNoticeSend := step_of_agent rfl
theorem RoundTrip.holdNotice : Statement .holdNotice := step_of_agent rfl
theorem RoundTrip.remoteRequest : Statement .remoteRequest := step_of_agent rfl
theorem RoundTrip.remoteReply : Statement .remoteReply := step_of_agent rfl
theorem RoundTrip.multicastMemberWrite : Statement .multicastMemberWrite := step_of_agent rfl
theorem RoundTrip.multicastAck : Statement .multicastAck := step_of_agent rfl
theorem RoundTrip.mfreeExchange : Statement .mfreeExchange := step_of_agent rfl
theorem RoundTrip.laneCopyComplete : Statement .laneCopyComplete := step_of_agent rfl
theorem RoundTrip.slipJobStart : Statement .slipJobStart := step_of_agent rfl
theorem RoundTrip.slipTileStart : Statement .slipTileStart := step_of_agent rfl
theorem RoundTrip.slipIteration : Statement .slipIteration := step_of_agent rfl
theorem RoundTrip.slipJobComplete : Statement .slipJobComplete := step_of_agent rfl
theorem RoundTrip.slipSignal : Statement .slipSignal := step_of_agent rfl
theorem RoundTrip.wheelSlab : Statement .wheelSlab := step_of_agent rfl
theorem RoundTrip.taskDispatch : Statement .taskDispatch := step_of_agent rfl
theorem RoundTrip.taskTileDrain : Statement .taskTileDrain := step_of_agent rfl
theorem RoundTrip.taskComplete : Statement .taskComplete := step_of_agent rfl
theorem RoundTrip.messageArrival : Statement .messageArrival := step_of_agent rfl
theorem RoundTrip.rendezvousLand : Statement .rendezvousLand := step_of_agent rfl
theorem RoundTrip.postTimeout : Statement .postTimeout := step_of_agent rfl
theorem RoundTrip.frameStall : Statement .frameStall := step_of_agent rfl
theorem RoundTrip.thruminoMessage : Statement .thruminoMessage := step_of_agent rfl
theorem RoundTrip.srdReceive : Statement .srdReceive := step_of_agent rfl
theorem RoundTrip.ptpMessage : Statement .ptpMessage := step_of_agent rfl
theorem RoundTrip.arpRequest : Statement .arpRequest := step_of_agent rfl
theorem RoundTrip.kmsgDeliver : Statement .kmsgDeliver := step_of_agent rfl
theorem RoundTrip.belvedereBind : Statement .belvedereBind := step_of_agent rfl
theorem RoundTrip.belvedereLookup : Statement .belvedereLookup := step_of_agent rfl
theorem RoundTrip.timerExpiry : Statement .timerExpiry := step_of_agent rfl
theorem RoundTrip.kwaitTimeout : Statement .kwaitTimeout := step_of_agent rfl
theorem RoundTrip.conePass : Statement .conePass := step_of_agent rfl
theorem RoundTrip.reconvTimeout : Statement .reconvTimeout := step_of_agent rfl
theorem RoundTrip.lkrateWrite : Statement .lkrateWrite := step_of_agent rfl
theorem RoundTrip.linkTrainingDone : Statement .linkTrainingDone := step_of_agent rfl
theorem RoundTrip.laneFault : Statement .laneFault := step_of_agent rfl
theorem RoundTrip.replayWindow : Statement .replayWindow := step_of_agent rfl
theorem RoundTrip.dieFlitReceive : Statement .dieFlitReceive := step_of_agent rfl
theorem RoundTrip.uncrst : Statement .uncrst := step_of_agent rfl
theorem RoundTrip.poiscrub : Statement .poiscrub := step_of_agent rfl
theorem RoundTrip.flitGroupReceive : Statement .flitGroupReceive := step_of_agent rfl
theorem RoundTrip.portLost : Statement .portLost := step_of_agent rfl
theorem RoundTrip.portTrained : Statement .portTrained := step_of_agent rfl
theorem RoundTrip.planeRemap : Statement .planeRemap := step_of_agent rfl
theorem RoundTrip.planemapWrite : Statement .planemapWrite := step_of_agent rfl
theorem RoundTrip.fabrekey : Statement .fabrekey := step_of_agent rfl
theorem RoundTrip.rekeyGroupCount : Statement .rekeyGroupCount := step_of_agent rfl
theorem RoundTrip.loadConfirm : Statement .loadConfirm := step_of_agent rfl
theorem RoundTrip.receiverAck : Statement .receiverAck := step_of_agent rfl
theorem RoundTrip.getVersion : Statement .getVersion := step_of_agent rfl
theorem RoundTrip.getCapabilities : Statement .getCapabilities := step_of_agent rfl
theorem RoundTrip.negotiateAlgorithms : Statement .negotiateAlgorithms := step_of_agent rfl
theorem RoundTrip.getDigests : Statement .getDigests := step_of_agent rfl
theorem RoundTrip.getCertificate : Statement .getCertificate := step_of_agent rfl
theorem RoundTrip.keyExchange : Statement .keyExchange := step_of_agent rfl
theorem RoundTrip.finish : Statement .finish := step_of_agent rfl
theorem RoundTrip.keyUpdate : Statement .keyUpdate := step_of_agent rfl
theorem RoundTrip.heartbeat : Statement .heartbeat := step_of_agent rfl
theorem RoundTrip.endSession : Statement .endSession := step_of_agent rfl
theorem RoundTrip.getMeasurements : Statement .getMeasurements := step_of_agent rfl
theorem RoundTrip.challenge : Statement .challenge := step_of_agent rfl
theorem RoundTrip.grantPoolAdd : Statement .grantPoolAdd := step_of_agent rfl
theorem RoundTrip.hostMemAccess : Statement .hostMemAccess := step_of_agent rfl
theorem RoundTrip.cxlTimeout : Statement .cxlTimeout := step_of_agent rfl
theorem RoundTrip.cxlLinkDown : Statement .cxlLinkDown := step_of_agent rfl
theorem RoundTrip.cxlLinkUp : Statement .cxlLinkUp := step_of_agent rfl
theorem RoundTrip.droopStretch : Statement .droopStretch := step_of_agent rfl
theorem RoundTrip.powerStretch : Statement .powerStretch := step_of_agent rfl
theorem RoundTrip.ptpLockLoss : Statement .ptpLockLoss := step_of_agent rfl
theorem RoundTrip.kmsgReply : Statement .kmsgReply := step_of_agent rfl
theorem RoundTrip.nameTimeout : Statement .nameTimeout := step_of_agent rfl
theorem RoundTrip.kmsgRetransmission : Statement .kmsgRetransmission := step_of_agent rfl
theorem RoundTrip.podBarrierMessage : Statement .podBarrierMessage := step_of_agent rfl
theorem RoundTrip.cxlCacheSnoop : Statement .cxlCacheSnoop := step_of_agent rfl

end Sys2Proof.Laws
end

