-- ==== Sys2Proof/Safety.lean ====
section
/-! DEFINITION. The terms in which claims are stated: a group that runs an instruction, how its lanes end, what stays as it
was, and the invariants of the package. -/

namespace Sys2Proof.Machine

/-- An issue group runs an instruction (R294): its lanes, in increasing order, are lanes of its wave. -/
structure GroupRuns (s : State) (fo : Focus) (w : Wave) : Prop where
  focus : s.focus = some fo
  wave : s.wave fo.wave = some w
  sorted : fo.lanes.Pairwise (· < ·)
  live : ∀ l ∈ fo.lanes, (w.lane l).isSome = true

/-- A group of one lane runs an instruction. -/
structure Solo (s : State) (fo : Focus) (w : Wave) (l : Nat) (ln : Lane) : Prop where
  focus : s.focus = some fo
  wave : s.wave fo.wave = some w
  lanes : fo.lanes = [l]
  lane : w.lane l = some ln

/-- The PC after the unit that runs. -/
def Focus.next (fo : Focus) : VA := fo.pc + BitVec.ofNat 64 fo.len

/-- A lane that has completed with result words for a destination and flags: b registers, the e-file, FPFLAGS, the next PC
(R49, R78, R246). -/
def Lane.wrote (ln : Lane) (pc : VA) (d : Opd) (ws : List Word) (fl : Flags) : Lane :=
  ((ln.setBank (ln.bank.result d ws)).advance pc).raise fl

/-- A group has run an instruction that changes only its lanes and g registers: each lane ends as F says, each g register holds what G
writes to it, if anything, which overtakes what earlier instructions have yet to write there (R247), and nothing else in the package has
changed. -/
structure GroupEnds (s t : State) (fo : Focus) (w : Wave) (F : Nat → Lane → Lane) (G : Nat → Option Word) : Prop where
  rest : t = { s with waves := t.waves }
  others : ∀ u, u ≠ fo.wave → t.wave u = s.wave u
  wave : ∃ w', t.wave fo.wave = some w' ∧ w' = { w with lanes := w'.lanes, g := w'.g, gWait := overBy (fun r => (G r).isSome) w.gWait } ∧
    (∀ l, w'.lane l = if l ∈ fo.lanes then (w.lane l).map (F l) else w.lane l) ∧ ∀ r, w'.greg r = (G r).getD (w.greg r)

/-- A lane of the group that the prefix does not mask off (R44). -/
def unmasked (fo : Focus) (w : Wave) (l : Nat) : Bool :=
  match w.lane l with
  | some ln => !maskedOff fo.pfx w l ln
  | none => false

/-- An operand is a g register of a number. -/
def isG (d : Opd) (r : Nat) : Bool := match d with | .g q => q.toNat == r | _ => false

/-- How a lane of a group ends a result-writing instruction (R44, R246): masked off, or with its word and flags. -/
def resultEnd (fo : Focus) (w : Wave) (d : Opd) (v : Nat → Lane → Word) (fl : Nat → Lane → Flags) (l : Nat) (ln : Lane) : Lane :=
  if maskedOff fo.pfx w l ln then ln.wrote fo.next d [keptWord fo.pfx w l ln d] 0 else ln.wrote fo.next d [v l ln] (fl l ln)

/-- What a result-writing instruction writes to a g register (R247, R261): the word of the lowest unmasked lane; where all are masked
off, 0 under zeroing, else nothing. -/
def gWritten (fo : Focus) (w : Wave) (d : Opd) (v : Nat → Lane → Word) (r : Nat) : Option Word :=
  if isG d r then
    match fo.lanes.find? (unmasked fo w) with
    | some l => (w.lane l).map (v l)
    | none => if zeroing fo.pfx then some 0 else none
  else none

/-- What a lane computes for its destination: from the prefix, its wave, its number and itself, a word and flags. -/
abbrev LaneFn := Option PfxFields → Wave → Nat → Lane → Word × Flags

/-- An instruction completes as result-writing (R44, R246, R247, R261) in every group each of whose unmasked lanes meets a
condition: every lane gets what v computes from the registers before the instruction, and nothing else changes. -/
def WritesIf (i : Instr) (d : Opd) (ok : Option PfxFields → Wave → Nat → Lane → Prop) (v : LaneFn) : Prop :=
  ∀ s fo w, GroupRuns s fo w →
    (∀ l ∈ fo.lanes, ∀ ln, w.lane l = some ln → maskedOff fo.pfx w l ln = false → ok fo.pfx w l ln) →
    ∃ t, exec i s = .next t ∧
      GroupEnds s t fo w (resultEnd fo w d (fun l ln => (v fo.pfx w l ln).1) (fun l ln => (v fo.pfx w l ln).2))
        (gWritten fo w d (fun l ln => (v fo.pfx w l ln).1))

/-- An instruction completes as result-writing in every group. -/
def Writes (i : Instr) (d : Opd) (v : LaneFn) : Prop := WritesIf i d (fun _ _ _ _ => True) v

/-- A function of one operand. -/
def one (a : Opd) (f : Word → Word) : LaneFn := fun _ w l ln => (f (readOpd w l ln a), 0)

/-- A function of two operands. -/
def two (a b : Opd) (f : Word → Word → Word) : LaneFn := fun _ w l ln => (f (readOpd w l ln a) (readOpd w l ln b), 0)

/-- A function of two operands and the accumulator, the destination or the prefix's fourth operand (R43). -/
def three (d a b : Opd) (f : Word → Word → Word → Word) : LaneFn :=
  fun p w l ln => (f (readOpd w l ln a) (readOpd w l ln b) (readOpd w l ln (accOpd p d)), 0)

/-- An exact integer result as R69 stores it: wrapped, or clamped with SATURATED where the prefix has sat. -/
def stored (p : Option PfxFields) (x : Int) : Word × Flags :=
  if satBit p = true ∧ 2147483647 < x then (0x7FFFFFFF, Flags.saturated)
  else if satBit p = true ∧ x < -2147483648 then (0x80000000, Flags.saturated)
  else (BitVec.ofInt 32 x, 0)

/-- A floating operation on operands: none of them traps UNINIT, and no flag it raises is enabled (R79, R83). -/
def FloatOk (srcs : Option PfxFields → Wave → Nat → Lane → List Word) (v : LaneFn) (p : Option PfxFields) (w : Wave) (l : Nat) (ln : Lane) : Prop :=
  uninit ln (srcs p w l ln) = none ∧ fpTraps ln (v p w l ln).2 = false

/-- A floating operation of one operand, under the mode its lane and prefix give. -/
def float1 (a : Opd) (f : FpCtx → Nat → Word × Flags) : LaneFn := fun p w l ln => f (fpCtx ln p) (readOpd w l ln a).toNat

/-- A floating operation of two operands. -/
def float2 (a b : Opd) (f : FpCtx → Nat → Nat → Word × Flags) : LaneFn :=
  fun p w l ln => f (fpCtx ln p) (readOpd w l ln a).toNat (readOpd w l ln b).toNat

/-- A floating operation of two operands and the accumulator. -/
def float3 (d a b : Opd) (f : FpCtx → Nat → Nat → Nat → Word × Flags) : LaneFn :=
  fun p w l ln => f (fpCtx ln p) (readOpd w l ln a).toNat (readOpd w l ln b).toNat (readOpd w l ln (accOpd p d)).toNat

/-- A floating instruction of one operand completes (R269). -/
def Floats1 (i : Instr) (d a : Opd) (f : FpCtx → Nat → Word × Flags) : Prop :=
  WritesIf i d (FloatOk (fun _ w l ln => [readOpd w l ln a]) (float1 a f)) (float1 a f)

/-- A floating instruction of two operands completes. -/
def Floats2 (i : Instr) (d a b : Opd) (f : FpCtx → Nat → Nat → Word × Flags) : Prop :=
  WritesIf i d (FloatOk (fun _ w l ln => [readOpd w l ln a, readOpd w l ln b]) (float2 a b f)) (float2 a b f)

/-- A floating instruction of two operands and an accumulator completes. -/
def Floats3 (i : Instr) (d a b : Opd) (f : FpCtx → Nat → Nat → Nat → Word × Flags) : Prop :=
  WritesIf i d (FloatOk (fun p w l ln => [readOpd w l ln a, readOpd w l ln b, readOpd w l ln (accOpd p d)]) (float3 d a b f)) (float3 d a b f)

/-- A conversion from bits completes: no operand of it is a floating one (R269). -/
def FloatsBits (i : Instr) (d a : Opd) (f : FpCtx → Word → Word × Flags) : Prop :=
  WritesIf i d (FloatOk (fun _ _ _ _ => []) (fun p w l ln => f (fpCtx ln p) (readOpd w l ln a))) (fun p w l ln => f (fpCtx ln p) (readOpd w l ln a))

/-- A lane of a group has completed its part with result words for a destination and flags (R49, R78, R247): its own
registers, and a g destination. -/
def State.completes (s : State) (fo : Focus) (l : Nat) (d : Opd) (ws : List Word) (fl : Flags) : State :=
  let s1 := s.modLane fo.wave l (fun ln => ln.wrote fo.next d ws fl)
  match d with
  | .g r => s1.modWave fo.wave (fun w => w.setG r.toNat ws)
  | .b _ | .e0 | .e1 | .z | .ln | .wv => s1

/-- A lane of a group has completed its part without a result: it stands at the next unit. -/
def State.passes (s : State) (fo : Focus) (l : Nat) : State := s.modLane fo.wave l (fun ln => ln.advance fo.next)

/-- A lane waits in its instruction, behind those that wait already. -/
def State.waits (s : State) (fo : Focus) (l : Nat) (k : WaitKind) : State :=
  ({ s with ticket := s.ticket + 1 } : State).modLane fo.wave l (fun ln =>
    { ln with wait := some { kind := k, ticket := s.ticket, status := none, value := 0, bytes := [] } })

/-- A lane waits, behind those that wait already, for the accesses translated before the advance of its context (R108), with what it
returns to the pool afterwards. -/
def State.waitAdvance (s : State) (fo : Focus) (w : Wave) (l : Nat) (bytes : List Byte) : State :=
  s.waitWith fo.wave l (.advance (some w.asid) (s.ctx w.asid).gen) 1 bytes

/-- A message of another package is taken (R394, R435): it has no answer yet, and is kept until it is over. -/
def State.taken (s : State) (src seq : Nat) (body : KmsgBody) : State :=
  { s with kmsgSeen := sput s.kmsgSeen src (sput (sgetD s.kmsgSeen src []) seq 255), kmsgHeld := s.kmsgHeld ++ [(src, seq, body)] }

/-- A message of another package is over: it is kept no more. -/
def State.over (s : State) (src seq : Nat) : State := { s with kmsgHeld := s.kmsgHeld.filter (fun e => !(e.1 == src && e.2.1 == seq)) }

/-- A lane that has transferred to a PC, with what the region rules expect there (R254). -/
def Lane.jumped (ln : Lane) (pc : VA) (expect : Nat) : Lane :=
  (ln.advance pc).setBank { (ln.advance pc).bank with expect := expect }

/-- A lane takes a trap at the unit that runs (R419). -/
def State.traps (s : State) (fo : Focus) (l cause va : Nat) (aux : Word) : State :=
  takeTrap s fo.wave l (Trap.mk cause va aux) false fo.len

/-- A group of one lane that waits for nothing runs an instruction without a prefix. -/
structure Single (s : State) (fo : Focus) (w : Wave) (l : Nat) (ln : Lane) : Prop extends Solo s fo w l ln where
  bare : fo.pfx = none
  wait : ln.wait = none

/-- A group of one lane that waits for nothing calls Logen, which its die's links reach (R171, R385). -/
structure Calls (s : State) (fo : Focus) (w : Wave) (l : Nat) (ln : Lane) (k : Block) : Prop extends Single s fo w l ln where
  block : sget s.blocks w.block = some k
  near : s.reach w.die 6 = true

/-- A group of one lane that has waited in its call goes on. -/
structure CallsAgain (s : State) (fo : Focus) (w : Wave) (l : Nat) (ln : Lane) (k : Block) (wt : Wait) : Prop extends Solo s fo w l ln where
  block : sget s.blocks w.block = some k
  wait : ln.wait = some wt

/-- An instruction without a result completes in every group whose lanes meet a condition: every lane ends as F says, and
nothing else changes. -/
def Ends (i : Instr) (ok : State → Focus → Wave → Nat → Lane → Prop) (F : State → Focus → Wave → Nat → Lane → Lane) : Prop :=
  ∀ s fo w, GroupRuns s fo w → (∀ l ∈ fo.lanes, ∀ ln, w.lane l = some ln → ok s fo w l ln) →
    ∃ t, exec i s = .next t ∧ GroupEnds s t fo w (F s fo w) (fun _ => none)

/-- An instruction that takes no prefix completes as result-writing in every group whose lanes meet a condition. -/
def WritesAlone (i : Instr) (d : Opd) (ok : State → Focus → Wave → Nat → Lane → Prop) (v : State → Focus → Wave → Nat → Lane → Word) : Prop :=
  ∀ s fo w, GroupRuns s fo w → fo.pfx = none → (∀ l ∈ fo.lanes, ∀ ln, w.lane l = some ln → ok s fo w l ln) →
    ∃ t, exec i s = .next t ∧
      GroupEnds s t fo w (resultEnd fo w d (v s fo w) (fun _ _ => 0)) (gWritten fo w d (v s fo w))

/-- What the lanes of a group bring to a cross-lane instance (R286, R287): those of the g mask that are not masked off. -/
def contributors (fo : Focus) (w : Wave) (a b : Opd) : List Arrival :=
  fo.lanes.filterMap (fun l =>
    match w.lane l with
    | none => none
    | some ln =>
      let x := arrival fo.pfx w l ln a b
      if inSet (gMask fo.pfx w) l && x.contributes then some x else none)

/-- How a lane ends a cross-lane instruction (R286, R287): a contributor with its result and flags, another with its old
destination. -/
def xlnEnd (fo : Focus) (w : Wave) (d a b : Opd) (f : XlnFn) (l : Nat) (ln : Lane) : Lane :=
  let x := arrival fo.pfx w l ln a b
  if inSet (gMask fo.pfx w) l && x.contributes then
    ln.wrote fo.next d [(f (contributors fo w a b) x).1] (f (contributors fo w a b) x).2
  else ln.wrote fo.next d [readOpd w l ln d] 0

/-- A cross-lane instruction completes at once when all lanes of the wave arrive together, outside a handler, no instance
open at their PC, no operand trapping and no flag enabled (R287): each contributor gets what f gives it from all contributors,
and nothing else changes but the model's count of waits. -/
def Crosses (i : Instr) (d a b : Opd) (marks : Bool) (f : XlnFn) : Prop :=
  ∀ s fo w, GroupRuns s fo w → fo.lanes = skeys w.lanes → instAt w fo.pc = none →
    (∀ l ∈ fo.lanes, ∀ ln, w.lane l = some ln → ln.inTrap = false ∧
      (∀ x ∈ contributors fo w a b, x.lane = l →
        (marks = true → uninit ln [x.a] = none) ∧ fpTraps ln (f (contributors fo w a b) x).2 = false)) →
    ∃ t, exec i s = .next t ∧ s.ticket ≤ t.ticket ∧
      GroupEnds { s with ticket := t.ticket } t fo w (xlnEnd fo w d a b f)
        (fun r => if isG d r then (contributors fo w a b).head?.map (fun x => (f (contributors fo w a b) x).1) else none)

/-- Where a load or store of n bytes in the global or the tensor-relative space goes (R135, R141). -/
def Reaches (s : State) (w : Wave) (l : Nat) (ln : Lane) (sp : Space) (a : Opd) (n va : Nat) : Prop :=
  let lo := readOpd w l ln a
  let hi := readOpd w l ln (opdPlus a 1)
  match sp with
  | .global => va = (hi ++ lo).toNat ∧ va % n = 0
  | .tensor => lo.toNat % n = 0 ∧ hi.toNat / 2 ^ 16 = 0 ∧ ∃ e r, s.readTensor w.asid (hi.toNat % 2 ^ 16) false [] = .ok (e, r) ∧
      e.ok = true ∧ lo.toNat + n ≤ e.span ∧ va = (e.live + lo.toNat) % 2 ^ 64
  | .scratch | .priv => False

/-- A load, with its destination, goes to a VA. -/
def Loads (s : State) (w : Wave) (l : Nat) (ln : Lane) (i : Instr) (v : Opd) (z : Size) (va : Nat) : Prop :=
  (∃ a sem scope sp hint, i = .ld v a z sem scope sp hint ∧ Reaches s w l ln sp a (sizeBytes z) va) ∨
  ∃ a off, i = .ldo v a z off ∧
    va = (((readOpd w l ln (opdPlus a 1) ++ readOpd w l ln a).toNat + off.toInt * sizeBytes z) % 2 ^ 64).toNat ∧ va % sizeBytes z = 0

/-- A load is an acquire of a scope wider than the core (R116, R138). -/
def WideLoad (s : State) (w : Wave) (i : Instr) : Bool :=
  match i with
  | .ld _ _ _ sem scope _ _ => sem == .acquire && s.wide w scope
  | _ => false

/-- A store, with its data operand and the scope of a release, goes to a VA. -/
def Stores (s : State) (w : Wave) (l : Nat) (ln : Lane) (i : Instr) (v : Opd) (z : Size) (rel : Option Scope) (va : Nat) : Prop :=
  (∃ a sem scope sp hint, i = .st v a z sem scope sp hint ∧ rel = (if sem = .release then some scope else none) ∧
    Reaches s w l ln sp a (sizeBytes z) va) ∨
  ∃ a off, i = .sto v a z off ∧ rel = none ∧
    va = (((readOpd w l ln (opdPlus a 1) ++ readOpd w l ln a).toNat + off.toInt * sizeBytes z) % 2 ^ 64).toNat ∧ va % sizeBytes z = 0

/-- An access of n bytes by a lane lands in sound memory of this package, its HBM or the host's that answers, at a local address aligned to
its size, over die links that are up (R94, R107, R139, R171, R426). -/
structure LandsInMemory (s : State) (w : Wave) (ln : Lane) (write : Bool) (va n : Nat) (t : Target) (la : Nat) : Prop where
  translated : s.translate (laneAcc w ln write) va = .ok t
  memory : t.kind = .hbm ∨ t.kind = .host
  home : la = localOf t.pa
  level : la % n = 0
  answered : s.hostFault la = none
  sound : s.poisoned la n = false
  near : s.reachable t = true

/-- The state after a store to memory of this package: the home's bytes, through the L2 of the lane's die, and the sectors that the core's L1 holds
(R112, R115). -/
def State.stored (s : State) (core la : Nat) (bs : List Byte) : State := (s.storeHome la bs).patchL1 core la bs

/-- What the step of an engine runs on: no lane's instruction, the engine's own agent, and what its accesses to other packages have been
answered so far (R112, R186). -/
def State.asEngine (s : State) (c : Client) (agent : Nat) : State :=
  { s with focus := none, run := { agent := agent, acks := (s.fabric.answersOf c).acks, failed := (s.fabric.answersOf c).failed, full := c.fullLines } }

/-- The package after the step of an engine: its answers are used up, and all else is as the step has left it. -/
def State.engineDone (s : State) (c : Client) (t : State) : State :=
  { t with focus := s.focus, run := Runner.idle, fabric := t.fabric.forget c }

/-- An engine's last access to another package, if it has made one, has been answered. -/
def State.quiet (s : State) (c : Client) : Prop := ∀ e ∈ s.fabric.out, e.2.client ≠ some c

/-- A BAR function may act on a barrier: the barrier word names it, the lane stands outside a handler, and the barrier does
not belong to another context (R304, R422). -/
structure BarrierReady (s : State) (fo : Focus) (w : Wave) (l : Nat) (ln : Lane) (a : Opd) (level inst index : Nat) : Prop where
  outside : ln.inTrap = false
  word : barrierWord (readOpd w l ln a) = some (level, index)
  which : inst = barrierInst s fo.wave w level
  mine : barrierForeign (s.barrier level inst index) level w.asid = false
  here : s.heldElsewhere level index = false

/-- A KLN instance can execute at once (R314, R316): all lanes of the wave arrive together outside a handler, no instance is
open at their PC, the tiles named lie in the wave's footprint, and none is lost. -/
structure KlnReady (s : State) (fo : Focus) (w : Wave) (tiles : List Nat) : Prop where
  runs : GroupRuns s fo w
  all : fo.lanes = skeys w.lanes
  nonempty : fo.lanes ≠ []
  alone : instAt w fo.pc = none
  outside : ∀ l ∈ fo.lanes, ∀ ln, w.lane l = some ln → ln.inTrap = false
  tiles : ∀ t ∈ tiles, t < w.tileCount
  kept : w.tileLost = false

/-- A KLN instruction has completed: the package is s2 but for the model's count of waits, an idle account of accesses, and this
wave, which is w2 with every lane at the next unit. -/
def KlnEnds (i : Instr) (s s2 : State) (fo : Focus) (w2 : Wave) : Prop :=
  ∃ t, exec i s = .next t ∧ s.ticket ≤ t.ticket ∧
    GroupEnds { s2 with ticket := t.ticket, run := Runner.idle } t fo w2 (fun _ ln => ln.advance fo.next) (fun _ => none)

/-- A KLN instruction of a wave of one lane has trapped (R316), on a package that is s2 but for its count of waits and an idle
account of accesses. -/
def KlnTraps (i : Instr) (s s2 : State) (fo : Focus) (cause : Nat) (aux : Word) : Prop :=
  ∀ l, fo.lanes = [l] → exec i s = .next (({ s2 with ticket := s.ticket + 1, run := Runner.idle } : State).traps fo l cause 0 aux)

end Sys2Proof.Machine
end

