-- ==== Sys2Proof/Certificates/Slice0/Obligations.lean ====
section
/-! DEFINITION. The statements for the provers, one proposition each; a proposition of several parts says each of them, the
part's rules named above it. The terms they use stand in Safety.lean. -/

open Sys2Proof Sys2Proof.Machine

/-- Every integer, logic, bit-field and immediate instruction completes with its result in every lane of its group, and changes
nothing else; under sat it clamps. -/
def Obligations.IntegerResults : Prop :=
  -- R264, R69: the functions that honour sat write the exact result, wrapped, or clamped under the prefix's sat, with SATURATED
  -- where the clamp changes it; IMAD adds d or the fourth operand; the immediate forms are those of R266.
  (
    ∀ (d a b : Opd) (imm : BitVec 13) (n : BitVec 5),
      Writes (.iadd d a b) d (fun p w l ln => stored p ((readOpd w l ln a).toInt + (readOpd w l ln b).toInt)) ∧
      Writes (.isub d a b) d (fun p w l ln => stored p ((readOpd w l ln a).toInt - (readOpd w l ln b).toInt)) ∧
      Writes (.imul d a b) d (fun p w l ln => stored p ((readOpd w l ln a).toInt * (readOpd w l ln b).toInt)) ∧
      Writes (.imad d a b) d (fun p w l ln =>
        stored p ((readOpd w l ln a).toInt * (readOpd w l ln b).toInt + (readOpd w l ln (accOpd p d)).toInt)) ∧
      Writes (.shl d a b) d (fun p w l ln => stored p ((readOpd w l ln a).toInt * 2 ^ ((readOpd w l ln b).toNat % 32))) ∧
      Writes (.iabs d a) d (fun p w l ln => stored p ((readOpd w l ln a).toInt.natAbs : Int)) ∧
      Writes (.iaddi d a imm) d (fun p w l ln => stored p ((readOpd w l ln a).toInt + imm.toInt)) ∧
      Writes (.shiShl d a n) d (fun p w l ln => stored p ((readOpd w l ln a).toInt * 2 ^ n.toNat))) ∧
  -- R264: products' high words, minima and maxima, logic and shifts, whatever the prefix's sat.
  (
    ∀ (d a b : Opd),
      Writes (.imulhi d a b) d (two a b (fun x y => BitVec.ofInt 32 (x.toInt * y.toInt / 2 ^ 32))) ∧
      Writes (.imulhu d a b) d (two a b (fun x y => BitVec.ofNat 32 (x.toNat * y.toNat / 2 ^ 32))) ∧
      Writes (.imin d a b) d (two a b (fun x y => if x.sle y then x else y)) ∧
      Writes (.imax d a b) d (two a b (fun x y => if x.sle y then y else x)) ∧
      Writes (.umin d a b) d (two a b (fun x y => if x ≤ y then x else y)) ∧
      Writes (.umax d a b) d (two a b (fun x y => if x ≤ y then y else x)) ∧
      Writes (.and d a b) d (two a b (fun x y => x &&& y)) ∧
      Writes (.or d a b) d (two a b (fun x y => x ||| y)) ∧
      Writes (.xor d a b) d (two a b (fun x y => x ^^^ y)) ∧
      Writes (.andn d a b) d (two a b (fun x y => x &&& ~~~y)) ∧
      Writes (.shrl d a b) d (two a b (fun x y => x >>> (y.toNat % 32))) ∧
      Writes (.shra d a b) d (two a b (fun x y => x.sshiftRight (y.toNat % 32))) ∧
      Writes (.rotl d a b) d (two a b (fun x y => x.rotateLeft (y.toNat % 32))) ∧
      Writes (.popc d a) d (one a (fun x => BitVec.ofNat 32 ((List.range 32).countP (fun i => x.getLsbD i)))) ∧
      Writes (.clz d a) d (one a (fun x => if x = 0 then 32 else BitVec.ofNat 32 (31 - Nat.log2 x.toNat))) ∧
      Writes (.brev d a) d (one a (fun x => x.reverse)) ∧
      Writes (.sel d a b) d (three d a b (fun x y c => if c = 0 then y else x))) ∧
  -- R264: a comparison writes 1 where it holds and 0 where it does not.
  (
    ∀ (d a b : Opd),
      Writes (.iseteq d a b) d (two a b (fun x y => if x = y then 1 else 0)) ∧
      Writes (.isetne d a b) d (two a b (fun x y => if x = y then 0 else 1)) ∧
      Writes (.isetlt d a b) d (two a b (fun x y => if x.slt y then 1 else 0)) ∧
      Writes (.isetle d a b) d (two a b (fun x y => if x.sle y then 1 else 0)) ∧
      Writes (.isetltu d a b) d (two a b (fun x y => if x < y then 1 else 0)) ∧
      Writes (.isetleu d a b) d (two a b (fun x y => if x ≤ y then 1 else 0))) ∧
  -- R265: BFE takes LEN bits from POS, zero-extended or sign-extended by bit 15 of b, and BFI puts them into d or the fourth
  -- operand; LEN ends at bit 31.
  (
    ∀ (d a b : Opd),
      Writes (.bfe d a b) d (two a b (fun x y =>
        let pos := y.toNat % 32
        let len := min (y.toNat / 256 % 64) (32 - pos)
        let f := x.toNat / 2 ^ pos % 2 ^ len
        if len = 0 then 0
        else if y.getLsbD 15 ∧ 2 ^ (len - 1) ≤ f then BitVec.ofNat 32 (f + (2 ^ 32 - 2 ^ len)) else BitVec.ofNat 32 f)) ∧
      Writes (.bfi d a b) d (three d a b (fun x y c =>
        let pos := y.toNat % 32
        let len := min (y.toNat / 256 % 64) (32 - pos)
        BitVec.ofBoolListLE ((List.range 32).map (fun i => if pos ≤ i ∧ i < pos + len then x.getLsbD (i - pos) else c.getLsbD i))))) ∧
  -- R266, R146: the logic, shift and comparison immediates, MOVI sign-extended and MOVHI in bits 31 to 13.
  (
    ∀ (d a : Opd) (imm : BitVec 13) (n : BitVec 5) (c : BitVec 10) (k : BitVec 19),
      Writes (.andi d a imm) d (one a (fun x => x &&& BitVec.ofNat 32 imm.toNat)) ∧
      Writes (.ori d a imm) d (one a (fun x => x ||| BitVec.ofNat 32 imm.toNat)) ∧
      Writes (.xori d a imm) d (one a (fun x => x ^^^ BitVec.ofNat 32 imm.toNat)) ∧
      Writes (.shiShrl d a n) d (one a (fun x => x >>> n.toNat)) ∧
      Writes (.shiShra d a n) d (one a (fun x => x.sshiftRight n.toNat)) ∧
      Writes (.shiRotl d a n) d (one a (fun x => x.rotateLeft n.toNat)) ∧
      Writes (.isetiEq d a c) d (one a (fun x => if x = BitVec.ofInt 32 c.toInt then 1 else 0)) ∧
      Writes (.isetiNe d a c) d (one a (fun x => if x = BitVec.ofInt 32 c.toInt then 0 else 1)) ∧
      Writes (.isetiLt d a c) d (one a (fun x => if x.toInt < c.toInt then 1 else 0)) ∧
      Writes (.isetiLe d a c) d (one a (fun x => if x.toInt ≤ c.toInt then 1 else 0)) ∧
      Writes (.isetiLtu d a c) d (one a (fun x => if x.toNat < (BitVec.ofInt 32 c.toInt).toNat then 1 else 0)) ∧
      Writes (.isetiLeu d a c) d (one a (fun x => if x.toNat ≤ (BitVec.ofInt 32 c.toInt).toNat then 1 else 0)) ∧
      Writes (.movi d k) d (fun _ _ _ _ => (BitVec.ofInt 32 k.toInt, 0)) ∧
      Writes (.movhi d k) d (fun _ _ _ _ => (BitVec.ofNat 32 (k.toNat * 2 ^ 13), 0))) ∧
  -- R31, R267: a compact form takes d as its first source and, in a unit of its own, behaves as the long form without a prefix;
  -- MOV copies and NOT complements.
  (
    ∀ (d : Opd) (r : BitVec 5),
      let wrapped (i : Instr) (f : Word → Word → Word) : Prop :=
        ∀ s fo w, GroupRuns s fo w → fo.pfx = none →
          ∃ t, exec i s = .next t ∧
            GroupEnds s t fo w (resultEnd fo w d (fun l ln => f (readOpd w l ln d) (readOpd w l ln (.b r))) (fun _ _ => 0))
              (gWritten fo w d (fun l ln => f (readOpd w l ln d) (readOpd w l ln (.b r))))
      wrapped (.movC16 d r) (fun _ y => y) ∧
      wrapped (.iaddC16 d r) (fun x y => x + y) ∧
      wrapped (.isubC16 d r) (fun x y => x - y) ∧
      wrapped (.imulC16 d r) (fun x y => x * y) ∧
      wrapped (.andC16 d r) (fun x y => x &&& y) ∧
      wrapped (.orC16 d r) (fun x y => x ||| y) ∧
      wrapped (.xorC16 d r) (fun x y => x ^^^ y) ∧
      wrapped (.shlC16 d r) (fun x y => x <<< (y.toNat % 32)) ∧
      wrapped (.shrlC16 d r) (fun x y => x >>> (y.toNat % 32)) ∧
      wrapped (.shraC16 d r) (fun x y => x.sshiftRight (y.toNat % 32)) ∧
      wrapped (.isetltC16 d r) (fun x y => if x.slt y then 1 else 0) ∧
      wrapped (.not d r) (fun _ y => ~~~y))

/-- FP32 arithmetic, comparisons and conversions complete with the rounded result and flags; FADD traps UNINIT and FP_EXC. -/
def Obligations.FloatResults : Prop :=
  -- R273, R285: the arithmetic of FLT and its compact forms, where no operand is a trapping marker and no raised flag is enabled:
  -- the correctly rounded result under the lane's mode and the prefix's; FABS and FNEG change bit 31 alone.
  (
    ∀ (d a b : Opd) (r : BitVec 5),
      Floats2 (.fadd d a b) d a b (fun c x y => (fpAdd fp32 c x y).word) ∧
      Floats2 (.fsub d a b) d a b (fun c x y => (fpSub fp32 c x y).word) ∧
      Floats2 (.fmul d a b) d a b (fun c x y => (fpMul fp32 c x y).word) ∧
      Floats3 (.ffma d a b) d a b (fun c x y z => (fpFma fp32 c x y z).word) ∧
      Floats2 (.fmin d a b) d a b (fun c x y => (fpMinMax fp32 c false x y).word) ∧
      Floats2 (.fmax d a b) d a b (fun c x y => (fpMinMax fp32 c true x y).word) ∧
      Writes (.fabs d a) d (one a (fun x => BitVec.ofNat 32 (x.toNat % 2 ^ 31))) ∧
      Writes (.fneg d a) d (one a (fun x => BitVec.ofNat 32 ((x.toNat + 2 ^ 31) % 2 ^ 32))) ∧
      Floats2 (.faddC16 d r) d d (.b r) (fun c x y => (fpAdd fp32 c x y).word) ∧
      Floats2 (.fmulC16 d r) d d (.b r) (fun c x y => (fpMul fp32 c x y).word) ∧
      Floats2 (.fmaxC16 d r) d d (.b r) (fun c x y => (fpMinMax fp32 c true x y).word) ∧
      Floats2 (.fminC16 d r) d d (.b r) (fun c x y => (fpMinMax fp32 c false x y).word)) ∧
  -- R274 to R280: comparisons write 1 or 0, an unordered pair making FSETNE and FSETUN true; FCLASS sets one bit; roundings and
  -- conversions between integers, FP32, BF16 and FP16.
  (
    ∀ (d a b : Opd),
      Floats2 (.fseteq d a b) d a b (fun c x y => setWord (fpSet c.ftz (fun o => o == .eq) false false x y)) ∧
      Floats2 (.fsetne d a b) d a b (fun c x y => setWord (fpSet c.ftz (fun o => o != .eq) true false x y)) ∧
      Floats2 (.fsetlt d a b) d a b (fun c x y => setWord (fpSet c.ftz (fun o => o == .lt) false true x y)) ∧
      Floats2 (.fsetle d a b) d a b (fun c x y => setWord (fpSet c.ftz (fun o => o != .gt) false true x y)) ∧
      Floats2 (.fsetun d a b) d a b (fun c x y => setWord (fpSet c.ftz (fun _ => false) true false x y)) ∧
      Writes (.fclass d a) d (one a (fun x => BitVec.ofNat 32 (fpClass x.toNat))) ∧
      (∀ x : Nat, ∃ k, k < 10 ∧ fpClass x = 2 ^ k) ∧
      Floats1 (.frnd d a) d a (fun c x => (fpRound c x).word) ∧
      Floats1 (.fcvti d a) d a (fun c x => (BitVec.ofInt 32 (fpToInt c (-2 ^ 31) (2 ^ 31 - 1) x).1, (fpToInt c (-2 ^ 31) (2 ^ 31 - 1) x).2)) ∧
      Floats1 (.fcvtui d a) d a (fun c x => (BitVec.ofInt 32 (fpToInt c 0 (2 ^ 32 - 1) x).1, (fpToInt c 0 (2 ^ 32 - 1) x).2)) ∧
      FloatsBits (.icvtf d a) d a (fun c x => (fpOfInt c.mode x.toInt).word) ∧
      FloatsBits (.ucvtf d a) d a (fun c x => (fpOfInt c.mode x.toNat).word) ∧
      Floats2 (.fpkbf d a b) d a b (fun c x y => packRes (fpConvert fp32 bf16 c x) (fpConvert fp32 bf16 c y)) ∧
      Floats2 (.fpkh d a b) d a b (fun c x y => packRes (fpConvert fp32 fp16 c x) (fpConvert fp32 fp16 c y)) ∧
      FloatsBits (.fupbfl d a) d a (fun c x => (fpWiden bf16 c.ftz (x.toNat % 2 ^ 16)).word) ∧
      FloatsBits (.fupbfh d a) d a (fun c x => (fpWiden bf16 c.ftz (x.toNat / 2 ^ 16)).word) ∧
      FloatsBits (.fuphl d a) d a (fun c x => (fpWiden fp16 c.ftz (x.toNat % 2 ^ 16)).word) ∧
      FloatsBits (.fuphh d a) d a (fun c x => (fpWiden fp16 c.ftz (x.toNat / 2 ^ 16)).word)) ∧
  -- R83, R79: a floating instruction whose lane reads a marker with UNINITEN set, or raises an enabled flag, traps there: UNINIT
  -- first, with the marker, else FP_EXC with the flags; here for FADD in a group of one lane.
  (
    ∀ (d a b : Opd) (s : State) (fo : Focus) (w : Wave) (l : Nat) (ln : Lane), Solo s fo w l ln → fo.pfx = none →
      let x := readOpd w l ln a
      let y := readOpd w l ln b
      let r := fpAdd fp32 (fpCtx ln none) x.toNat y.toNat
      (ln.fpmode.getLsbD 4 = true → isMarker x = true → exec (.fadd d a b) s = .next (takeTrap s fo.wave l (Trap.mk 0x08 0 x) false fo.len)) ∧
      (ln.fpmode.getLsbD 4 = true → isMarker x = false → isMarker y = true →
        exec (.fadd d a b) s = .next (takeTrap s fo.wave l (Trap.mk 0x08 0 y) false fo.len)) ∧
      (ln.fpmode.getLsbD 4 = false → fpTraps ln r.flags = true →
        exec (.fadd d a b) s = .next (takeTrap s fo.wave l (Trap.mk 0x09 0 (r.flags.zeroExtend 32)) false fo.len)))

/-- The packed half-precision instructions and the special functions complete with their results. -/
def Obligations.PackedAndSpecialResults : Prop :=
  -- R283, R284: the packed functions work on each half by itself, their flags together; HDOT2 sums both products and the
  -- accumulator into one FP32.
  (
    ∀ (d a b : Opd),
      let halves (f : Nat → Nat → FRes) (x y : Nat) : Word × Flags :=
        (BitVec.ofNat 32 ((f (x % 2 ^ 16) (y % 2 ^ 16)).bits + 2 ^ 16 * (f (x / 2 ^ 16 % 2 ^ 16) (y / 2 ^ 16 % 2 ^ 16)).bits),
          (f (x % 2 ^ 16) (y % 2 ^ 16)).flags ||| (f (x / 2 ^ 16 % 2 ^ 16) (y / 2 ^ 16 % 2 ^ 16)).flags)
      Floats2 (.hadd2Bf d a b) d a b (fun c => halves (fpAdd bf16 c)) ∧
      Floats2 (.hmul2Bf d a b) d a b (fun c => halves (fpMul bf16 c)) ∧
      Floats3 (.hfma2Bf d a b) d a b (fun c x y z => packedFma bf16 c x y z) ∧
      Floats2 (.hmax2Bf d a b) d a b (fun c => halves (fpMinMax bf16 c true)) ∧
      Floats2 (.hmin2Bf d a b) d a b (fun c => halves (fpMinMax bf16 c false)) ∧
      Floats3 (.hdot2Bf d a b) d a b (fun c x y z => packedDot bf16 c x y z) ∧
      Floats2 (.hadd2H d a b) d a b (fun c => halves (fpAdd fp16 c)) ∧
      Floats2 (.hmul2H d a b) d a b (fun c => halves (fpMul fp16 c)) ∧
      Floats3 (.hfma2H d a b) d a b (fun c x y z => packedFma fp16 c x y z) ∧
      Floats2 (.hmax2H d a b) d a b (fun c => halves (fpMinMax fp16 c true)) ∧
      Floats2 (.hmin2H d a b) d a b (fun c => halves (fpMinMax fp16 c false)) ∧
      Floats3 (.hdot2H d a b) d a b (fun c x y z => packedDot fp16 c x y z)) ∧
  -- R282: the special functions complete with their correctly rounded results.
  (
    ∀ (d a b : Opd),
      Floats1 (.frcp d a) d a (fun c x => (fpRcp c x).word) ∧
      Floats1 (.frsq d a) d a (fun c x => (fpRsqrt c x).word) ∧
      Floats1 (.fsqrt d a) d a (fun c x => (fpSqrt c x).word) ∧
      Floats1 (.fex2 d a) d a (fun c x => (fpExp2 c x).word) ∧
      Floats1 (.flg2 d a) d a (fun c x => (fpLog2 c x).word) ∧
      Floats1 (.fsin d a) d a (fun c x => (fpSin c x).word) ∧
      Floats1 (.fcos d a) d a (fun c x => (fpCos c x).word) ∧
      Floats1 (.ftanh d a) d a (fun c x => (fpTanh c x).word) ∧
      Floats2 (.fdiv d a b) d a b (fun c x y => (fpDiv c x y).word))

/-- R292: ACTIVE writes to each lane the mask of the lanes of its own issue group. -/
def Obligations.ActiveLanes : Prop :=
  ∀ (d : Opd) (s : State) (fo : Focus) (w : Wave), GroupRuns s fo w → (∀ l ∈ fo.lanes, l < 32) →
    ∃ m : Word, (∀ i, i < 32 → m.getLsbD i = decide (i ∈ fo.lanes)) ∧
      ∃ t, exec (.active d) s = .next t ∧ GroupEnds s t fo w (resultEnd fo w d (fun _ _ => m) (fun _ _ => 0)) (gWritten fo w d (fun _ _ => m))

/-- R32, R301: NOP, NOP16 and YIELD only advance; a prefix word only opens its unit (R42). RECONV goes on where the lanes split from its
lane have reached it or have ended, or wait elsewhere, and waits otherwise (R300); the start of its limit is the count of the part's
steps, each a clock (log entry 77, DEDUCED). -/
def Obligations.NoEffectInstructions : Prop :=
  Ends .nop (fun _ _ _ _ _ => True) (fun _ fo _ _ ln => ln.advance fo.next) ∧
  Ends .nop16 (fun _ _ _ _ _ => True) (fun _ fo _ _ ln => ln.advance fo.next) ∧
  Ends .yield (fun _ _ _ _ _ => True) (fun _ fo _ _ ln => ln.advance fo.next) ∧
  -- the lanes that were split from this one, and those it was split from, by what has become of them
  (∀ s fo w l ln, Solo s fo w l ln → ln.wait = none →
    let s1 := s.modWave fo.wave (fun x => x.reached [l] fo.pc)
    let go := (∀ j ∈ ln.split, ∀ x, w.lane j = some x → j = l ∨ x.pc = fo.pc ∨ (fo.pc, j) ∈ ln.met) ∨
      (∃ j ∈ ln.split, ∃ x, w.lane j = some x ∧ x.pc ≠ fo.pc ∧ x.waitsElsewhere = true)
    (go → exec .reconv s = .next ((s1.modLane fo.wave l (fun x => { x with split := [], met := [] })).passes fo l)) ∧
    (¬ go → exec .reconv s = .next (s1.waitWith fo.wave l (.reconv ln.split) 0 (natLe 8 s.freeCtr))) ∧
    ∀ j, (w.reached [l] fo.pc).lane j = (w.lane j).map (fun x =>
      if l ∈ x.split ∧ (fo.pc, l) ∉ x.met then { x with met := (fo.pc, l) :: x.met } else x)) ∧
  (∀ (p : PfxFields) (s : State) (fo : Focus), s.focus = some fo →
    exec (.pfx p) s = .next { s with focus := some { fo with pfx := some p } })

/-- Branches, calls, returns and JMPR reach their targets, with the return stack of R295 and the traps of R296. TRAPVA of POISON at a spill
is the private offset (log entry 94, DESIGN CHOICE). -/
def Obligations.ControlTransfers : Prop :=
  -- R293, R298: a branch goes to its target or to the next unit, each lane by itself; JMPR goes to an even pair; nothing else
  -- changes.
  (
    ∀ (c a : Opd) (off : BitVec 19) (far : BitVec 25),
      Ends (.bz c off) (fun _ _ _ _ _ => True) (fun _ fo w l ln =>
        ln.advance (if readOpd w l ln c = 0 then fo.pc + 2 * off.signExtend 64 else fo.next)) ∧
      Ends (.bnz c off) (fun _ _ _ _ _ => True) (fun _ fo w l ln =>
        ln.advance (if readOpd w l ln c = 0 then fo.next else fo.pc + 2 * off.signExtend 64)) ∧
      Ends (.bra far) (fun _ _ _ _ _ => True) (fun _ fo _ _ ln => ln.advance (fo.pc + 2 * far.signExtend 64)) ∧
      Ends (.jmpr a) (fun _ _ w l ln => (readOpd w l ln a).getLsbD 0 = false)
        (fun _ _ w l ln => ln.advance (readOpd w l ln (opdPlus a 1) ++ readOpd w l ln a)) ∧
      (∀ s fo w l ln, Solo s fo w l ln → (readOpd w l ln a).getLsbD 0 = true →
        exec (.jmpr a) s = .next (s.traps fo l 0x12 (readOpd w l ln (opdPlus a 1) ++ readOpd w l ln a).toNat 0))) ∧
  -- R296: CALL and CALLR push the address after them and go to their target, where a REGION is expected; a full stack traps
  -- STACK_OVF with 0, an odd target of CALLR traps ALIGN first; a spill traps ALIGN at an offset that is no multiple of 8, POISON in a
  -- poisoned line. With fewer than four entries on the chip nothing is spilled. A stack deeper than STKLIM allows is full too (log entry
  -- 106, DEDUCED).
  (
    ∀ (off : BitVec 25) (a : Opd) (s : State) (fo : Focus) (w : Wave) (l : Nat) (ln : Lane), Solo s fo w l ln →
      let full := 4 + ln.stklim.toNat / 8 ≤ ln.depth
      let target : VA := readOpd (w.asSeen ln) l ln (opdPlus a 1) ++ readOpd (w.asSeen ln) l ln a
      let called (t : VA) : State := (s.pushLane fo.wave l w ln fo.next).modLane fo.wave l (fun x => x.jumped t 2)
      let free := s.spillTrap fo.wave l (spills w ln) = none
      (¬ full → free → exec (.call off) s = .next (called (fo.pc + 2 * off.signExtend 64))) ∧
      (∀ o line, ¬ full → s.spillTrap fo.wave l (spills w ln) = some (poisonAt o line) →
        exec (.call off) s = .next (takeTrap s fo.wave l (poisonAt o line) false fo.len)) ∧
      (¬ full → ln.stack.length = 4 → w.privBytes % 8 ≠ 0 → 8 * (ln.depth - 4 + 1) ≤ w.privBytes →
        exec (.call off) s = .next (s.traps fo l 0x12 (w.privBytes - 8 * (ln.depth - 4 + 1)) 0)) ∧
      (ln.stack.length < 4 → free ∧ s.pushLane fo.wave l w ln fo.next = s.modLane fo.wave l (fun x => x.push w fo.next)) ∧
      (full → exec (.call off) s = .next (s.traps fo l 0x18 0 0)) ∧
      (target.getLsbD 0 = true → exec (.callr a) s = .next (s.traps fo l 0x12 target.toNat 0)) ∧
      (target.getLsbD 0 = false → ¬ full → free → exec (.callr a) s = .next (called target)) ∧
      (target.getLsbD 0 = false → full → exec (.callr a) s = .next (s.traps fo l 0x18 0 0)) ∧
      (ln.push w fo.next).depth = ln.depth + 1 ∧
      (ln.push w fo.next).stack.head? = some (fo.next &&& 0x1FFFFFFFFFFFFFF) ∧
      (ln.stack.length < 4 → (ln.push w fo.next).stack.tail = ln.stack ∧ (ln.push w fo.next).priv = ln.priv) ∧
      (ln.stack.length = 4 → (ln.push w fo.next).stack.tail = ln.stack.take 3 ∧
        ln.push w fo.next = { ln.privWrite (w.privBytes - 8 * (ln.depth - 4 + 1)) (natLe 8 (ln.stack.getD 3 0).toNat) with
          stack := (fo.next &&& 0x1FFFFFFFFFFFFFF) :: ln.stack.take 3, depth := ln.depth + 1 })) ∧
  -- R296: RET pops the newest entry and goes there, where a REGION is expected; an empty stack traps STACK_OVF with 1, an odd
  -- entry ALIGN. A pop leaves the entries below it, the newest spilled one read back when four stay; a poisoned line of it traps
  -- POISON.
  (
    ∀ (s : State) (fo : Focus) (w : Wave) (l : Nat) (ln : Lane), Solo s fo w l ln →
      let t := ln.stack.headD 0
      (ln.depth = 0 → exec .ret s = .next (s.traps fo l 0x18 0 1)) ∧
      (ln.depth ≠ 0 → t.getLsbD 0 = true → exec .ret s = .next (s.traps fo l 0x12 t.toNat 0)) ∧
      (ln.depth ≠ 0 → t.getLsbD 0 = false → ln.depth = ln.stack.length →
        exec .ret s = .next (s.modLane fo.wave l (fun x => ({ x with stack := ln.stack.tail, depth := ln.depth - 1 } : Lane).jumped t 3))) ∧
      (∀ o line, t.getLsbD 0 = false → ln.depth ≠ 0 → s.spillTrap fo.wave l (refills w ln) = some (poisonAt o line) →
        exec .ret s = .next (takeTrap s fo.wave l (poisonAt o line) false fo.len)) ∧
      (t.getLsbD 0 = false → ln.stack.length = 4 → 4 < ln.depth → s.spillTrap fo.wave l (some (w.privBytes - 8 * (ln.depth - 4))) = none →
        exec .ret s = .next (s.modLane fo.wave l (fun x =>
          ({ x with
              stack := ln.stack.tail ++ [BitVec.ofNat 64 (leNat (s.privRead l ln (w.privBytes - 8 * (ln.depth - 4)) 8))],
              depth := ln.depth - 1 } : Lane).jumped t 3))))

/-- EXIT ends its lane, TRAP, BREAK and SVC take their traps, ERET returns from a handler. -/
def Obligations.ExitTrapsAndReturn : Prop :=
  -- R302: EXIT ends the lane: its wave no longer has it, no lane of any wave stands elsewhere than before, and memory is as it
  -- was; its trap registers keep their values (log entry 108, DESIGN CHOICE); TRAP, BREAK and SVC take their traps.
  (
    ∀ (a : Opd) (s : State) (fo : Focus) (w : Wave) (l : Nat) (ln : Lane), Solo s fo w l ln →
      (∃ t, exec .exitLane s = .next t ∧ t.lane fo.wave l = none ∧ t.mem = s.mem ∧ t.cores = s.cores ∧
        t.exited = (fo.wave, l, [ln.cause, ln.trapPc, ln.vaLo, ln.vaHi, ln.aux, ln.trapRegion]) :: s.exited ∧
        (∀ u j x, (u ≠ fo.wave ∨ j ≠ l) → s.lane u j = some x → ∃ y, t.lane u j = some y ∧ y = { x with wait := y.wait, parked := y.parked }) ∧
        ∃ v, t.wave fo.wave = some v ∧ v.g = w.g ∧ v.tiles = w.tiles) ∧
      exec (.trapInstr a) s = .next (s.traps fo l 0x3D 0 (readOpd w l ln a)) ∧
      exec .breakTrap s = .next (s.traps fo l 0x3E 0 0) ∧
      exec (.svc a) s = .next (s.traps fo l 0x3F 0 (readOpd w l ln a))) ∧
  -- R425: ERET, in a handler: the user bank with the value of a where the control word asks for it, PRIV as it was, INTRAP 0, and
  -- the PC that RESUME gives: the trapping unit again, the one after it, or the restart point in restart mode; outside a handler
  -- ILLEGAL_INSTR, with a bad control word ILLEGAL_OPERAND, and with an odd address to resume at ALIGN (nested traps; log entry 79,
  -- DEDUCED). What an interrupted instruction has done so far stays only where that instruction is executed again.
  (
    ∀ (a b : Opd) (s : State) (fo : Focus) (w : Wave) (l : Nat) (ln : Lane), Single s fo w l ln → ln.isPriv = true →
      let c := readOpd w l ln b
      let v := readOpd w l ln a
      let full : VA := BitVec.ofNat 64 (ln.trapPc.toNat + 2 ^ 32 * wbits ln.privState 24 0)
      let user := if c.getLsbD 31 then { ln.user with b := sput ln.user.b (wbits c 4 0) v, e0 := v, e1 := ln.user.e0 } else ln.user
      let resume := wbits ln.privState 28 27
      let unit := if wbits ln.privState 26 25 = 0 then 2 else if wbits ln.privState 26 25 = 1 then 4 else 8
      let target : VA := if resume = 1 then full + BitVec.ofNat 64 unit else if resume = 2 then ln.user.restartPc else full
      (ln.inTrap = false → exec (.eret a b) s = .next (s.traps fo l 0x01 0 fo.word)) ∧
      (ln.inTrap = true → wbits c 30 5 ≠ 0 → exec (.eret a b) s = .next (s.traps fo l 0x02 0 fo.word)) ∧
      (ln.inTrap = true → wbits c 30 5 = 0 → target.getLsbD 0 = true → exec (.eret a b) s = .next (s.traps fo l 0x12 target.toNat 0)) ∧
      (ln.inTrap = true → wbits c 30 5 = 0 → target.getLsbD 0 = false →
        ∃ e : Lane, exec (.eret a b) s = .next (s.modLane fo.wave l (fun _ => e)) ∧
          e = { ln with user := e.user, privState := e.privState, pc := target, wait := none, joined := e.joined, parked := e.parked } ∧
          (resume = 1 ∨ resume = 2 → e.joined = none ∧ e.parked = []) ∧
          (resume = 0 ∨ resume = 3 → e.joined = ln.joined.filter (fun j => j.1 == full) ∧
            e.parked = ln.parked.filter (fun q => !q.inTrap && q.pc == full)) ∧
          e.inTrap = false ∧ e.isPriv = ln.privState.getLsbD 30 ∧ (∀ i, i < 31 → i ≠ 29 → e.privState.getLsbD i = ln.privState.getLsbD i) ∧
          (e.user.b, e.user.e0, e.user.e1, e.user.restartPc, e.user.curDesc, e.user.tail) =
            (user.b, user.e0, user.e1, user.restartPc, user.curDesc, user.tail) ∧
          (resume = 1 → e.user.counted = false) ∧ (resume = 2 → e.user.restart = true) ∧
          (resume = 0 ∨ resume = 3 → e.user.counted = ln.user.counted ∧ e.user.restart = ln.user.restart)))

/-- Taking a trap records and changes what R419 to R421 say; a nested one or one without a handler is fatal, a TRAPVEC whose word cannot
be fetched among the latter (log entry 18, DEDUCED). -/
def Obligations.TrapsTaken : Prop :=
  -- R419, R420, R421: taking a trap outside a handler, TRAPVEC naming a REGION: the cause, the address, TRAPVA, TRAPAUX, the tail
  -- and the resume are recorded, PRIV is saved and set, INTRAP is set, the user bank stays, the trap bank is fresh with its
  -- restart point at TRAPVEC, the PC is TRAPVEC; every other register of the lane and all else in the package stays.
  (
    ∀ (s : State) (u l : Nat) (w : Wave) (ln : Lane) (cause va : Nat) (aux : Word) (next : Bool) (len : Nat),
      s.wave u = some w → w.lane l = some ln → ln.inTrap = false → w.st ≠ .saving → (len = 2 ∨ len = 4 ∨ len = 8) →
      (s.ctx w.asid).trapVec ≠ 0 → (s.ctx w.asid).trapVec.getLsbD 0 = false →
      s.regionAt w (s.ctx w.asid).trapVec.toNat = true →
      let vec : VA := (s.ctx w.asid).trapVec.zeroExtend 64
      ∃ e : Lane, takeTrap s u l (Trap.mk cause va aux) next len = s.setWave u (w.setLane l e) ∧
        e = { ln with
                pc := vec, trap := Bank.fresh vec, wait := none, cause := BitVec.ofNat 32 cause, trapPc := ln.pc.extractLsb' 0 32,
                vaLo := BitVec.ofNat 32 va, vaHi := BitVec.ofNat 32 (va / 2 ^ 32), aux := aux, trapRegion := e.trapRegion,
                privState := e.privState, held := none } ∧
        e.isPriv = true ∧ e.inTrap = true ∧ e.privState.getLsbD 30 = ln.isPriv ∧ wbits e.privState 24 0 = wbits (ln.pc.extractLsb' 32 32) 24 0 ∧
        wbits e.privState 26 25 = (if len = 2 then 0 else if len = 4 then 1 else 2) ∧
        wbits e.privState 28 27 = (if next then 1 else if restartable cause then (if ln.user.tail = 0 then 2 else 0)
          else if cause = 0x28 ∨ cause = 0x3D ∨ cause = 0x3E ∨ cause = 0x3F then 1 else 0) ∧
        e.trapRegion.getLsbD 31 = (ln.user.tail != 0) ∧ wbits e.trapRegion 30 26 = ln.user.tail % 32 ∧ wbits e.trapRegion 25 0 = 0) ∧
  -- R423: a trap in a handler, or without a REGION at TRAPVEC, is fatal: it is counted, and the lane ends as EXIT does, its trap
  -- registers dropped.
  (
    ∀ (s : State) (u l : Nat) (w : Wave) (ln : Lane) (cause va : Nat) (aux : Word) (next : Bool) (len : Nat),
      s.wave u = some w → w.lane l = some ln → w.st ≠ .saving →
      (ln.inTrap = true ∨ (s.ctx w.asid).trapVec = 0 ∨ s.regionAt w ((s.ctx w.asid).trapVec &&& 0xFFFFFFFE).toNat = false) →
      let t := takeTrap s u l (Trap.mk cause va aux) next len
      t.fatalTraps = s.fatalTraps + 1 ∧ t.exited = s.exited ∧
      ∃ s', exec .exitLane { s with fatalTraps := s.fatalTraps + 1, focus := some (Focus.mk u [l] ln.pc 4 0 none) } = .next s' ∧
        t.waves = s'.waves ∧ t.blocks = s'.blocks)

/-- MOVM, MOVG, MOVC and LDL write the register or the literal they name; what each control register reads. A fetch that needs another
package asks as log entry 105 (DEDUCED) says. -/
def Obligations.RegisterReads : Prop :=
  -- R258, R245: MOVM, MOVG and MOVC write a register of their file to v; MOVM beyond the footprint, and MOVC of an index from 256
  -- outside privileged mode, trap.
  (
    ∀ (v : Opd) (n : BitVec 9),
      WritesAlone (.movm v n) v (fun _ _ w _ _ => n.toNat < w.regs) (fun _ _ _ _ ln => ln.mreg n.toNat) ∧
      WritesAlone (.movg v n) v (fun _ _ _ _ _ => True) (fun _ _ w _ _ => w.greg n.toNat) ∧
      WritesAlone (.movc v n) v (fun _ _ _ _ ln => n.toNat < 256 ∨ ln.isPriv = true) (fun s _ w _ ln => readCtl s w ln n.toNat) ∧
      (∀ s fo w l ln, Solo s fo w l ln → w.regs ≤ n.toNat → exec (.movm v n) s = .next (s.traps fo l 0x02 0 fo.word)) ∧
      (∀ s fo w l ln, Solo s fo w l ln → 256 ≤ n.toNat → ln.isPriv = false → exec (.movc v n) s = .next (s.traps fo l 0x06 0 fo.word))) ∧
  -- R255, R420: what MOVC reads at each index of the lane, the wave, the context and the package.
  (
    ∀ (s : State) (fo : Focus) (w : Wave) (ln : Lane), s.focus = some fo →
      [0, 1, 4, 22, 256, 257, 258, 259, 260, 261, 262].map (readCtl s w ln) =
        [ln.fpmode, ln.fpflags, ln.homehint, ln.stklim, ln.cause, ln.trapPc, ln.vaLo, ln.vaHi, ln.aux, ln.trapRegion, ln.privState] ∧
      (readCtl s w ln 2).toNat = fo.pc.toNat % 2 ^ 32 ∧ (readCtl s w ln 27).toNat = fo.pc.toNat / 2 ^ 32 % 2 ^ 25 ∧
      (readCtl s w ln 3).toNat = ln.bank.restartPc.toNat % 2 ^ 32 ∧ (readCtl s w ln 28).toNat = ln.bank.restartPc.toNat / 2 ^ 32 % 2 ^ 25 ∧
      (w.die < 6 → readCtl s w ln 5 = BitVec.ofNat 32 w.die) ∧ (readCtl s w ln 6 = BitVec.ofNat 32 w.core) ∧
      (readCtl s w ln 23 = BitVec.ofNat 32 ln.depth) ∧ (readCtl s w ln 24).toNat = w.asid % 65536 ∧ readCtl s w ln 25 = w.launchId ∧
      (readCtl s w ln 26).toNat = w.prio % 8 ∧ readCtl s w ln 263 = (s.ctx w.asid).trapVec ∧ readCtl s w ln 264 = s.linkTrapW ∧
      readCtl s w ln 265 = s.clkStretch ∧ (∀ i, 8 ≤ i → i ≤ 21 → readCtl s w ln i = sgetD w.ctl i 0)) ∧
  -- R147: LDL writes the word at (pc rounded down to 4) + 4·imm, by one translation with the X permission: fetched as code, and on a
  -- register page the register, as the w read that R103 allows there (log entry 21, DEDUCED); a fetch that faults is its trap.
  (
    ∀ (d : Opd) (imm : BitVec 19) (s : State) (fo : Focus) (w : Wave) (l : Nat) (ln : Lane), Single s fo w l ln →
      let va := ((fo.pc &&& ~~~3#64) + 4 * imm.zeroExtend 64).toNat
      (∀ t bs s1, s.translate (fetchAcc w.asid ln.isPriv) va = .ok t → t.kind ≠ .mmio →
        s.fetchFrom w.coreKey (fetchAcc w.asid ln.isPriv) va 4 t = .ok (bs, s1) →
        exec (.ldl d imm) s = .next (s1.completes fo l d [wordAt bs 0] 0) ∧ s1.mem = s.mem ∧ s1.waves = s.waves) ∧
      (∀ t, s.translate (fetchAcc w.asid ln.isPriv) va = .ok t → t.kind = .mmio → s.reachable t = true →
        exec (.ldl d imm) s = .next ((s.noteTlb w.asid t).completes fo l d [s.mmioWord (localOf t.pa - mmioBase)] 0)) ∧
      (∀ t, s.literal w ln.isPriv va = .error t → t.need = none → t.cause ≠ 0 →
        exec (.ldl d imm) s = .next (takeTrap s fo.wave l t false fo.len)))

/-- MOVMW, MOVGW and MOVTC write the register they name and nothing else. -/
def Obligations.RegisterWrites : Prop :=
  -- R258, R247, R254: MOVMW writes one m register, unless its descriptor loads it (REGION_FORM 4) or it lies beyond the
  -- footprint; MOVGW writes the lowest lane's word to one g register.
  (
    ∀ (v : Opd) (n : BitVec 9),
      (∀ s fo w l ln, Solo s fo w l ln → w.regs ≤ n.toNat → exec (.movmw v n) s = .next (s.traps fo l 0x02 0 fo.word)) ∧
      (∀ s fo w l ln, Solo s fo w l ln → n.toNat < w.regs → ln.bank.curDesc = none →
        exec (.movmw v n) s = .next ((s.modLane fo.wave l (fun x => { x with m := sput x.m n.toNat (readOpd w l ln v) })).passes fo l)) ∧
      (∀ s fo w l ln va cd s1, Solo s fo w l ln → n.toNat < w.regs → ln.bank.curDesc = some va →
        readDesc s w ln.isPriv va.toNat = .ok (cd, s1) →
        ((∀ e ∈ cd.loads, e.1 ≠ n.toNat) →
          exec (.movmw v n) s = .next ((s1.modLane fo.wave l (fun x => { x with m := sput x.m n.toNat (readOpd w l ln v) })).passes fo l)) ∧
        ((∃ e ∈ cd.loads, e.1 = n.toNat) → exec (.movmw v n) s = .next (s1.traps fo l 0x05 0 4))) ∧
      (∀ s fo w, GroupRuns s fo w → ∃ t, exec (.movgw v n) s = .next t ∧
        GroupEnds s t fo w (fun _ ln => ln.advance fo.next) (fun r =>
          if r = n.toNat then (fo.lanes.head?.bind w.lane).map (fun ln => readOpd w (fo.lanes.headD 0) ln v) else none))) ∧
  -- R258, R255, R420, R421: MOVTC. Each register takes the bits software may write: FPMODE its ten, FPFLAGS only clears, HOMEHINT
  -- three, STKLIM at most the private bytes, the trap registers their RW bits, the shapes and dropout registers of the wave
  -- theirs, KSTATUS only clears, TRAPVEC bits 31 to 1, LINKTRAPW all; a read-only one is left; nothing else changes.
  (
    ∀ (v : Opd) (n : BitVec 9) (s : State) (fo : Focus) (w : Wave) (l : Nat) (ln : Lane), Solo s fo w l ln →
      let x := readOpd w l ln v
      let lanewise (f : Lane → Lane) : Prop := exec (.movtc v n) s = .next ((s.modLane fo.wave l f).passes fo l)
      let wavewise (y : Word) : Prop :=
        exec (.movtc v n) s = .next ((s.passes fo l).modWave fo.wave (fun w => { w with ctl := sput w.ctl n.toNat y }))
      (256 ≤ n.toNat → ln.isPriv = false → exec (.movtc v n) s = .next (s.traps fo l 0x06 0 fo.word)) ∧
      (n = 0 → lanewise (fun y => { y with fpmode := x &&& 0x3FF })) ∧
      (n = 1 → lanewise (fun y => { y with fpflags := y.fpflags &&& x })) ∧
      (n = 4 → lanewise (fun y => { y with homehint := x &&& 7 })) ∧
      (n = 22 → lanewise (fun y => { y with stklim := if w.privBytes < x.toNat then BitVec.ofNat 32 w.privBytes else x })) ∧
      (n = 2 ∨ n = 3 ∨ n = 5 ∨ n = 6 ∨ n = 7 ∨ (23 ≤ n.toNat ∧ n.toNat ≤ 28) → lanewise id) ∧
      ((8 ≤ n.toNat ∧ n.toNat ≤ 15) ∨ n = 18 ∨ n = 20 → wavewise (x &&& 0x00FFFFFF)) ∧
      (n = 16 ∨ n = 17 ∨ n = 19 → wavewise x) ∧
      (n = 21 → wavewise (sgetD w.ctl 21 0 &&& x)) ∧
      (ln.isPriv = true →
        (n = 256 → lanewise (fun y => { y with cause := x &&& 0xFF })) ∧
        (n = 257 → lanewise (fun y => { y with trapPc := x })) ∧
        (n = 258 → lanewise (fun y => { y with vaLo := x })) ∧
        (n = 259 → lanewise (fun y => { y with vaHi := x })) ∧
        (n = 260 → lanewise (fun y => { y with aux := x })) ∧
        (n = 261 → lanewise (fun y => { y with trapRegion := x &&& 0xFC000000 })) ∧
        (n = 262 → lanewise (fun y => { y with privState := (y.privState &&& 0xA6000000) ||| (x &&& 0x59FFFFFF) })) ∧
        (n = 263 → exec (.movtc v n) s = .next ((s.modCtx w.asid (fun c => { c with trapVec := x &&& 0xFFFFFFFE })).passes fo l)) ∧
        (n = 264 → exec (.movtc v n) s = .next (({ s with linkTrapW := x } : State).passes fo l)) ∧
        (n = 265 → lanewise id)))

/-- R251, R252: REGION. With both descriptors well formed and inside the footprint: outside restart mode the current descriptor's
stores commit to the main file and the restart point moves here; then every b register takes its load, from the main file
after the commit, or its marker, e0 and e1 their markers, and the tail ends. A misaligned descriptor traps ALIGN, a bad one
REGION_FORM 5, before any effect. -/
def Obligations.RegionCommitsAndLoads : Prop :=
  ∀ (imm : BitVec 19) (s : State) (fo : Focus) (w : Wave) (l : Nat) (ln : Lane), Solo s fo w l ln →
    let dv := fo.pc + 2 * imm.signExtend 64
    (dv.toNat % 4 ≠ 0 → exec (.region imm) s = .next (s.traps fo l 0x12 dv.toNat 0)) ∧
    (∀ cd s1 nd s2, dv.toNat % 4 = 0 → currentDesc s w ln = .ok (cd, s1) → readDesc s1 w ln.isPriv dv.toNat = .ok (nd, s2) →
      ((cd.refused w || nd.refused w) = true → exec (.region imm) s = .next (s2.traps fo l 0x05 0 5)) ∧
      ((cd.refused w || nd.refused w) = false →
        ∃ e : Lane, exec (.region imm) s = .next (s2.modLane fo.wave l (fun _ => e)) ∧
          e = ({ ln with m := e.m, user := if ln.inTrap then ln.user else e.user, trap := if ln.inTrap then e.trap else ln.trap, pc := fo.next, wait := none } : Lane) ∧
          (∀ r, e.mreg r = match (if ln.bank.restart then none else cd.stores.reverse.find? (fun x => x.1 == r)) with
            | some x => ln.bank.reg x.2
            | none => ln.mreg r) ∧
          (∀ i, i < 32 → e.bank.reg i = match nd.loads.find? (fun x => x.2 == i) with
            | some x => e.mreg x.1
            | none => BitVec.ofNat 32 (0x7F804800 + i)) ∧
          e.bank.e0 = 0x7F804820 ∧ e.bank.e1 = 0x7F804821 ∧ e.bank.tail = 0 ∧ e.bank.restart = false ∧
          (ln.bank.restart = false → e.bank.restartPc = fo.pc ∧ e.bank.curDesc = some dv) ∧
          (ln.bank.restart = true → e.bank.restartPc = ln.bank.restartPc ∧ e.bank.curDesc = ln.bank.curDesc)))

/-- SYS functions trap PRIV outside privileged mode; TLBINV, TLBGEN, PREEMPT, RESUMEW, CORERST and ENGRST. What a core reset does to the
slots of its Slip jobs is log entry 114 (DEDUCED). -/
def Obligations.PrivilegedFunctions : Prop :=
  -- R47, R429: outside privileged mode every SYS function traps PRIV, whatever its operands, before anything else.
  (
    ∀ (a b : Opd) (s : State) (fo : Focus) (w : Wave) (l : Nat) (ln : Lane), Single s fo w l ln → ln.isPriv = false →
      ∀ i ∈ [Instr.eret a b, .tlbinv a, .tlbgen, .preempt a b, .resumew a b, .corerst a b, .engrst a b],
        exec i s = .next (s.traps fo l 0x06 0 fo.word)) ∧
  -- R430, R108, R154: TLBINV advances the generation of one context, so that no older translation of it stays. Once every access
  -- translated under an older generation has been performed, it completes: its core's L1 and instruction cache are clear, and
  -- nothing else but the PC changes; until then it waits. A lane with earlier accesses of its own on their way waits for those first.
  (
    ∀ (a : Opd) (s : State) (fo : Focus) (w : Wave) (l : Nat) (ln : Lane), Solo s fo w l ln → ln.isPriv = true →
      let asid := wbits (readOpd w l ln a) 15 0
      let adv := s.advanceGen asid
      let cleared (r t : State) : Prop := t = { r.passes fo l with cores := t.cores } ∧
        (t.core w.coreKey).l1 = [] ∧ (t.core w.coreKey).icache = [] ∧
        (∀ k, (t.core k).scratch = (r.core k).scratch ∧ (t.core k).slots = (r.core k).slots) ∧ ∀ k, k ≠ w.coreKey → t.core k = r.core k
      (ln.wait = none → s.fenceWait fo.wave l .pkg .all = none → adv.olderAccess (some asid) (adv.ctx asid).gen = false →
        ∃ t, exec (.tlbinv a) s = .next t ∧ cleared adv t) ∧
      (ln.wait = none → s.fenceWait fo.wave l .pkg .all = none → adv.olderAccess (some asid) (adv.ctx asid).gen = true →
        exec (.tlbinv a) s = .next (adv.waits fo l (.advance (some asid) (adv.ctx asid).gen))) ∧
      (∀ k, ln.wait = none → s.fenceWait fo.wave l .pkg .all = some k → exec (.tlbinv a) s = .next (s.waits fo l k)) ∧
      (∀ wt g, ln.wait = some wt → wt.kind = .advance (some asid) g → ∃ t, exec (.tlbinv a) s = .next t ∧ cleared s t) ∧
      (adv.ctx asid).gen = (s.ctx asid).gen + 1 ∧ (adv.ctx asid).trapVec = (s.ctx asid).trapVec ∧ (∀ k, k ≠ asid → adv.ctx k = s.ctx k) ∧
      (∀ e, e ∈ adv.tlb ↔ e ∈ s.tlb ∧ e.asid ≠ asid) ∧ (∀ e, e ∈ adv.tables ↔ e ∈ s.tables ∧ e.asid ≠ asid) ∧
      adv = { s with tlb := adv.tlb, tables := adv.tables, ctxs := adv.ctxs }) ∧
  -- The same of TLBGEN and every context.
  (
    ∀ (s : State) (fo : Focus) (w : Wave) (l : Nat) (ln : Lane), Solo s fo w l ln → ln.isPriv = true →
      let adv := s.advanceAll
      let cleared (r t : State) : Prop := t = { r.passes fo l with cores := t.cores } ∧
        (t.core w.coreKey).l1 = [] ∧ (t.core w.coreKey).icache = [] ∧
        (∀ k, (t.core k).scratch = (r.core k).scratch ∧ (t.core k).slots = (r.core k).slots) ∧ ∀ k, k ≠ w.coreKey → t.core k = r.core k
      (ln.wait = none → s.fenceWait fo.wave l .pkg .all = none → adv.olderAccess none 0 = false →
        ∃ t, exec .tlbgen s = .next t ∧ cleared adv t) ∧
      (ln.wait = none → s.fenceWait fo.wave l .pkg .all = none → adv.olderAccess none 0 = true →
        exec .tlbgen s = .next (adv.waits fo l (.advance none 0))) ∧
      (∀ wt g, ln.wait = some wt → wt.kind = .advance none g → ∃ t, exec .tlbgen s = .next t ∧ cleared s t) ∧
      (∀ k c, sget s.ctxs k = some c → sget adv.ctxs k = some { c with gen := c.gen + 1 }) ∧
      adv.tlb = [] ∧ adv.tables = [] ∧ adv = { s with tlb := [], tables := [], ctxs := adv.ctxs }) ∧
  -- R431, R247: PREEMPT of a running block of another wave makes its waves SAVING and waits, what it has for a g register outstanding;
  -- it returns OK once the block is SAVED, and
  -- STATE for a block that does not run or its own; RESUMEW queues a SAVED block and returns OK, else STATE; a handle that is not
  -- live traps KERNEL_OBJ.
  (
    ∀ (a b : Opd) (s : State) (fo : Focus) (w : Wave) (l : Nat) (ln : Lane), Solo s fo w l ln → ln.isPriv = true →
      let h := readOpd w l ln a
      (s.entry h = none → ln.wait = none → exec (.preempt a b) s = .next (s.traps fo l 0x38 0 h) ∧ exec (.resumew a b) s = .next (s.traps fo l 0x38 0 h)) ∧
      (∀ idx u p q v, s.entry h = some (idx, .wave u p q) → s.wave u = some v →
        (ln.wait = none → v.block ≠ w.block → s.blockRuns v.block = true →
          exec (.preempt a b) s = .next (s.settled ((s.startSaving v.block).waits fo l (.saved v.block)) b 1) ∧
            ∀ k x, s.wave k = some x → (s.startSaving v.block).wave k = some { x with
              st := if x.block = v.block ∧ (x.st = .resident ∨ x.st = .moving) then .saving else x.st }) ∧
        (ln.wait = none → (v.block = w.block ∨ s.blockRuns v.block = false) → exec (.preempt a b) s = .next (s.completes fo l b [5] 0)) ∧
        (∀ wt, ln.wait = some wt → wt.status.isSome = true → exec (.preempt a b) s = .next (s.settled (s.completes fo l b [0] 0) b 1)) ∧
        (∀ blk, ln.wait = none → sget s.blocks v.block = some blk →
          (s.waves.any (fun e => e.2.block == v.block && e.2.st == .saved) = true →
            exec (.resumew a b) s = .next ((s.resumeBlock v.block blk).completes fo l b [0] 0) ∧
            (s.resumeBlock v.block blk).runQueue = s.runQueue ++ [QueueEntry.mk v.block (blk.die * 16 + s.quadOf blk.die blk.core) blk.dies blk.prio s.ticket]) ∧
          (s.waves.any (fun e => e.2.block == v.block && e.2.st == .saved) = false →
            exec (.resumew a b) s = .next (s.completes fo l b [5] 0))))) ∧
  -- R429, R432, R433: CORERST and ENGRST of a core word with a bit too many, a die or a core that is not there return BADARG;
  -- CORERST of the lane's own core STATE; else OK, the core as at reset but for the jobs of its channel, each block on it gone;
  -- ENGRST resets its Kiln.
  (
    ∀ (a b : Opd) (s : State) (fo : Focus) (w : Wave) (l : Nat) (ln : Lane), Single s fo w l ln → ln.isPriv = true →
      let v := readOpd w l ln a
      let die := wbits v 2 0
      let core := wbits v 13 8
      let sound := v &&& 0xFFFFC0F8 = 0 ∧ die < 6 ∧ core < s.coreCount die
      (¬ sound → exec (.corerst a b) s = .next (s.completes fo l b [12] 0) ∧ exec (.engrst a b) s = .next (s.completes fo l b [12] 0)) ∧
      (sound → s.ownCore w (coreKey die core) = true → exec (.corerst a b) s = .next (s.completes fo l b [5] 0)) ∧
      (sound → s.ownCore w (coreKey die core) = false →
        exec (.corerst a b) s = .next ((s.resetCore (coreKey die core)).completes fo l b [0] 0) ∧
        ∃ js, (s.resetCore (coreKey die core)).core (coreKey die core) = { CoreState.reset with jobs := js }) ∧
      (sound → exec (.engrst a b) s = .next ((s.resetKiln (coreKey die core)).completes fo l b [0] 0)))

/-- BINIT, BINVAL and BARRIVE move a barrier as the state table says, after the checks of a BAR function. -/
def Obligations.BarriersChange : Prop :=
  -- R304, R422: a BAR function in a handler ends its lane as a fatal trap; a bad barrier word returns BADARG, or all ones from
  -- BARRIVE; a barrier of another context traps PROT with REASON 18.
  (
    ∀ (d a b : Opd) (s : State) (fo : Focus) (w : Wave) (l : Nat) (ln : Lane), Solo s fo w l ln →
      let v := readOpd w l ln a
      let fns := [Instr.binit d a b, .bwait d a b, .bsync d a, .binval d a]
      ln.wait = none →
      (ln.inTrap = true → ∀ i ∈ .barrive d a :: fns, exec i s = .next (s.fatal fo.wave l)) ∧
      (ln.inTrap = false → (128 ≤ v.toNat ∨ [1, 16, 8, 8, 4, 4].getD (wbits v 6 4) 0 ≤ wbits v 3 0) →
        (∀ i ∈ fns, exec i s = .next (s.completes fo l d [3] 0)) ∧ exec (.barrive d a) s = .next (s.completes fo l d [0xFFFFFFFF] 0)) ∧
      (ln.inTrap = false → v.toNat < 128 → wbits v 3 0 < [1, 16, 8, 8, 4, 4].getD (wbits v 6 4) 0 →
        barrierForeign (s.barrier (wbits v 6 4) (barrierInst s fo.wave w (wbits v 6 4)) (wbits v 3 0)) (wbits v 6 4) w.asid = true →
        ∀ i ∈ .barrive d a :: fns, exec i s = .next (s.traps fo l 0x11 0 18))) ∧
  -- R306, R307, R308: BINIT turns a barrier ON with its count, dynamic for 0, after ending a phase with waiters BARRIER_RESET;
  -- BINVAL turns it OFF after ending the phase; BARRIVE returns the phase joined, and counts or ends it; OFF, INVALID or all
  -- ones. Of a pod barrier the rest of the pod is told its new state (DESIGN CHOICE, log entry 96).
  (
    ∀ (d a b : Opd) (s : State) (fo : Focus) (w : Wave) (l : Nat) (ln : Lane) (level inst index : Nat), Solo s fo w l ln →
      BarrierReady s fo w l ln a level inst index → ln.wait = none →
      let x := s.barrier level inst index
      let told (t : State) : State :=
        if level = 5 then t.tellPod index (.state (t.barrier 5 inst index).on (t.barrier 5 inst index).owner (t.barrier 5 inst index).phase) else t
      let count := (readOpd w l ln b).toNat
      let on (y : Barrier) : Barrier := { y with on := true, dynamic := count == 0, expected := count, arrived := 0, owner := w.asid }
      (2 ≤ level → count = 0 → exec (.binit d a b) s = .next (s.completes fo l d [3] 0)) ∧
      ((level < 2 ∨ count ≠ 0) → (x.on = false ∨ s.hasWaiters level inst index = false) →
        exec (.binit d a b) s = .next ((told (s.setBarrier level inst index (on x))).completes fo l d [0] 0)) ∧
      ((level < 2 ∨ count ≠ 0) → x.on = true → s.hasWaiters level inst index = true →
        let ended := (s.setBarrier level inst index { x with resetPh := some x.phase }).endPhase level inst index 1
        exec (.binit d a b) s = .next ((told (ended.setBarrier level inst index (on (ended.barrier level inst index)))).completes fo l d [0] 0)) ∧
      (x.on = false → exec (.binval d a) s = .next (s.completes fo l d [2] 0) ∧ exec (.barrive d a) s = .next (s.completes fo l d [0xFFFFFFFF] 0)) ∧
      (x.on = true →
        let ended := (s.setBarrier level inst index { x with resetPh := some x.phase }).endPhase level inst index 1
        exec (.binval d a) s =
          .next ((told (ended.setBarrier level inst index { ended.barrier level inst index with on := false })).completes fo l d [0] 0)) ∧
      (x.on = true → x.arrived + 1 < s.expectedOf level inst x →
        exec (.barrive d a) s = .next ((s.setBarrier level inst index { x with arrived := x.arrived + 1 }).completes fo l d [x.phase] 0)) ∧
      (x.on = true → s.expectedOf level inst x ≤ x.arrived + 1 →
        exec (.barrive d a) s = .next ((s.endPhase level inst index 0).completes fo l d [x.phase] 0)))

/-- The end of a barrier phase releases its waiters and no other lane; BWAIT and BSYNC wait for it. -/
def Obligations.BarrierWaits : Prop :=
  -- R307: the end of a phase: PHASE + 1, ARRIVED 0, every waiter of the old phase gets the status, and no other lane's wait
  -- changes.
  (
    ∀ (s : State) (level inst index status : Nat) (w : Wave) (x : Lane) (u l : Nat),
      s.wave u = some w → w.lane l = some x → (level = 0 → (s.wave inst).isSome = true) → (level = 1 → (sget s.blocks inst).isSome = true) →
      let b := s.barrier level inst index
      let t := s.endPhase level inst index status
      t.barrier level inst index = { b with phase := b.phase + 1, arrived := 0, away := 0 } ∧ t.mem = s.mem ∧
      (level ≠ 5 ∨ s.heldElsewhere level index = true → t.sent = s.sent) ∧
      ∃ y, t.lane u l = some y ∧ y = { x with wait := y.wait, parked := y.parked } ∧
        (∀ wt, x.wait = some wt → wt.kind = .barrier level inst index b.phase → wt.status = none →
          y.wait = some { wt with status := some status, value := 0, bytes := [] }) ∧
        ((x.wait = none ∨ ∃ wt, x.wait = some wt ∧ (wt.kind ≠ .barrier level inst index b.phase ∨ wt.status ≠ none)) → y.wait = x.wait)) ∧
  -- R308, R309: BWAIT on a barrier that is OFF returns INVALID, on its present phase it waits, on an earlier one it returns OK,
  -- or BARRIER_RESET for RESETPH; a released lane returns the status of the end, whatever its barrier word holds by then; OK acquires
  -- at a level wider than .core, a block on several cores among them (R350); what a waiting lane has for a g register is outstanding
  -- meanwhile (R247, R248). BSYNC on a barrier that is OFF returns INVALID, the last
  -- to arrive ends the phase and returns OK, an earlier one waits.
  (
    ∀ (d a b : Opd) (s : State) (fo : Focus) (w : Wave) (l : Nat) (ln : Lane) (level inst index : Nat), Solo s fo w l ln →
      BarrierReady s fo w l ln a level inst index →
      let x := s.barrier level inst index
      let token := readOpd w l ln b
      let acquired (t : State) : State := if 2 ≤ level ∨ (level = 1 ∧ s.blockSpans w = true) then t.dropL1 w.coreKey else t
      (ln.wait = none → x.on = false → exec (.bwait d a b) s = .next (s.completes fo l d [2] 0)) ∧
      (ln.wait = none → x.on = true → x.phase = token →
        exec (.bwait d a b) s = .next (s.settled (s.waits fo l (.barrier level inst index token)) d 1)) ∧
      (ln.wait = none → x.on = true → x.phase ≠ token → x.resetPh = some token → exec (.bwait d a b) s = .next (s.completes fo l d [1] 0)) ∧
      (ln.wait = none → x.on = true → x.phase ≠ token → x.resetPh ≠ some token →
        exec (.bwait d a b) s = .next ((acquired s).completes fo l d [0] 0)) ∧
      (ln.wait = none → ln.joined = none → x.on = false → exec (.bsync d a) s = .next (s.completes fo l d [2] 0)) ∧
      (ln.wait = none → ln.joined = none → x.on = true → s.expectedOf level inst x ≤ x.arrived + 1 →
        ∃ t y, exec (.bsync d a) s = .next t ∧ t.lane fo.wave l = some y ∧ y = { ln.wrote fo.next d [0] 0 with parked := y.parked } ∧
          (t.barrier level inst index).phase = x.phase + 1) ∧
      (ln.wait = none → ln.joined = none → x.on = true → x.arrived + 1 < s.expectedOf level inst x →
        ∃ t, exec (.bsync d a) s = .next t ∧ t.barrier level inst index = { x with arrived := x.arrived + 1 } ∧
          ∃ y wt, t.lane fo.wave l = some y ∧ y = { ln with wait := some wt, joined := some (fo.pc, x.phase) } ∧
            wt.kind = .barrier level inst index x.phase ∧ wt.status = none)) ∧
  (
    ∀ (d a b : Opd) (s : State) (fo : Focus) (w : Wave) (l : Nat) (ln : Lane) (wt : Wait) (level inst index st : Nat) (phase : Word),
      Solo s fo w l ln → ln.inTrap = false → ln.wait = some wt → wt.kind = .barrier level inst index phase → wt.status = some st →
      let s1 := s.modLane fo.wave l (fun x => { x with joined := none })
      let s2 := if st = 0 ∧ (2 ≤ level ∨ (level = 1 ∧ s.blockSpans w = true)) then s1.dropL1 w.coreKey else s1
      ∀ i ∈ [Instr.bwait d a b, .bsync d a], exec i s = .next (s.settled (s2.completes fo l d [BitVec.ofNat 32 st] 0) d 1))

/-- Shuffles, votes, reductions, scans, matches and the election over the contributors of an instance; a lane that comes early waits. That
UNINIT is decided as a lane arrives is log entry 16 (DEDUCED). -/
def Obligations.CrossLaneResults : Prop :=
  -- R286, R287, R289, R290: the cross-lane functions when all lanes of a wave arrive: shuffles take another contributor's word or
  -- the lane's own, votes, ballots, reductions, the inclusive scan, matches and the election are over the contributors; the
  -- others keep their destination.
  (
    ∀ (d a b : Opd),
      let from_ (src : Nat → Nat → Int) : XlnFn := fun all x =>
        (match all.find? (fun y => decide ((y.lane : Int) = src x.lane (x.n.toNat % 32))) with | some y => y.a | none => x.a, 0)
      let mask (all : List Arrival) (p : Arrival → Bool) : Word := BitVec.ofNat 32 ((all.filter p).foldl (fun m y => m ||| 2 ^ y.lane) 0)
      Crosses (.shfli d a b) d a b false (from_ (fun _ n => (n : Int))) ∧
      Crosses (.shflu d a b) d a b false (from_ (fun l n => (l : Int) - n)) ∧
      Crosses (.shfld d a b) d a b false (from_ (fun l n => (l : Int) + n)) ∧
      Crosses (.shflx d a b) d a b false (from_ (fun l n => ((l ^^^ n : Nat) : Int))) ∧
      Crosses (.voteall d a) d a .z false (fun all _ => (if all.all (fun y => y.a.getLsbD 0) then 1 else 0, 0)) ∧
      Crosses (.voteany d a) d a .z false (fun all _ => (if all.any (fun y => y.a.getLsbD 0) then 1 else 0, 0)) ∧
      Crosses (.ballot d a) d a .z false (fun all _ => (mask all (fun y => y.a.getLsbD 0), 0)) ∧
      Crosses (.redadd d a) d a .z false (fun all _ => (BitVec.ofNat 32 (all.foldl (fun n y => n + y.a.toNat) 0), 0)) ∧
      Crosses (.redmin d a) d a .z false (fun all x => (all.foldl (fun m y => if y.a.toInt < m.toInt then y.a else m) x.a, 0)) ∧
      Crosses (.redmax d a) d a .z false (fun all x => (all.foldl (fun m y => if m.toInt < y.a.toInt then y.a else m) x.a, 0)) ∧
      Crosses (.redand d a) d a .z false (fun all _ => (all.foldl (fun m y => m &&& y.a) 0xFFFFFFFF, 0)) ∧
      Crosses (.redor d a) d a .z false (fun all _ => (all.foldl (fun m y => m ||| y.a) 0, 0)) ∧
      Crosses (.redxor d a) d a .z false (fun all _ => (all.foldl (fun m y => m ^^^ y.a) 0, 0)) ∧
      Crosses (.scanadd d a) d a .z false (fun all x =>
        (BitVec.ofNat 32 ((all.filter (fun y => decide (y.lane ≤ x.lane))).foldl (fun n y => n + y.a.toNat) 0), 0)) ∧
      Crosses (.matchLanes d a) d a .z false (fun all x => (mask all (fun y => y.a == x.a), 0)) ∧
      Crosses (.elect d) d .z .z false (fun all x => (if all.all (fun y => decide (x.lane ≤ y.lane)) then 1 else 0, 0))) ∧
  -- R291: FREDADD, FREDMIN and FREDMAX combine the contributors over the tree of lane positions, each contributor under its own
  -- FTZ, with the flags of its tree.
  (
    ∀ (d a : Opd),
      Crosses (.fredadd d a) d a .z true (floatTree (fpAdd fp32)) ∧
      Crosses (.fredmin d a) d a .z true (floatTree (fun c x y => fpMinMax fp32 c false x y)) ∧
      Crosses (.fredmax d a) d a .z true (floatTree (fun c x y => fpMinMax fp32 c true x y)) ∧
      (∀ (op : Nat → Nat → FRes) (x y : Nat) (r : List (Option Nat)),
        (treeLevel op (some x :: some y :: r)).1 = some (op x y).bits :: (treeLevel op r).1 ∧
        (treeLevel op (some x :: none :: r)).1 = some x :: (treeLevel op r).1 ∧
        (treeLevel op (none :: some y :: r)).1 = some y :: (treeLevel op r).1 ∧
        (treeLevel op (none :: none :: r)).1 = none :: (treeLevel op r).1)) ∧
  -- R287, R289, R291: a lane of a wave's set that arrives while another lane has not waits in the instance, which captures its operands
  -- and opens when none is open; its registers stay. The same with a prefix: the set is of the lanes of its g mask, a lane that a lane
  -- mask turns off arrives without contributing, one outside the g mask passes at once with its old destination. A contributor to a
  -- floating reduction whose word is a trapping marker traps and leaves the set.
  (
    ∀ (d a b : Opd) (s : State) (fo : Focus) (w : Wave) (l j : Nat) (ln other : Lane), Solo s fo w l ln →
      ln.inTrap = false → instAt w fo.pc = none → w.lane j = some other → j ≠ l → inSet (gMask fo.pfx w) j = true →
      let set := (skeys w.lanes).filter (inSet (gMask fo.pfx w))
      let opened (xs : List Arrival) (set : List Nat) : List XInst := XInst.mk fo.pc false set xs :: w.insts.filter (fun x => x.pc != fo.pc)
      let early (i : Instr) (a b : Opd) : Prop :=
        (inSet (gMask fo.pfx w) l = true → ∃ t v wt, exec i s = .next t ∧ t.wave fo.wave = some v ∧
          v.insts = opened [arrival fo.pfx w l ln a b] set ∧ v.lane l = some { ln with wait := some wt } ∧ wt.kind = .inst ∧
          (∀ k, k ≠ l → v.lane k = w.lane k) ∧ v.g = w.g ∧ t.mem = s.mem) ∧
        (inSet (gMask fo.pfx w) l = false → exec i s = .next (s.modLane fo.wave l (fun x => x.wrote fo.next d [readOpd w l ln d] 0)))
      let marked (i : Instr) : Prop :=
        (((arrival fo.pfx w l ln a .z).contributes = true → uninit ln [(arrival fo.pfx w l ln a .z).a] = none) → early i a .z) ∧
        (∀ t, inSet (gMask fo.pfx w) l = true → (arrival fo.pfx w l ln a .z).contributes = true →
          uninit ln [(arrival fo.pfx w l ln a .z).a] = some t → exec i s = .next (takeTrap
            (s.setWave fo.wave { w with insts := opened [] (set.filter (fun k => k != l)) }) fo.wave l t false fo.len))
      (∀ i ∈ [Instr.voteall d a, .voteany d a, .ballot d a, .redadd d a, .redmin d a, .redmax d a, .redand d a, .redor d a, .redxor d a,
          .scanadd d a, .matchLanes d a], early i a .z) ∧
      (∀ i ∈ [Instr.shfli d a b, .shflu d a b, .shfld d a b, .shflx d a b], early i a b) ∧
      early (.elect d) .z .z ∧
      (∀ i ∈ [Instr.fredadd d a, .fredmin d a, .fredmax d a], marked i))

/-- LD and LDO of sound memory of this package return the bytes that their core's L1 still has or those of the home, sized and
extended, and change no memory. -/
def Obligations.GlobalLoads : Prop :=
  -- R135, R138, R141, R143, R144, R145: a load from sound HBM, or from host memory that answers, in global or in tensor-relative space or
  -- with an offset: a wide acquire reads the home and clears L1; any other takes what L1 serves, or reads the home, filling a block of
  -- L1 unless it is a streaming one, which leaves no older copy there. The destination gets the bytes, extended as the size says; memory
  -- stays, and what L1 then holds is what it held or the home's bytes.
  (
    ∀ (i : Instr) (v : Opd) (z : Size) (va : Nat) (s : State) (fo : Focus) (w : Wave) (l : Nat) (ln : Lane) (k : Block) (t : Target) (la : Nat),
      Single s fo w l ln → sget s.blocks w.block = some k → Loads s w l ln i v z va →
      let n := sizeBytes z
      let streaming := ∃ a sem scope sp, i = .ld v a z sem scope sp .streaming
      let filled (alloc : Bool) : State := if alloc then s.fillL1 w.coreKey la else (s.receive la).dropSector w.coreKey la
      let home := loadWords z (zread s.mem la n)
      (LandsInMemory s w ln false va n t la →
        (WideLoad s w i = true → exec i s = .next ((((s.receive la).noteTlb w.asid t).dropL1 w.coreKey).completes fo l v home 0)) ∧
        (WideLoad s w i = false → s.l1Serves w.coreKey la n = none →
          (¬ streaming → exec i s = .next (((filled true).noteTlb w.asid t).completes fo l v home 0)) ∧
          (streaming → exec i s = .next (((filled false).noteTlb w.asid t).completes fo l v home 0))) ∧
        (∀ bs, WideLoad s w i = false → s.l1Serves w.coreKey la n = some bs →
          exec i s = .next ((s.noteTlb w.asid t).completes fo l v (loadWords z bs) 0))) ∧
      (∀ alloc, (filled alloc).mem = s.mem ∧ (filled alloc).waves = s.waves ∧
        (∀ c, c ≠ w.coreKey → (filled alloc).core c = s.core c) ∧
        (∀ e ∈ ((filled alloc).core w.coreKey).l1, e ∈ (s.core w.coreKey).l1 ∨ e.2 = zread s.mem (16 * e.1) 16) ∧
        sget ((filled false).core w.coreKey).l1 (la / 16) = none) ∧
      (∀ bs, s.l1Serves w.coreKey la n = some bs → ∃ copy, sget (s.core w.coreKey).l1 (la / 16) = some copy ∧ bs = (copy.drop (la % 16)).take n)) ∧
  -- R143: the words a load writes, by size.
  (
    ∀ (x y z w : Byte) (r : List Byte),
      loadWords .bu [x] = [BitVec.ofNat 32 x.toNat] ∧ loadWords .b [x] = [BitVec.ofInt 32 x.toInt] ∧
      loadWords .hu [x, y] = [BitVec.ofNat 32 (x.toNat + 256 * y.toNat)] ∧
      loadWords .h [x, y] = [BitVec.ofInt 32 (BitVec.ofNat 16 (x.toNat + 256 * y.toNat)).toInt] ∧
      loadWords .w [x, y, z, w] = [BitVec.ofNat 32 (x.toNat + 256 * (y.toNat + 256 * (z.toNat + 256 * w.toNat)))] ∧
      (r.length = 8 → loadWords .w2 r = [wordAt r 0, wordAt r 4]) ∧
      (r.length = 16 → loadWords .w4 r = [wordAt r 0, wordAt r 4, wordAt r 8, wordAt r 12]))

/-- R121, R118, R145, R138: loads and stores, of whatever semantics and scope, of the block's scratchpad range and of the lane's private
memory: within the range they move their bytes and change nothing else, but that a wide acquire clears L1 (R116) and a private store writes
its sectors in L1 too (R115); misaligned they trap ALIGN, beyond the range PROT with SCRRANGE or PRIVRANGE. A private byte that nothing has
written reads as a free value (log entry 8, DESIGN CHOICE). -/
def Obligations.ScratchAndPrivateAccesses : Prop :=
  ∀ (v a : Opd) (z : Size) (sem : Sem) (scope : Scope) (hint : Hint) (off : BitVec 10) (s : State) (fo : Focus) (w : Wave) (l : Nat) (ln : Lane)
      (k : Block), Single s fo w l ln → sget s.blocks w.block = some k →
    let n := sizeBytes z
    let p := (readOpd w l ln a).toNat
    let o := ((p : Int) + off.toInt * n).emod (2 ^ 32) |>.toNat
    let core := coreKey k.die k.core
    let src := storeBytes w l ln v n
    let load := fun sp => Instr.ld v a z sem scope sp hint
    let store := fun sp => Instr.st v a z sem scope sp hint
    let acquired : State := if sem = .acquire ∧ s.wide w scope = true then s.dropL1 w.coreKey else s
    (o % n = 0 → o + n ≤ k.scratchBytes →
      exec (.lds v a z off) s = .next (s.completes fo l v (loadWords z (zread (s.core core).scratch (k.scratchBase * 4096 + o) n)) 0) ∧
      exec (.sts v a z off) s = .next ((s.modCore core (fun c => { c with scratch := zwrite c.scratch (k.scratchBase * 4096 + o) src })).passes fo l)) ∧
    (o % n ≠ 0 → exec (.lds v a z off) s = .next (s.traps fo l 0x12 o 0) ∧ exec (.sts v a z off) s = .next (s.traps fo l 0x12 o 0)) ∧
    (o % n = 0 → k.scratchBytes < o + n →
      exec (.lds v a z off) s = .next (s.traps fo l 0x11 o (faultAux (laneAcc w ln false) 0 14)) ∧
      exec (.sts v a z off) s = .next (s.traps fo l 0x11 o (faultAux (laneAcc w ln true) 0 14))) ∧
    (p % n = 0 → p + n ≤ k.scratchBytes →
      exec (load .scratch) s =
        .next (acquired.completes fo l v (loadWords z (zread (s.core core).scratch (k.scratchBase * 4096 + p) n)) 0) ∧
      exec (store .scratch) s = .next ((s.modCore core (fun c => { c with scratch := zwrite c.scratch (k.scratchBase * 4096 + p) src })).passes fo l)) ∧
    (∀ sp, sp = .scratch ∨ sp = .priv → p % n ≠ 0 →
      exec (load sp) s = .next (s.traps fo l 0x12 p 0) ∧ exec (store sp) s = .next (s.traps fo l 0x12 p 0)) ∧
    (p % n = 0 → k.scratchBytes < p + n →
      exec (load .scratch) s = .next (s.traps fo l 0x11 p (faultAux (laneAcc w ln false) 0 14)) ∧
      exec (store .scratch) s = .next (s.traps fo l 0x11 p (faultAux (laneAcc w ln true) 0 14))) ∧
    (p % n = 0 → p + n ≤ w.privBytes →
      (∀ sec ∈ w.privSectors l p n, s.badLine (sec / 8) = false ∧ s.reach w.die (s.homeDie (16 * sec)) = true) →
      exec (load .priv) s = .next (s.completes fo l v (loadWords z (s.privRead l ln p n)) 0) ∧
      exec (store .priv) s = .next ((s.privStore fo.wave l p src).passes fo l) ∧
      ∃ y, (s.privStore fo.wave l p src).lane fo.wave l = some y ∧ y = ln.privWrite p src ∧
        (∀ i, i < n → sget y.priv (p + i) = some (src.getD i 0)) ∧ ∀ x, (x < p ∨ p + n ≤ x) → sget y.priv x = sget ln.priv x) ∧
    (p % n = 0 → w.privBytes < p + n →
      exec (load .priv) s = .next (s.traps fo l 0x11 p (faultAux (laneAcc w ln false) 0 13)) ∧
      exec (store .priv) s = .next (s.traps fo l 0x11 p (faultAux (laneAcc w ln true) 0 13)))

/-- R139, R141, R143, R145: stores to sound HBM, or to host memory that answers, in global or in tensor-relative space or with an offset,
put the low bytes of the data operand at the address, in the sectors that the core's L1 holds too (R115), and change no other byte of
memory; a release store at .pod or .plane does so once its lane's remote stores have been acknowledged (R187), and waits until then. While a
lower lane's store at the same instruction waits, a higher one waits for its turn (R137). -/
def Obligations.StoresToHbm : Prop :=
  ∀ (i : Instr) (v : Opd) (z : Size) (rel : Option Scope) (va : Nat) (s : State) (fo : Focus) (w : Wave) (l : Nat) (ln : Lane) (k : Block)
      (t : Target) (la : Nat), Single s fo w l ln → sget s.blocks w.block = some k → Stores s w l ln i v z rel va →
    let n := sizeBytes z
    let bs := storeBytes w l ln v n
    let stored := (s.noteTlb w.asid t).stored w.coreKey la bs
    let after := stored.passes fo l
    let pending := s.releaseWait fo.wave l rel (bitsOf t.pa 9 7)
    (LandsInMemory s w ln true va n t la →
      (s.behind fo l = true → exec i s = .next (s.waits fo l .turn)) ∧
      (∀ p, s.behind fo l = false → pending = some p → exec i s = .next (s.waits fo l (.acks p))) ∧
      (s.behind fo l = false → pending = none → exec i s = .next after)) ∧
    ((∀ scope, rel = some scope → scope ≠ .pod ∧ scope ≠ .plane) → pending = none) ∧
    (∀ x, (x < la ∨ la + n ≤ x) → zget after.mem x = zget s.mem x) ∧
    (∀ i, i < n → zget after.mem (la + i) = bs.getD i 0) ∧
    (∀ copy, LandsInMemory s w ln true va n t la → sget (s.core w.coreKey).l1 (la / 16) = some copy →
      sget (stored.core w.coreKey).l1 (la / 16) = some (copy.take (la % 16) ++ bs ++ copy.drop (la % 16 + n))) ∧
    (∀ i, i < n → bs.getD i 0 = BitVec.ofNat 8 ((readOpd w l ln (opdPlus v (i / 4))).toNat / 256 ^ (i % 4)))

/-- R139, R107, R141, R142: a global access that is misaligned traps ALIGN with its address; one that does not translate takes the trap of
the walk; a line in error traps POISON, and is marked (R98); a tensor-relative access traps at its byte offset: ALIGN, NOTENSOR without a
valid entry, TENSORRANGE beyond its span, or what its entry's read meets; nothing is loaded or stored. -/
def Obligations.GlobalAccessTraps : Prop :=
  ∀ (v a : Opd) (z : Size) (sem : Sem) (scope : Scope) (hint : Hint) (off : BitVec 10) (s : State) (fo : Focus) (w : Wave) (l : Nat) (ln : Lane)
      (k : Block), Single s fo w l ln → sget s.blocks w.block = some k →
    let n := sizeBytes z
    let lo := (readOpd w l ln a).toNat
    let hi := (readOpd w l ln (opdPlus a 1)).toNat
    let access (sp : Space) (write : Bool) (i : Instr) : Prop :=
      (write = false ∧ i = .ld v a z sem scope sp hint) ∨ (write = true ∧ i = .st v a z sem scope sp hint)
    let moved (write : Bool) (i : Instr) : Prop := (write = false ∧ i = .ldo v a z off) ∨ (write = true ∧ i = .sto v a z off)
    (∀ write i va, (access .global write i ∧ va = hi * 2 ^ 32 + lo) ∨
        (moved write i ∧ va = (((hi * 2 ^ 32 + lo : Nat) + off.toInt * n) % 2 ^ 64).toNat) →
      (va % n ≠ 0 → exec i s = .next (s.traps fo l 0x12 va 0)) ∧
      (2 ^ 57 ≤ va → va % n = 0 → exec i s = .next (s.traps fo l 0x10 va (faultAux (laneAcc w ln write) 0 1)))) ∧
    (∀ write i, access .tensor write i →
      let read := s.readTensor w.asid (hi % 2 ^ 16) false []
      let prot (reason : Nat) : State := s.traps fo l 0x11 lo (faultAux (laneAcc w ln write) 0 reason)
      (lo % n ≠ 0 → exec i s = .next (s.traps fo l 0x12 lo 0)) ∧
      (∀ t, lo % n = 0 → read = .error t → t.need = none → t.cause ≠ 0 → t.cause ≠ 0x15 → exec i s = .next (takeTrap s fo.wave l t false fo.len)) ∧
      (∀ e r, lo % n = 0 → read = .ok (e, r) → (2 ^ 16 ≤ hi ∨ e.ok = false) → exec i s = .next (prot 6)) ∧
      (∀ e r, lo % n = 0 → read = .ok (e, r) → hi < 2 ^ 16 → e.ok = true → e.span < lo + n → exec i s = .next (prot 7))) ∧
    (∀ i va t, Loads s w l ln i v z va ∨ (∃ rel, Stores s w l ln i v z rel va) →
      s.translate (laneAcc w ln (match i with | .st _ _ _ _ _ _ _ | .sto _ _ _ _ => true | _ => false)) va = .error t →
      t.need = none → t.cause ≠ 0 → t.cause ≠ 0x15 → exec i s = .next (takeTrap s fo.wave l t false fo.len)) ∧
    (∀ i va t la, t.kind = .hbm ∨ t.kind = .host → la = localOf t.pa → la % n = 0 → s.reachable t = true → s.hostFault la = none → s.poisoned la n = true →
      (Loads s w l ln i v z va → s.translate (laneAcc w ln false) va = .ok t → (WideLoad s w i = true ∨ s.l1Serves w.coreKey la n = none) →
        exec i s = .next ((s.found la).traps fo l 0x14 va 0)) ∧
      (∀ rel, Stores s w l ln i v z rel va → s.translate (laneAcc w ln true) va = .ok t → s.behind fo l = false →
        s.releaseWait fo.wave l rel (bitsOf t.pa 9 7) = none →
        ∃ u, exec i s = .next (u.traps fo l 0x14 va 0) ∧ u = (s.noteTlb w.asid t).found la))

/-- Loads, stores and atomics that do not land in memory of this package that answers: host memory that fails, another package, device
registers, the device information page, and a die link that retrains on the way. What the host answers is log entry 70 (DESIGN CHOICE), and
a posted store log entry 36 (DEDUCED). -/
def Obligations.AccessesElsewhere : Prop :=
  -- R426, R186, R188, R14, R103, R20, R171: a load of host memory that has no answer waits for it, with another failure traps HOST_FAULT
  -- with its kind; one of another package asks for its bytes and waits; each waits before that while its core has 1,536 requests
  -- outstanding. An aligned w or 2w load of registers reads them, another traps ALIGN; the information page gives its bytes. What a
  -- g destination has outstanding follows R247 and R248.
  (
    ∀ (i : Instr) (v : Opd) (z : Size) (va : Nat) (s : State) (fo : Focus) (w : Wave) (l : Nat) (ln : Lane) (k : Block) (t : Target),
      Single s fo w l ln → sget s.blocks w.block = some k → Loads s w l ln i v z va → s.translate (laneAcc w ln false) va = .ok t →
      let n := sizeBytes z
      let la := localOf t.pa
      let s1 := s.noteTlb w.asid t
      let acquired (u : State) : State := if WideLoad s w i = true then u.dropL1 w.coreKey else u
      let outstanding (u : State) : Prop := exec i s = .next (s.settled u v 1)
      let missed := t.kind.cached = false ∨ WideLoad s w i = true ∨ s.l1Hit w.coreKey la n = none
      (missed → s.reachable t = false → outstanding (s.waits fo l (.dieLink s.agent (s.homeOf t.kind t.pa)))) ∧
      (∀ kind, t.kind = .host → missed → s.reachable t = true → s.hostFault la = some kind →
        (kind ≠ 3 → exec i s = .next (s.traps fo l 0x15 va (BitVec.ofNat 32 kind))) ∧
        (kind = 3 → s.requestRoom w.coreKey = false → outstanding (s.waits fo l .requests)) ∧
        (kind = 3 → s.requestRoom w.coreKey = true → outstanding (s.cxlWait fo w l ln va false))) ∧
      (t.kind = .remote → s.reachable t = true →
        (s.requestRoom w.coreKey = false → outstanding (s1.waits fo l .requests)) ∧
        (s.requestRoom w.coreKey = true →
          let asked := s1.request (s.laneReq fo.wave w.asid [(l, 0)] none va t.pa n .load [] 0)
          outstanding (asked.2.remoteWait fo l asked.1 [] true) ∧ asked.1 = s.fabric.nextReq)) ∧
      (t.kind = .mmio → s.reachable t = true →
        ((z = .w ∨ z = .w2) → va % n = 0 → exec i s = .next ((acquired s1).completes fo l v (loadWords z (s1.mmioRead (la - mmioBase) n)) 0)) ∧
        (¬ (z = .w ∨ z = .w2) → exec i s = .next (s.traps fo l 0x12 va 0))) ∧
      (t.kind = .info → exec i s = .next ((acquired s).completes fo l v (loadWords z (s.infoRead t.pa n)) 0))) ∧
  -- The same of stores: a store of another package goes on in a body, its region open until the acknowledgement (R187), and waits in a
  -- tail; a store that the host does not answer may have been performed (log entry 37, DESIGN CHOICE); registers take an aligned w or 2w
  -- store; the information page traps PROT.
  (
    ∀ (i : Instr) (v : Opd) (z : Size) (rel : Option Scope) (va : Nat) (s : State) (fo : Focus) (w : Wave) (l : Nat) (ln : Lane) (k : Block)
        (t : Target), Single s fo w l ln → sget s.blocks w.block = some k → Stores s w l ln i v z rel va →
      s.translate (laneAcc w ln true) va = .ok t → s.behind fo l = false → s.releaseWait fo.wave l rel (bitsOf t.pa 9 7) = none →
      let n := sizeBytes z
      let la := localOf t.pa
      let bs := storeBytes w l ln v n
      let s1 := s.noteTlb w.asid t
      (s.reachable t = false → exec i s = .next (s.waits fo l (.dieLink s.agent (s.homeOf t.kind t.pa)))) ∧
      (∀ kind, t.kind = .host → s.reachable t = true → s.hostFault la = some kind →
        ∃ u, (u = s1 ∨ (3 ≤ kind ∧ u = s1.stored w.coreKey la bs)) ∧
          (kind ≠ 3 → exec i s = .next (u.traps fo l 0x15 va (BitVec.ofNat 32 kind))) ∧
          (kind = 3 → s.requestRoom w.coreKey = false → exec i s = .next (s1.waits fo l .requests)) ∧
          (kind = 3 → s.requestRoom w.coreKey = true → exec i s = .next (u.cxlWait fo w l ln va true))) ∧
      (t.kind = .remote → s.reachable t = true →
        let req (posted : Option Posted) : OutReq := s.laneReq fo.wave w.asid [(l, 0)] posted va t.pa n .store bs 0
        (s.requestRoom w.coreKey = false → exec i s = .next (s1.waits fo l .requests)) ∧
        (s.requestRoom w.coreKey = true → ln.bank.tail = 0 →
          exec i s = .next ((s1.request (req (some (Posted.mk fo.pc ln.inTrap)))).2.passes fo l)) ∧
        (s.requestRoom w.coreKey = true → ln.bank.tail ≠ 0 →
          exec i s = .next ((s1.request (req none)).2.remoteWait fo l (s1.request (req none)).1 [] true))) ∧
      (t.kind = .mmio → s.reachable t = true →
        ((z = .w ∨ z = .w2) → va % n = 0 → exec i s = .next ((s1.mmioWrite (la - mmioBase) n (BitVec.ofNat 64 (leNat bs))).passes fo l)) ∧
        (¬ (z = .w ∨ z = .w2) → exec i s = .next (s.traps fo l 0x12 va 0))) ∧
      (t.kind = .info → exec i s = .next (s.traps fo l 0x11 va (faultAux (laneAcc w ln true) 0 11)))) ∧
  -- R151, R103, R191, R426: an atomic of registers traps PROT with NOATOM, of the information page with INFOPAGE; one of another package
  -- leaves as a request and waits for its old word; one of host memory that fails does as a store.
  (
    ∀ (d a b : Opd) (op : AtomOp) (scope : AScope) (s : State) (fo : Focus) (w : Wave) (l : Nat) (ln : Lane) (t : Target), Single s fo w l ln →
      let va := (readOpd w l ln (opdPlus a 1) ++ readOpd w l ln a).toNat
      let la := localOf t.pa
      let x := readOpd w l ln b
      let side := atomSide op ln (readOpd w l ln d)
      let s1 := s.noteTlb w.asid t
      va % 4 = 0 → (floatAtomic op = true → uninit ln [x] = none) → s.translate (laneAcc w ln true) va = .ok t → s.behind fo l = false →
      ∀ i ∈ [Instr.atom d a b op scope, .atoma d a b op scope, .atoml d a b op scope, .atomal d a b op scope],
        (s.reachable t = true → t.kind = .mmio → exec i s = .next (s.traps fo l 0x11 va (faultAux (laneAcc w ln true) t.level 5)).sendHeld) ∧
        (t.kind = .info → exec i s = .next (s.traps fo l 0x11 va (faultAux (laneAcc w ln true) 0 11)).sendHeld) ∧
        (s.reachable t = false → exec i s = .next (s.settled (s.waits fo l (.dieLink s.agent (s.homeOf t.kind t.pa))) d 1).sendHeld) ∧
        (s.reachable t = true → t.kind = .remote → s1.joinable s.fabric.nextReq fo.wave t.pa = none →
          (s.requestRoom w.coreKey = false → exec i s = .next (s.settled (s1.waits fo l .requests) d 1).sendHeld) ∧
          (s.requestRoom w.coreKey = true →
            let q := s1.hold (s.laneReq fo.wave w.asid [(l, 0)] none va t.pa 4 (.atomic op) (natLe 4 x.toNat) side)
            exec i s = .next (s.settled (q.2.remoteWait fo l q.1 [] true) d 1).sendHeld)) ∧
        (∀ kind, s.reachable t = true → t.kind = .host → s.hostFault la = some kind →
          ∃ u, (u = s1 ∨ (3 ≤ kind ∧ u = s1.atomStore la (atomNew op side (wordAt (zread s.mem la 4) 0) x side).1)) ∧
            (kind ≠ 3 → exec i s = .next (u.traps fo l 0x15 va (BitVec.ofNat 32 kind)).sendHeld) ∧
            (kind = 3 → s.requestRoom w.coreKey = false → exec i s = .next (s.settled (s1.waits fo l .requests) d 1).sendHeld) ∧
            (kind = 3 → s.requestRoom w.coreKey = true → exec i s = .next (s.settled (u.cxlWait fo w l ln va true) d 1).sendHeld)))

/-- ATOM, ATOML, ATOMA and ATOMAL return the old word and store the new one, and change no other byte. What an atomic does to the L1 of its
own core is log entry 40 (DEDUCED). -/
def Obligations.AtomicsUpdate : Prop :=
  -- R148, R149, R150, R151: an atomic on sound memory of this package returns the old word and leaves the new one at the home, in one
  -- step; every other byte of memory stays; ATOMA and ATOMAL of a scope wider than the core also clear L1; one that raises an enabled
  -- flag has been performed, and then traps FP_EXC to resume after it. Requests of the package that wait to be sent leave then, if any
  -- can. Behind a lower lane of its instruction it waits for its turn (R137).
  (
    ∀ (d a b : Opd) (op : AtomOp) (scope : AScope) (s : State) (fo : Focus) (w : Wave) (l : Nat) (ln : Lane) (t : Target) (la : Nat),
      Single s fo w l ln →
      let va := (readOpd w l ln (opdPlus a 1) ++ readOpd w l ln a).toNat
      LandsInMemory s w ln true va 4 t la → va % 4 = 0 →
      let old := wordAt (zread s.mem la 4) 0
      let x := readOpd w l ln b
      let r := atomNew op (atomSide op ln (readOpd w l ln d)) old x (atomSide op ln (readOpd w l ln d))
      (floatAtomic op = true → uninit ln [x] = none) →
      let stored := (s.noteTlb w.asid t).atomStore la r.1
      let acquired := if s.wideAtomic w scope then stored.dropL1 w.coreKey else stored
      (s.behind fo l = true → ∀ i ∈ [Instr.atom d a b op scope, .atoma d a b op scope, .atoml d a b op scope, .atomal d a b op scope],
        exec i s = .next (s.settled (s.waits fo l .turn) d 1).sendHeld) ∧
      (s.behind fo l = false → fpTraps ln r.2 = false →
        exec (.atom d a b op scope) s = .next (stored.completes fo l d [old] r.2).sendHeld ∧
        exec (.atoml d a b op scope) s = .next (stored.completes fo l d [old] r.2).sendHeld ∧
        exec (.atoma d a b op scope) s = .next (acquired.completes fo l d [old] r.2).sendHeld ∧
        exec (.atomal d a b op scope) s = .next (acquired.completes fo l d [old] r.2).sendHeld) ∧
      (s.behind fo l = false → fpTraps ln r.2 = true →
        exec (.atom d a b op scope) s = .next (takeTrap stored fo.wave l (fpTrap r.2) true fo.len).sendHeld ∧
        exec (.atoml d a b op scope) s = .next (takeTrap stored fo.wave l (fpTrap r.2) true fo.len).sendHeld ∧
        exec (.atoma d a b op scope) s = .next (takeTrap acquired fo.wave l (fpTrap r.2) true fo.len).sendHeld ∧
        exec (.atomal d a b op scope) s = .next (takeTrap acquired fo.wave l (fpTrap r.2) true fo.len).sendHeld) ∧
      (∀ c, c ≠ w.coreKey → stored.core c = s.core c) ∧ (s.fabric.out = [] → s.fabric.casts = [] → s.waiting = [] → s.sendHeld = s) ∧
      wordAt (zread stored.mem la 4) 0 = r.1 ∧ (∀ y, (y < la ∨ la + 4 ≤ y) → zget stored.mem y = zget s.mem y)) ∧
  -- R149: the new word of each operation on an old one, an operand and an expected word.
  (
    ∀ (old b d : Word),
      let new (op : AtomOp) : Word := (atomNew op 0 old b d).1
      new .add = BitVec.ofNat 32 (old.toNat + b.toNat) ∧ new .sub = BitVec.ofInt 32 ((old.toNat : Int) - b.toNat) ∧
      (new .smin).toInt = min old.toInt b.toInt ∧ (new .smax).toInt = max old.toInt b.toInt ∧
      (new .umin).toNat = min old.toNat b.toNat ∧ (new .umax).toNat = max old.toNat b.toNat ∧
      new .and = old &&& b ∧ new .or = old ||| b ∧ new .xor = old ^^^ b ∧ new .exch = b ∧ new .cas = (if old = d then b else old) ∧
      (new .incw).toNat = (if b.toNat ≤ old.toNat then 0 else old.toNat + 1) ∧
      (new .decw).toNat = (if old.toNat = 0 ∨ b.toNat < old.toNat then b.toNat else old.toNat - 1))

/-- FENCE and the cache maintenance instructions complete, and drop what they say. -/
def Obligations.FencesAndCaches : Prop :=
  -- R154, R155, R187, R116, R366: a release fence waits for what its scope and domain name, remote stores to be acknowledged or lane
  -- copies to complete, and for nothing else (log entry 50, DEDUCED), and then only advances; an acquire, acq_rel or sc fence clears the L1 of its core when its scope is wider than the
  -- core, and the instruction cache in domain .dall, which an .eng or .io scope may imply; nothing else changes.
  (
    ∀ (scope : Scope) (kind : FenceKind) (dom : FenceDomain) (s : State) (fo : Focus) (w : Wave) (l : Nat) (ln : Lane), Solo s fo w l ln →
      let all := dom = .all ∨ (scope = .eng ∧ dom = .io) ∨ (scope = .io ∧ dom = .eng)
      let dom' := if all then .all else if scope = .eng ∧ dom = .mem then .eng else if scope = .io ∧ dom = .mem then .io else dom
      let pending := s.fenceWait fo.wave l scope dom'
      (∀ k, kind ≠ .acq → pending = some k → exec (.fence scope kind dom) s = .next (s.waits fo l k)) ∧
      (kind = .rel → pending = none → exec (.fence scope kind dom) s = .next (s.passes fo l)) ∧
      (kind ≠ .rel → (kind = .acq ∨ pending = none) → ∃ t, exec (.fence scope kind dom) s = .next t ∧ t = { s.passes fo l with cores := t.cores } ∧
        (∀ c, c ≠ w.coreKey → t.core c = s.core c) ∧
        t.core w.coreKey = { s.core w.coreKey with
          l1 := if s.wide w scope then [] else (s.core w.coreKey).l1
          icache := if all then [] else (s.core w.coreKey).icache })) ∧
  -- R159: CINV and PREF complete at once, never fault, change of the cores only the L1 of the issuing one, and no byte of any memory;
  -- after CINV none of the range's lines is there. CFLUSH of sound lines changes nothing that is stored; a line that an L2 holds
  -- dirty is written back, a host-homed one to its CXL home.
  (
    ∀ (a b : Opd) (s : State) (fo : Focus) (w : Wave) (l : Nat) (ln : Lane), Solo s fo w l ln →
      let va := (readOpd w l ln (opdPlus a 1) ++ readOpd w l ln a).toNat
      let c := s.core w.coreKey
      (∃ t, exec (.cinv a b) s = .next t ∧ t = { s.passes fo l with cores := t.cores } ∧ (∀ k, k ≠ w.coreKey → t.core k = s.core k) ∧
        t.core w.coreKey = { c with l1 := (t.core w.coreKey).l1 } ∧
        (∀ n g sec, n ∈ rangeLines va (readOpd w l ln b).toNat → s.translate (laneAcc w ln false) (n * 128) = .ok g → g.kind = .hbm →
          sec / 8 = localOf g.pa / 128 → sget (t.core w.coreKey).l1 sec = none) ∧
        (∀ e, e ∈ (t.core w.coreKey).l1 → e ∈ c.l1)) ∧
      (∃ t, exec (.pref a b) s = .next t ∧ t = { s.passes fo l with cores := t.cores, dir := t.dir, sent := t.sent, corrected := t.corrected } ∧
        (∀ k, k ≠ w.coreKey → t.core k = s.core k) ∧ t.core w.coreKey = { c with l1 := (t.core w.coreKey).l1 } ∧
        (∀ e, e ∈ (t.core w.coreKey).l1 → e ∈ c.l1 ∨ e.2 = zread s.mem (16 * e.1) 16))) ∧
  (
    ∀ (a b : Opd) (s : State) (fo : Focus) (w : Wave) (l : Nat) (ln : Lane), Solo s fo w l ln → ln.wait = none →
      let va := (readOpd w l ln (opdPlus a 1) ++ readOpd w l ln a).toNat
      let acc := laneAcc w ln false
      ((∀ n ∈ rangeLines va (readOpd w l ln b).toNat, ∃ g, s.translate acc (n * 128) = .ok g ∧ (g.kind = .hbm ∨ g.kind = .host) ∧ s.hostFault (localOf g.pa) = none ∧
          s.reachable g = true ∧ s.badLine (localOf g.pa / 128) = false ∧ s.dirtyLine (localOf g.pa / 128) = false ∧
          s.tlb.contains (TlbEntry.mk w.asid (g.page.getD (Page.mk .hbm 0 0 0 0 false false false))) = true ∧ g.page.isSome = true) →
        exec (.cflush a b) s = .next (s.passes fo l)) ∧
      (∀ g d, readOpd w l ln b = 0 → s.translate acc (va / 128 % 2 ^ 57 * 128) = .ok g → (g.kind = .hbm ∨ g.kind = .host) → s.reachable g = true →
        let line := localOf g.pa / 128
        let s1 := s.noteTlb w.asid g
        s.badLine line = false → s.hostFault (localOf g.pa) = none → sget s1.dir line = some d → d.dirty = true →
        (s.lineHome line = 7 ∨ g.kind = .host → s.host.up = true) →
        exec (.cflush a b) s = .next ((s1.writeBack line).passes fo l) ∧
        sget (s1.writeBack line).dir line = some { d with st := .s, back := [] } ∧ (s1.writeBack line).mem = s.mem ∧
        (s1.writeBack line).sent = if s.lineHome line = 7 then .writeBack line :: s1.sent else s1.sent))

/-- STMC stores into every member's window or reports the failed members; member writes and their answers. The L1 of the issuing core takes
a member's word that is stored here (log entry 40, DEDUCED). -/
def Obligations.Multicast : Prop :=
  -- R157, R193, R474: STMC over members of this package writes the word at the offset into each member's window with the lane's
  -- privilege (log entry 28, DEDUCED), in order, and goes on; the members that fail are the bits of MULTICAST_PARTIAL. A multicast to
  -- members on other packages leaves for those and waits for them (R14, R193). A misaligned offset traps ALIGN, a handle that is no live
  -- MCGROUP of the context KERNEL_OBJ (ALIGN first, and a window that is no multiple of 4 written all the same: log entry 98, DESIGN CHOICE).
  (
    ∀ (d a b : Opd) (s : State) (fo : Focus) (w : Wave) (l : Nat) (ln : Lane), Single s fo w l ln →
      let off := (readOpd w l ln (opdPlus a 1) ++ readOpd w l ln a).toNat
      let h := readOpd w l ln d
      let v := readOpd w l ln b
      (off % 4 ≠ 0 → exec (.stmc d a b) s = .next (s.traps fo l 0x12 off 0)) ∧
      (off % 4 = 0 → s.live h w.asid = none → exec (.stmc d a b) s = .next (s.traps fo l 0x38 0 h)) ∧
      (∀ idx, off % 4 = 0 → s.live h w.asid = some (idx, .mcgroup []) → exec (.stmc d a b) s = .next (s.passes fo l)) ∧
      (∀ idx m, off % 4 = 0 → s.live h w.asid = some (idx, .mcgroup [m]) → m.pkg = s.pkgid →
        (m.winSize < off + 4 → exec (.stmc d a b) s = .next (takeTrap s fo.wave l (Trap.mk 0x28 0 1) false fo.len)) ∧
        (∀ t la, off + 4 ≤ m.winSize → s.translate (Acc.mk m.asid ln.isPriv true false false) (m.winVa + off) = .ok t → t.kind = .hbm →
          la = localOf t.pa → la + 4 ≤ hbmEnd → s.poisoned la 4 = false → (m.winVa + off) % 4 = 0 → s.reachable t = true →
          exec (.stmc d a b) s = .next (((s.noteTlb m.asid t).stored w.coreKey la (natLe 4 v.toNat)).passes fo l))) ∧
      (∀ idx ms, off % 4 = 0 → s.live h w.asid = some (idx, .mcgroup ms) → (∀ m ∈ ms, m.pkg = s.pkgid ∧ s.memberLink ln.isPriv off m = none) →
        let r := s.castMembers ln.isPriv off v ms 0
        r.2.1 = [] ∧ (r.2.2 = [] → exec (.stmc d a b) s = .next (r.1.passes fo l)) ∧
        (r.2.2 ≠ [] → ms.length ≤ 16 → ∃ map : Word, (∀ i, i < 32 → map.getLsbD i = decide (i ∈ r.2.2)) ∧
          exec (.stmc d a b) s = .next (takeTrap r.1 fo.wave l (Trap.mk 0x28 0 map) false fo.len))) ∧
      (∀ idx ms, off % 4 = 0 → s.live h w.asid = some (idx, .mcgroup ms) → (∀ m ∈ ms, s.memberLink ln.isPriv off m = none) → s.castsAway ms = true →
        let r := s.castMembers ln.isPriv off v ms 0
        (s.requestRoom w.coreKey = false → exec (.stmc d a b) s = .next (s.waits fo l .requests)) ∧
        (s.requestRoom w.coreKey = true → r.2.1 ≠ [] ∧ exec (.stmc d a b) s = .next (r.1.cast fo l ln off v r.2.1 r.2.2)))) ∧
  -- R157: once every member has answered, the waiting lane goes on, or traps with the map of those that failed.
  (
    ∀ (d a b : Opd) (s : State) (fo : Focus) (w : Wave) (l : Nat) (ln : Lane) (wt : Wait) (req st : Nat), Solo s fo w l ln →
      ln.wait = some wt → wt.kind = .multicast req →
      (wt.status = some st → wt.value = 0 → exec (.stmc d a b) s = .next (s.passes fo l)) ∧
      (wt.status = some st → wt.value ≠ 0 → exec (.stmc d a b) s = .next (takeTrap s fo.wave l (Trap.mk 0x28 0 wt.value) false fo.len)) ∧
      (wt.status = none → exec (.stmc d a b) s = .next s)) ∧
  -- R157, R189, R193, R195: a multicast write whose group has authenticated is stored into its member's window, in its context, with
  -- the privilege it brings, kept in the window and acknowledged with the reason of its failure, if it failed; a repeated one is
  -- answered as before; the sender's lane goes on with
  -- the map of the failed members when all have answered.
  (
    (∀ (s s1 : State) (m : MemberWrite), s.input = some (.multicastMemberWrite m) → s.takeFlit (.member m) = some s1 →
      (∀ p, s1.performed m.pkg m.port m.seq (some m.member) = some p →
        exec .multicastMemberWrite s = .next (s1.sendFlit m.port (.multicastAck m.pkg m.port m.seq m.member p.failure))) ∧
      (∀ s2 r, s1.performed m.pkg m.port m.seq (some m.member) = none →
        s1.memberStore m.asid m.priv m.winva.toNat m.winsize m.offset m.data = some (s2, r) →
        exec .multicastMemberWrite s = .next ((s2.keep m.pkg m.port (Performed.mk m.seq (some m.member) r.isNone (natLe 1 (r.getD 0)))).sendFlit m.port
          (.multicastAck m.pkg m.port m.seq m.member r)))) ∧
    (∀ (s : State) (m : MemberWrite), s.input = some (.multicastMemberWrite m) → s.takeFlit (.member m) = none → exec .multicastMemberWrite s = .next s) ∧
    (∀ (s : State) (asid : Nat) (priv : Bool) (winVa winSize off : Nat) (v : Word),
      let acc := Acc.mk asid priv true false false
      let engine := s.engWrite acc (winVa + off) (natLe 4 v.toNat)
      (winSize < off + 4 → s.memberStore asid priv winVa winSize off v = some (s, some 0)) ∧
      (∀ e, off + 4 ≤ winSize → s.translate acc (winVa + off) = .error e → e.cause ≠ 0 →
        s.memberStore asid priv winVa winSize off v = some (s.noteBad e, some e.cause)) ∧
      (∀ g, off + 4 ≤ winSize → s.translate acc (winVa + off) = .ok g → g.kind ≠ .hbm → g.kind ≠ .host →
        s.memberStore asid priv winVa winSize off v = some (s, some 0x10)) ∧
      (∀ g e, off + 4 ≤ winSize → s.translate acc (winVa + off) = .ok g → (g.kind = .hbm ∨ g.kind = .host) → engine.2 = some e → e.cause ≠ 0 →
        s.memberStore asid priv winVa winSize off v = some (engine.1.noteBad e, some e.cause)) ∧
      (∀ g s1, off + 4 ≤ winSize → s.translate acc (winVa + off) = .ok g → (g.kind = .hbm ∨ g.kind = .host) →
        engine = (s1, none) → s.memberStore asid priv winVa winSize off v = some (s1, none))) ∧
    (∀ (s s1 : State) (req member : Nat) (failure : Option Nat) (c : CastReq), s.input = some (.multicastAck req member failure) →
      s.takeFlit (.ack req member failure) = some s1 → sget s1.fabric.casts req = some c →
      let left := c.waiting.filter (fun m => m.member != member)
      let bad := if failure = none then c.failed else member :: c.failed
      ((∀ m ∈ c.waiting, m.member ≠ member) → exec .multicastAck s = .next s1) ∧
      ((∃ m ∈ c.waiting, m.member = member) → left ≠ [] → exec .multicastAck s =
        .next { s1 with fabric := { s1.fabric with casts := sput s1.fabric.casts req { c with waiting := left, failed := bad } } }) ∧
      ((∃ m ∈ c.waiting, m.member = member) → left = [] → exec .multicastAck s =
        .next ((({ s1 with fabric := { s1.fabric with casts := sdel s1.fabric.casts req } } : State).release
          (fun k => k == WaitKind.multicast req) 0 (BitVec.ofNat 32 (bad.foldl (fun n m => n + 2 ^ m) 0)) []).settlePlanes))))

/-- MALLOC and MFREE of the device heap. Which block is given is a free choice (log entry 35, DESIGN CHOICE). -/
def Obligations.MallocAndMfree : Prop :=
  -- R132, R133, R158: MALLOC returns 0 for no size, a size above 8,192 or an exhausted pool; else a block from its quad's free
  -- list, which loses it, or of a fresh chunk; L1 is cleared as by an acquire.
  (
    ∀ (d a : Opd) (s : State) (fo : Focus) (w : Wave) (l : Nat) (ln : Lane), Single s fo w l ln →
      let size := (readOpd w l ln a).toNat
      let al := s.alloc w.asid
      let gives (t : State) (va : Nat) : State := (t.dropL1 w.coreKey).completes fo l d [BitVec.ofNat 32 va, BitVec.ofNat 32 (va / 2 ^ 32)] 0
      (size = 0 ∨ 8192 < size ∨ s.spaceOf w.asid = none → exec (.malloc d a) s = .next (gives s 0)) ∧
      (∀ c ttab base chunks, s.spaceOf w.asid = some (ttab, base, chunks) → size ≤ 64 * 2 ^ c → (c = 0 ∨ 64 * 2 ^ (c - 1) < size) → size ≠ 0 → c < 8 →
        let key := 8 * (w.die * 16 + s.quadOf w.die w.core) + c
        let own := sgetD al.free key []
        let took (al' : Alloc) : State := { s with allocs := sput s.allocs w.asid al' }
        (own ≠ [] → ∃ n va, own[n]? = some va ∧
          exec (.malloc d a) s = .next (gives (took { al with free := sput al.free key (own.eraseIdx n) }) va)) ∧
        (own = [] → sgetD al.returned key [] = [] → (∀ i, i < chunks → (sget al.taken i).isSome = true) → exec (.malloc d a) s = .next (gives s 0)) ∧
        (own = [] → sgetD al.returned key [] = [] → (∃ i, i < chunks ∧ sget al.taken i = none) →
          (∀ i, i < chunks → s.pagesFault (laneAcc w ln true) (base * 2 ^ 16 + i * 2 ^ 16) 65536 17 = none) →
          ∃ i j al', i < chunks ∧ sget al.taken i = none ∧ j < 1024 / 2 ^ c ∧ sget al'.taken i = some (w.die * 16 + s.quadOf w.die w.core, c) ∧
            exec (.malloc d a) s = .next (gives (took al') (base * 2 ^ 16 + i * 2 ^ 16 + j * (64 * 2 ^ c)))))) ∧
  -- R134, R158: MFREE of 0 frees nothing; a block of the lane's own quad goes onto that quad's free list, one of another quad on
  -- its way to its owner. Any address of a taken chunk of the pool is freed as one of its blocks, and none below the pool or in
  -- a chunk that is not taken (log entry 51, DESIGN CHOICE).
  (
    ∀ (a : Opd) (s : State) (fo : Focus) (w : Wave) (l : Nat) (ln : Lane) (ttab base chunks : Nat), Solo s fo w l ln →
      s.spaceOf w.asid = some (ttab, base, chunks) →
      let va := (readOpd w l ln (opdPlus a 1) ++ readOpd w l ln a).toNat
      let al := s.alloc w.asid
      (va = 0 ∨ va / 2 ^ 16 < base ∨ sget al.taken (va / 2 ^ 16 - base) = none → exec (.mfree a) s = .next (s.passes fo l)) ∧
      (∀ quad c, va ≠ 0 → base ≤ va / 2 ^ 16 → sget al.taken (va / 2 ^ 16 - base) = some (quad, c) →
        (quad = w.die * 16 + s.quadOf w.die w.core →
          exec (.mfree a) s = .next (({ s with allocs := sput s.allocs w.asid { al with
            free := sput al.free (8 * quad + c) (va :: sgetD al.free (8 * quad + c) []) } } : State).passes fo l)) ∧
        (quad ≠ w.die * 16 + s.quadOf w.die w.core →
          exec (.mfree a) s = .next (({ s with exchanges := s.exchanges ++ [(w.asid, va)] } : State).passes fo l))))

/-- R160, R161: LDT writes the element at its coordinates as FP32 or integer bits; STT stores d in the element's format, changing
no other byte. An invalid entry traps NOTENSOR, coordinates outside the extents TENSORRANGE, with TRAPVA 0 (log entry 30, DEDUCED); the
scale is read before the element (log entry 41, DEDUCED). -/
def Obligations.TensorElements : Prop :=
  ∀ (d a b : Opd) (s : State) (fo : Focus) (w : Wave) (l : Nat) (ln : Lane) (e : Tensor) (rem : List Byte), Single s fo w l ln →
    s.readTensor w.asid (wbits (readOpd w l ln b) 15 0) false [] = .ok (e, rem) →
    let i := e.coords (readOpd w l ln a).toNat (readOpd w l ln (opdPlus a 1)).toNat (wbits (readOpd w l ln b) 31 16)
    let va := (e.live + e.byteOf (e.index i)) % 2 ^ 64
    let n := elemBytes e.fmt
    (e.ok = false → exec (.ldt d a b) s = .next (s.traps fo l 0x11 0 (faultAux (laneAcc w ln false) 0 6)) ∧
      exec (.stt d a b) s = .next (s.traps fo l 0x11 0 (faultAux (laneAcc w ln true) 0 6))) ∧
    (e.ok = true → e.inside i = false → exec (.ldt d a b) s = .next (s.traps fo l 0x11 0 (faultAux (laneAcc w ln false) 0 7)) ∧
      exec (.stt d a b) s = .next (s.traps fo l 0x11 0 (faultAux (laneAcc w ln true) 0 7))) ∧
    (∀ sc rem1 t la, e.ok = true → e.inside i = true → s.elemScale (laneAcc w ln false) e i rem = .ok (sc, rem1) →
      (LandsInMemory s w ln false va n t la →
        let word (raw : Nat) : Nat := if e.fmt = 0 ∨ e.fmt = 5 then raw
          else widenElem false e.fmt sc (if e.fmt = 4 then raw / 16 ^ (e.index i % 2) % 16 else raw)
        (s.l1Serves w.coreKey la n = none → exec (.ldt d a b) s =
          .next (((s.fillL1 w.coreKey la).noteTlb w.asid t).completes fo l d [BitVec.ofNat 32 (word (leNat (zread s.mem la n)))] 0)) ∧
        (∀ bs, s.l1Serves w.coreKey la n = some bs → exec (.ldt d a b) s =
          .next ((s.noteTlb w.asid t).completes fo l d [BitVec.ofNat 32 (word (leNat bs))] 0))) ∧
      (LandsInMemory s w ln true va n t la → s.behind fo l = false → (t.kind = .hbm ∨ s.requestRoom w.coreKey = true) →
        let stores (bs : List Byte) (fl : Flags) : Prop := exec (.stt d a b) s =
          .next (((s.noteTlb w.asid t).stored w.coreKey la bs).modLane fo.wave l (fun x => (x.advance fo.next).raise fl))
        let v := (readOpd w l ln d).toNat
        (e.fmt = 0 ∨ e.fmt = 5 → stores (natLe 4 v) 0) ∧
        (∀ r, (e.fmt = 1 ∧ r = fpConvert fp32 bf16 (FpCtx.mk .rne false false) v) ∨ (e.fmt = 2 ∧ r = fpConvert fp32 fp16 (FpCtx.mk .rne false false) v) →
          (fpTraps ln r.flags = false → stores (natLe 2 r.bits) r.flags) ∧
          (fpTraps ln r.flags = true → exec (.stt d a b) s = .next (s.traps fo l 0x09 0 (r.flags.zeroExtend 32)))) ∧
        (∀ q, e.fmt = 3 → narrowTo 3 sc false v = .q q → stores [BitVec.ofInt 8 q] 0) ∧
        (∀ q, e.fmt = 4 → narrowTo 4 sc false v = .q q →
          let old := (zget s.mem la).toNat
          let nib := (BitVec.ofInt 4 q).toNat
          stores [BitVec.ofNat 8 (if e.index i % 2 = 0 then old / 16 * 16 + nib else old % 16 + nib * 16)] 0)))

/-- TINIT, TSTAT and the other slot functions move a slot between its states. TRAPVA 0 of SLOTARG and SLOTOWNER is log entry 30 (DEDUCED). -/
def Obligations.Slots : Prop :=
  -- R223, R224, R226: TINIT on an EMPTY slot: checks of the slot word, the base and the extent in order, then FILLING (READY
  -- without bytes to expect) or, outbound, DRAINING (EMPTY without bytes), GEN kept and returned.
  (
    ∀ (d a b : Opd) (s : State) (fo : Focus) (w : Wave) (l : Nat) (ln : Lane) (k : Block), Solo s fo w l ln → ln.wait = none → sget s.blocks w.block = some k →
      let word := readOpd w l ln a
      let i := wbits word 5 0
      let core := coreKey k.die k.core
      let x := s.slot core i
      let base := (readOpd w l ln b).toNat
      let size := wbits (readOpd w l ln (opdPlus b 1)) 11 0
      let expected := wbits (readOpd w l ln (opdPlus b 1)) 31 12
      let out := word.getLsbD 8
      let prot (va reason : Nat) : State := s.traps fo l 0x11 va (faultAux (laneAcc w ln false) 0 reason)
      let bad := size = 0 ∨ 2048 < size ∨ k.scratchBytes < base + 256 * size ∨ 256 * size < expected
      (word &&& 0xFFFFFEC0 ≠ 0 → exec (.tinit d a b) s = .next (prot 0 16)) ∧
      (word &&& 0xFFFFFEC0 = 0 → x.st ≠ .empty → x.asid ≠ w.asid → exec (.tinit d a b) s = .next (prot 0 15)) ∧
      (word &&& 0xFFFFFEC0 = 0 → (x.st = .empty ∨ x.asid = w.asid) → base % 256 ≠ 0 → exec (.tinit d a b) s = .next (s.traps fo l 0x12 base 0)) ∧
      (word &&& 0xFFFFFEC0 = 0 → (x.st = .empty ∨ x.asid = w.asid) → base % 256 = 0 → bad → exec (.tinit d a b) s = .next (prot base 14)) ∧
      (word &&& 0xFFFFFEC0 = 0 → base % 256 = 0 → ¬ bad → x.st = .empty →
        let y : Slot := if expected = 0 ∧ out = true then { Slot.reset with gen := x.gen }
          else Slot.mk (if expected = 0 then .ready else if out then .draining else .filling) ((k.scratchBase * 4096 + base) / 256) size expected 0 x.gen 0 w.asid
        exec (.tinit d a b) s = .next ((s.setSlot core i y).completes fo l d [BitVec.ofNat 32 x.gen] 0)) ∧
      (word &&& 0xFFFFFEC0 = 0 → base % 256 = 0 → ¬ bad → (x.st = .filling ∨ x.st = .draining ∨ x.st = .poisoned) → x.asid = w.asid → expected ≠ 0 →
        let y := Slot.mk (if out then .draining else .filling) ((k.scratchBase * 4096 + base) / 256) size expected 0 ((x.gen + 1) % 256) 0 w.asid
        exec (.tinit d a b) s = .next (((s.setSlot core i y).releaseSlot core i 7 0).completes fo l d [BitVec.ofNat 32 ((x.gen + 1) % 256)] 0))) ∧
  -- R126, R127, R227, R228, R229: TWAIT goes on at READY or EMPTY, waits while bytes are outstanding, takes TILE_POISON at
  -- POISONED; TSTAT returns the map of the slot, STATE alone of another context's; TREADY makes a slot that waits for bytes
  -- READY, else STATE; TEMPTY empties it and advances GEN; both release its waiters.
  (
    ∀ (d a : Opd) (s : State) (fo : Focus) (w : Wave) (l : Nat) (ln : Lane) (k : Block), Single s fo w l ln → sget s.blocks w.block = some k →
      let word := readOpd w l ln a
      let i := wbits word 5 0
      let core := coreKey k.die k.core
      let x := s.slot core i
      word &&& 0xFFFFFEC0 = 0 →
      (x.st = .empty ∨ x.asid = w.asid →
        ((x.st = .ready ∨ x.st = .empty) → exec (.twait d a) s = .next (s.completes fo l d [0] 0)) ∧
        ((x.st = .filling ∨ x.st = .draining) → exec (.twait d a) s = .next (s.settled (s.waits fo l (.slotRelease core i)) d 1)) ∧
        (x.st = .poisoned → exec (.twait d a) s = .next (s.traps fo l 0x20 0 (BitVec.ofNat 32 (i * 256 + x.pcause)))) ∧
        ((x.st = .filling ∨ x.st = .draining) →
          exec (.tready d a) s = .next (((s.setSlot core i { x with st := .ready }).releaseSlot core i 0 0).completes fo l d [0] 0)) ∧
        ((x.st = .empty ∨ x.st = .ready ∨ x.st = .poisoned) → exec (.tready d a) s = .next (s.completes fo l d [5] 0)) ∧
        exec (.tempty d a) s =
          .next (((s.setSlot core i { Slot.reset with gen := (x.gen + 1) % 256 }).releaseSlot core i 7 0).completes fo l d [0] 0)) ∧
      (∃ v : List Word, v.length = 4 ∧ exec (.tstat d a) s = .next (s.completes fo l d v 0) ∧
        ((x.st = .empty ∨ x.asid = w.asid) → x.base < 2 ^ 12 → x.size < 2 ^ 12 → x.expected < 2 ^ 20 → x.arrived < 2 ^ 24 → x.gen < 256 → x.pcause < 2 ^ 12 → x.asid < 2 ^ 16 →
          wbits (v.getD 0 0) 31 24 = slotStateCode x.st ∧ wbits (v.getD 0 0) 11 0 = x.base ∧ wbits (v.getD 0 0) 23 12 = x.size ∧ wbits (v.getD 1 0) 19 0 = x.expected ∧ wbits (v.getD 1 0) 31 20 = x.pcause ∧
          wbits (v.getD 2 0) 23 0 = x.arrived ∧ wbits (v.getD 2 0) 31 24 = x.gen % 256 ∧ wbits (v.getD 3 0) 31 16 = x.asid) ∧
        (x.st ≠ .empty → x.asid ≠ w.asid → v.getD 1 0 = 0 ∧ v.getD 2 0 = 0 ∧ v.getD 3 0 = 0 ∧ v.getD 0 0 = BitVec.ofNat 32 (slotStateCode x.st * 2 ^ 24)) ∧
        [SlotState.empty, .filling, .ready, .draining, .poisoned].map slotStateCode = [0, 1, 2, 3, 4])) ∧
  -- R227: a lane that its slot's end has released goes on with the status of that end, or with TILE_POISON, whatever its slot is by then
  -- and whoever's; what it had for a g register was outstanding meanwhile (R247, R248).
  (
    ∀ (d a : Opd) (s : State) (fo : Focus) (w : Wave) (l : Nat) (ln : Lane) (k : Block) (wt : Wait) (st : Nat), Solo s fo w l ln →
      sget s.blocks w.block = some k → ln.wait = some wt → wt.status = some st →
      (st ≠ 32 → exec (.twait d a) s = .next (s.settled (s.completes fo l d [BitVec.ofNat 32 st] 0) d 1)) ∧
      (st = 32 → exec (.twait d a) s = .next (s.settled (s.traps fo l 0x20 0 wt.value) d 1)))

/-- The lane copies move their bytes to and from a slot. TRAPVA 0 of SLOTOWNER is log entry 30 (DEDUCED), the scratch offset before the
global address log entry 31 (DEDUCED), and that only outbound copies merge log entry 97 (DEDUCED). -/
def Obligations.LaneCopies : Prop :=
  -- R230, R231, R232: LCP puts its copy in flight behind the others: inbound at once; outbound from a READY or DRAINING slot, the
  -- scratchpad read now; from a FILLING or EMPTY slot it waits, from a POISONED one it traps, also where the slot that it waited for has
  -- been poisoned (R127). With 1,536 requests of its core outstanding (R14) it waits for room.
  (
    ∀ (sa g : Opd) (size : CopySize) (out ordered : Bool) (slot : BitVec 6) (s : State) (fo : Focus) (w : Wave) (l : Nat) (ln : Lane) (k : Block) (t : Target),
      Single s fo w l ln → sget s.blocks w.block = some k →
      let n := copyBytes size
      let core := coreKey k.die k.core
      let x := s.slot core slot.toNat
      let sc := (readOpd w l ln sa).toNat
      let va := (readOpd w l ln (opdPlus g 1) ++ readOpd w l ln g).toNat
      let off := k.scratchBase * 4096 + sc
      let copy := LaneCopy.mk fo.wave l k.launch (!out) va t.pa false w.asid (s.ctx w.asid).gen off n slot.toNat x.gen ordered s.ticket
        (if out then zread (s.core core).scratch off n else [])
      let i := Instr.lcp sa g size out slot ordered
      (x.st ≠ .empty → x.asid ≠ w.asid → exec i s = .next (s.traps fo l 0x11 0 (faultAux (laneAcc w ln false) 0 15))) ∧
      ((x.st = .empty ∨ x.asid = w.asid) → sc % n ≠ 0 → exec i s = .next (s.traps fo l 0x12 sc 0)) ∧
      ((x.st = .empty ∨ x.asid = w.asid) → sc % n = 0 → va % n ≠ 0 → exec i s = .next (s.traps fo l 0x12 va 0)) ∧
      ((x.st = .empty ∨ x.asid = w.asid) → sc % n = 0 → va % n = 0 → k.scratchBytes < sc + n →
        exec i s = .next (s.traps fo l 0x11 sc (faultAux (laneAcc w ln (!out)) 0 14))) ∧
      ((x.st = .empty ∨ x.asid = w.asid) → sc % n = 0 → va % n = 0 → sc + n ≤ k.scratchBytes → s.translate (laneAcc w ln out) va = .ok t → t.kind = .hbm →
        (s.requestRoom w.coreKey = false → exec i s = .next (s.waits fo l .requests)) ∧
        (s.requestRoom w.coreKey = true → (out = false ∨ x.st = .ready ∨ x.st = .draining) →
          exec i s = .next (((s.modCore core (fun c => { c with copies := c.copies ++ [copy] })).noteTlb w.asid t).passes fo l)) ∧
        (s.requestRoom w.coreKey = true → out = true → (x.st = .filling ∨ x.st = .empty) → exec i s = .next (s.waits fo l (.slotDrain core slot.toNat))) ∧
        (s.requestRoom w.coreKey = true → out = true → x.st = .poisoned → exec i s = .next (s.traps fo l 0x20 0 (BitVec.ofNat 32 (slot.toNat * 256 + x.pcause)))))) ∧
  (
    ∀ (sa g : Opd) (size : CopySize) (out ordered : Bool) (slot : BitVec 6) (s : State) (fo : Focus) (w : Wave) (l : Nat) (ln : Lane) (k : Block)
        (wt : Wait) (c i : Nat), Solo s fo w l ln → sget s.blocks w.block = some k → ln.wait = some wt → wt.kind = .slotDrain c i → wt.status = some 32 →
      exec (.lcp sa g size out slot ordered) s = .next (s.traps fo l 0x20 0 wt.value)) ∧
  -- R125, R126, R128, R232, R233: the completion of a lane copy: an inbound one brings the bytes at its home into the scratchpad, an
  -- outbound one puts what it read into memory, those of one instruction that cover a line as one operation on it, and each counts
  -- its bytes where the slot still has the GEN it captured. An ordered copy does not overtake its lane's earlier ones.
  (
    ∀ (s : State) (core n : Nat) (c : LaneCopy) (w : Wave), s.input = some (.laneCopyComplete core n) → (s.core core).copies[n]? = some c →
      s.wave c.wave = some w → c.remote = false →
      let cs := s.mergedCopies core c
      let la := localOf c.pa
      let me := Client.copy c.issue ((cs.headD c).lane)
      let ran := s.asEngine me w.die
      let held := ∃ d ∈ cs, s.copyHeld d = true
      let ends (t : State) : Prop := exec .laneCopyComplete s = .next (s.engineDone me (t.endCopies core cs none))
      (held → exec .laneCopyComplete s = .next s) ∧
      (¬ held → s.quiet me → ran.reach w.die (s.homeDie la) = true → la + 128 ≤ hbmEnd →
        (c.inbound = true → c.data = [] → s.poisoned la c.size = false → ends ((ran.receive la).scratchWrite core c.scratch (zread s.mem la c.size))) ∧
        (c.inbound = false → cs.length ≤ 1 → c.data.length < 128 → s.poisoned la c.data.length = false → ends (ran.storeHome la c.data)) ∧
        (c.inbound = false → 1 < cs.length → c.pa / 2 ^ 47 = c.pa / 128 * 128 / 2 ^ 47 →
          ends ((ran.unpoison (localOf (c.pa / 128 * 128) / 128)).storeHome (localOf (c.pa / 128 * 128)) ((List.range 128).map (fun i => (copyByte cs i).getD 0)))))) ∧
  -- R125, R126: what a transfer's end counts: nothing where the slot's GEN or state is another's; the last byte makes an inbound slot
  -- READY and an outbound one EMPTY, and releases its waiters; a byte too many poisons it, and so does a transfer that fails, for
  -- everyone that waits for something of it (R127, R227).
  (
    ∀ (s : State) (core i gen n cause : Nat) (inbound : Bool),
      let x := s.slot core i
      let mine := x.gen = gen ∧ x.st = (if inbound then .filling else .draining)
      (¬ mine → s.countBytes core i gen inbound n = s ∧ s.failTransfer core i gen inbound cause = s) ∧
      (mine → x.arrived + n < x.expected → s.countBytes core i gen inbound n = s.setSlot core i { x with arrived := x.arrived + n }) ∧
      (mine → x.arrived + n = x.expected → s.countBytes core i gen inbound n = (s.setSlot core i
        (if inbound then { x with st := .ready, arrived := x.expected } else { Slot.reset with gen := x.gen })).releaseSlot core i 0 0) ∧
      (mine → x.expected < x.arrived + n → s.countBytes core i gen inbound n = s.poisonSlot core i 0) ∧
      (mine → s.failTransfer core i gen inbound cause = (s.setSlot core i { x with st := .poisoned, pcause := cause }).release
        (fun q => q = .slotRelease core i ∨ q = .slotReady core i ∨ q = .slotDrain core i) 32 (BitVec.ofNat 32 (i * 256 + cause)) []))

/-- R234, R235, R241: SCMD of a readable record, once its lane has no copies in flight (R155): FULL with 16 jobs in the channel, BADREC for
a bad one, else the job at the end of the channel and OK. SRESUME restarts a FAULTED head with its JOBID, SCANCEL ends a job that has one,
at the end of its iteration if it is within one, and poisons the slots that it was filling or draining (R126), else NOJOB. SPOLL returns
STATUS of the record whose SEQ has come, else all ones. Where SPOLL with its operand b looks is log entry 42 (DEDUCED). -/
def Obligations.StreamJobs : Prop :=
  ∀ (d a b : Opd) (s : State) (fo : Focus) (w : Wave) (l : Nat) (ln : Lane) (k : Block), Single s fo w l ln → sget s.blocks w.block = some k →
    let core := coreKey k.die k.core
    let va := (readOpd w l ln (opdPlus a 1) ++ readOpd w l ln a).toNat
    let id := (readOpd w l ln a).toNat
    (va % 128 ≠ 0 → exec (.scmd d a) s = .next (s.traps fo l 0x12 va 0)) ∧
    (∀ bs rem s1, va % 128 = 0 → s.laneRead w.coreKey (laneAcc w ln false) va 128 [] = .ok (bs, rem, s1) →
      let c := StreamCmd.ofBytes bs
      (s1.copying fo.wave l = true → exec (.scmd d a) s = .next (s.settled (s1.waits fo l .copies) d 1)) ∧ (s1.copying fo.wave l = false →
      (16 ≤ (s1.core core).jobs.length → exec (.scmd d a) s = .next (s1.completes fo l d [1] 0)) ∧
      ((s1.core core).jobs.length < 16 → c.formed = false → exec (.scmd d a) s = .next (s1.completes fo l d [2] 0)) ∧
      (∀ good, (s1.core core).jobs.length < 16 → c.formed = true → s1.sidesOk w.asid c rem = .ok good →
        (good && s1.signalOk w.asid c.signal) = false → exec (.scmd d a) s = .next (s1.completes fo l d [2] 0)) ∧
      ((s1.core core).jobs.length < 16 → c.formed = true → s1.sidesOk w.asid c rem = .ok true → s1.signalOk w.asid c.signal = true →
        exec (.scmd d a) s = .next ((({ s1 with ticket := s1.ticket + 1 } : State).modCore core (fun x => { x with
          jobs := x.jobs ++ [{ record := bs, asid := w.asid, priv := ln.isPriv, phase := .queued, status := 0, bases := none, iter := 0, bytes := 0,
                               cur := none, faultCode := 0, faultVa := 0, faultReason := 0, out := [], serial := s1.ticket }] })).completes fo l d [0] 0)))) ∧
    (∀ j r, (s.core core).jobs = j :: r →
      (j.phase = .faulted → j.cmd.jobId = id →
        exec (.sresume d a) s = .next ((s.modCore core (fun x => { x with
          jobs := { j with phase := if j.bases.isSome then .running else .queued, status := 0, faultCode := 0, faultVa := 0, faultReason := 0 } :: r })).completes fo l d [0] 0)) ∧
      ((j.phase ≠ .faulted ∨ j.cmd.jobId ≠ id) → exec (.sresume d a) s = .next (s.completes fo l d [3] 0)) ∧
      (j.cmd.jobId = id → (j.phase = .queued ∨ j.phase = .running ∨ j.phase = .faulted) → j.stopping = false →
        (j.phase = .running → s.slipBusy core = true → exec (.scancel d a) s =
          .next ((s.modCore core (fun x => { x with jobs := { j with stopping := true } :: r })).completes fo l d [0] 0)) ∧
        ((j.phase ≠ .running ∨ s.slipBusy core = false) → exec (.scancel d a) s =
          .next ((((s.dropClient (.slip core)).modCore core (fun x => { x with
            jobs := { j with phase := .ending, status := 2, cur := none, stopping := false } :: r })).loseSlots core j).completes fo l d [0] 0)))) ∧
    ((s.core core).jobs = [] → exec (.sresume d a) s = .next (s.completes fo l d [3] 0)) ∧
    ((∀ j ∈ (s.core core).jobs, j.cmd.jobId ≠ id) → exec (.scancel d a) s = .next (s.completes fo l d [3] 0)) ∧
    (∀ idx bs rem s1, idx = (readOpd w l ln b).toNat →
      let p := (va + 64 + 64 * idx) % 2 ^ 64
      p % 4 = 0 → s.engRead (laneAcc w ln false) p 4 [] = .ok (bs, rem, s1) →
      (leNat bs ≠ (idx + 1) % 2 ^ 32 → exec (.spoll d a b) s = .next ((s1.dropL1 w.coreKey).completes fo l d [0xFFFFFFFF] 0)) ∧
      (∀ st rem' s2, leNat bs = (idx + 1) % 2 ^ 32 → s1.engRead (laneAcc w ln false) (p + 8) 1 rem = .ok (st, rem', s2) →
        exec (.spoll d a b) s = .next ((s2.dropL1 w.coreKey).completes fo l d [BitVec.ofNat 32 (leNat st)] 0)))

/-- SHALO, TDEF and the tensor table's entries. The order of the checks is log entry 43 (DEDUCED), TRAPVA 0 of NOTENSOR and SLOTOWNER log
entry 30 (DEDUCED). -/
def Obligations.HalosAndTensorEntries : Prop :=
  -- R242: SHALO reads its record once. From a READY slot of the context on an enabled core of the quad it copies the rows into the
  -- block's scratchpad and returns OK; it waits for a slot that is not READY yet, and then goes on with the record as read, or traps
  -- where the slot has been poisoned meanwhile (R127); NOCORE, BADREC, ALIGN, SLOTOWNER and SCRRANGE as the record asks. Its status for a
  -- g register is outstanding while it waits (R247, R248).
  (
    ∀ (d a : Opd) (s : State) (fo : Focus) (w : Wave) (l : Nat) (ln : Lane) (k : Block), Solo s fo w l ln → sget s.blocks w.block = some k →
      let va := (readOpd w l ln (opdPlus a 1) ++ readOpd w l ln a).toNat
      let out (u : State) : Prop := exec (.shalo d a) s = .next (s.settled u d 1)
      let acts (t : State) (bs : List Byte) : Prop :=
        let h := Halo.ofBytes bs
        let phys := 4 * t.quadOf w.die w.core + h.pos
        let sound := h.srcPitch % 8 = 0 ∧ h.dstPitch % 8 = 0 ∧ h.rowBytes % 8 = 0
        (t.logicalCore w.die phys = none → out (t.completes fo l d [4] 0)) ∧
        (∀ c, t.logicalCore w.die phys = some c →
          let src := coreKey w.die c
          let x := t.slot src h.slot
          (¬ sound → out (t.traps fo l 0x12 va 0)) ∧
          (sound → (h.rows = 0 ∨ 256 < h.rows ∨ h.rowBytes < 8 ∨ 4096 < h.rowBytes) → out (t.completes fo l d [2] 0)) ∧
          (sound → 0 < h.rows → h.rows ≤ 256 → 8 ≤ h.rowBytes → h.rowBytes ≤ 4096 →
            ((x.st = .empty ∨ x.st = .filling ∨ x.st = .draining) → out (t.waitWith fo.wave l (.slotReady src h.slot) 0 bs)) ∧
            (x.st = .poisoned → out (t.traps fo l 0x20 0 (BitVec.ofNat 32 (h.slot * 256 + x.pcause)))) ∧
            (x.st = .ready → x.asid ≠ w.asid → out (t.traps fo l 0x11 0 (faultAux (laneAcc w ln false) 0 15))) ∧
            (x.st = .ready → x.asid = w.asid → h.srcOff + (h.rows - 1) * h.srcPitch + h.rowBytes ≤ 256 * x.size →
              h.dst + (h.rows - 1) * h.dstPitch + h.rowBytes ≤ k.scratchBytes →
              out ((t.haloRows h src (256 * x.base) (coreKey k.die k.core) (k.scratchBase * 4096)).completes fo l d [0] 0))))
      (∀ bs rem s1, ln.wait = none → va % 32 = 0 → s.laneRead w.coreKey (laneAcc w ln false) va 32 [] = .ok (bs, rem, s1) → acts s1 bs) ∧
      (∀ wt core slot, ln.wait = some wt → wt.kind = .slotReady core slot →
        (wt.status = some 32 → out (s.traps fo l 0x20 0 wt.value)) ∧ (wt.status ≠ some 32 → acts s wt.bytes)) ∧
      (∀ h src so dst o, h.rows = 1 → s.haloRows h src so dst o = s.scratchWrite dst (o + h.dst) (s.scratchRead src (so + h.srcOff) h.rowBytes))) ∧
  -- R243: TDEF writes a valid record as the entry, TUNDEF clears VALID of a valid entry; BADREC, NOTREADY and NOTENSOR as they stand.
  (
    ∀ (d a b : Opd) (s : State) (fo : Focus) (w : Wave) (l : Nat) (ln : Lane) (k : Block), Single s fo w l ln → sget s.blocks w.block = some k →
      let rec_ := (readOpd w l ln (opdPlus b 1) ++ readOpd w l ln b).toNat
      let id := readOpd w l ln a
      (∀ bs rem s1, rec_ % 64 = 0 → s.laneRead w.coreKey (laneAcc w ln false) rec_ 64 [] = .ok (bs, rem, s1) → id.toNat < 65536 →
        ((Tensor.ofBytes 0 bs).formed = false → exec (.tdef d a b) s = .next (s1.completes fo l d [2] 0)) ∧
        (∀ ea s2, (Tensor.ofBytes 0 bs).formed = true → s1.entryVa w.asid id.toNat = some ea →
          (s1.withAcks ln).writeEntry w.asid false ea (definedEntry bs) = .ok s2 → exec (.tdef d a b) s = .next (s2.noRun.completes fo l d [0] 0))) ∧
      (65536 ≤ id.toNat → exec (.tundef d a) s = .next (s.traps fo l 0x11 0 (faultAux (laneAcc w ln false) 0 6))) ∧
      (∀ e rem, id.toNat < 65536 → s.readTensor w.asid id.toNat false [] = .ok (e, rem) →
        (e.ok = false → exec (.tundef d a) s = .next (s.completes fo l d [6] 0)) ∧
        (∀ old s2, e.ok = true → (s.withAcks ln).entryAtomic w.asid false e.va 0 .and 0xFFFFFFFE = .ok (old, s2) → old.getLsbD 0 = true →
          exec (.tundef d a) s = .next (s2.noRun.completes fo l d [0] 0)))) ∧
  -- R244, R108, R155: SPUB, once its lane has no copies in flight: one update of a valid entry with a shadow at its home exchanges the
  -- sides; the context's generation advances; it returns the new PUBGEN, after every access translated before has been performed.
  (
    ∀ (d a : Opd) (s : State) (fo : Focus) (w : Wave) (l : Nat) (ln : Lane) (k : Block), Solo s fo w l ln → sget s.blocks w.block = some k →
      let id := readOpd w l ln a
      (ln.wait = none → s.copying fo.wave l = true → exec (.spub d a) s = .next (s.settled (s.waits fo l .copies) d 1)) ∧
      (ln.wait = none → s.copying fo.wave l = false → 65536 ≤ id.toNat → exec (.spub d a) s = .next (s.traps fo l 0x11 0 (faultAux (laneAcc w ln false) 0 6))) ∧
      (∀ ea t la, ln.wait = none → s.copying fo.wave l = false → id.toNat < 65536 → s.entryVa w.asid id.toNat = some ea →
        s.translate (entryAcc w.asid false) ea = .ok t → t.kind = .hbm → la = localOf t.pa → la + 64 ≤ hbmEnd → s.reachable t = true →
        s.poisoned la 64 = false →
        let e := Tensor.ofBytes ea (zread s.mem la 64)
        let adv := ((s.noteTlb w.asid t).stored w.coreKey (la + 8) e.published).advanceGen w.asid
        let gen := (adv.ctx w.asid).gen
        (e.publishes = false → exec (.spub d a) s = .next ((s.noteTlb w.asid t).traps fo l 0x11 0 (faultAux (laneAcc w ln true) 0 6))) ∧
        (e.publishes = true → adv.olderAccess (some w.asid) gen = false →
          exec (.spub d a) s = .next ((adv.dropL1 w.coreKey).completes fo l d [BitVec.ofNat 32 ((e.pubGen + 1) % 65536)] 0)) ∧
        (e.publishes = true → adv.olderAccess (some w.asid) gen = true →
          exec (.spub d a) s = .next (s.settled (adv.waitWith fo.wave l (.advance (some w.asid) gen) 1 (natLe 4 ((e.pubGen + 1) % 65536))) d 1))) ∧
      (∀ wt c g, ln.wait = some wt → wt.kind = .advance c g →
        exec (.spub d a) s = .next (s.settled ((s.dropL1 w.coreKey).completes fo l d [BitVec.ofNat 32 (leNat wt.bytes)] 0) d 1))) ∧
  -- R244, R243, R130: the 30 bytes an SPUB writes over an entry exchange its sides and advance PUBGEN, and leave every other
  -- field; those TDEF writes are the record's, VALID 1, PUBGEN 0, the reserved bits 0; TUNDEF's clear VALID alone.
  (
    ∀ (bs : List Byte) (va : Nat), bs.length = 64 →
      let e := Tensor.ofBytes va bs
      Tensor.ofBytes va (bs.take 8 ++ e.published ++ bs.drop 38) =
        { e with live := e.shadow, shadow := e.live, pubGen := (e.pubGen + 1) % 65536 } ∧
      Tensor.ofBytes va (definedEntry bs) = { e with valid := true, pubGen := 0 } ∧ bitsOf (leNat (definedEntry bs)) 31 18 = 0 ∧
      Tensor.ofBytes va (natLe 4 (wordAt bs 0 &&& 0xFFFFFFFE).toNat ++ bs.drop 4) = { e with valid := false })

/-- R236 to R240: the head job of a channel: it starts when nothing before it still completes and keeps its bases; a tile waits for its slot
to be FILLING or DRAINING under the context; an iteration moves its run and counts it; the last one ends the job OK, a fault ends it
FAULTED; its place on the ring is taken once, by one add to the 64-bit WIDX, its record and then its signal follow, and it leaves the
channel, or stays at its head FAULTED. How the ring is laid out and its place taken is log entry 42 (DEDUCED), FAULTVA of a fault log entry
44 (DEDUCED), and when a signal is over log entry 45 (DEDUCED). -/
def Obligations.SlipJobsRun : Prop :=
  ∀ (s : State) (core : Nat) (j : SlipJob) (r : List SlipJob), (s.core core).jobs = j :: r → s.quiet (.slip core) →
    s.quiet (.slipRing core j.serial) → j.stopping = false →
    let me := Client.slip core
    let rem := (s.fabric.answersOf me).bytes
    let ran := s.asEngine me (core / 64)
    let meRing := Client.slipRing core j.serial
    let ranRing := s.asEngine meRing (core / 64)
    let job (t : State) (f : SlipJob → SlipJob) : State := t.modCore core (fun c => { c with jobs := f j :: r })
    let c := j.cmd
    let a := Acc.mk j.asid j.priv false false true
    (s.input = some (.slipJobStart core) → j.phase = .queued →
      ((∃ x ∈ r, x.phase = .ending ∨ x.phase = .signalling) → exec .slipJobStart s = .next s) ∧
      ((∀ x ∈ r, x.phase ≠ .ending ∧ x.phase ≠ .signalling) →
        (∀ bases, ran.slipBases j rem = .ok bases →
          exec .slipJobStart s = .next (s.engineDone me (job ran (fun x => { x with phase := .running, bases := some bases })))) ∧
        (∀ e, ran.slipBases j rem = .error e → e.cause ≠ 0 → exec .slipJobStart s = .next (s.engineDone me (ran.faultJob core e))))) ∧
    (s.input = some (.slipTileStart core) → j.phase = .running → (c.srcRing || c.dstRing) = true → j.cur = none →
      let t := j.iter / c.perTile
      let slot := c.slot0 + t % c.nslots
      let x := s.slot core slot
      ((x.asid ≠ j.asid ∨ x.st ≠ (if c.dstRing then .filling else .draining)) → exec .slipTileStart s = .next s) ∧
      (x.asid = j.asid → x.st = (if c.dstRing then .filling else .draining) →
        exec .slipTileStart s = .next (job s (fun y => { y with
          cur := some (t, slot, x.gen), counted := (slot, x.gen, c.dstRing) :: y.counted.filter (fun e => e.1 != slot) })))) ∧
    (∀ sb ss db ds sa da s1 s2 src rem1, s.input = some (.slipIteration core) → j.phase = .running → j.bases = some (sb, ss, db, ds) →
      c.srcRing = false → c.dstRing = false →
      let i := digits c.bounds j.iter
      tensorSide a sb ss c.srcOff c.run (strideSum i c.srcStrides 5) = .ok sa →
      tensorSide { a with write := true } db ds c.dstOff c.run (strideSum i c.dstStrides 5) = .ok da →
      ran.engRead a sa c.run rem = .ok (src, rem1, s1) → s1.engWrite a da src = (s2, none) →
      exec .slipIteration s = .next (s.engineDone me (s2.modJob core 0 (fun x =>
        { x with iter := x.iter + 1, bytes := x.bytes + c.run,
                 phase := if c.total ≤ x.iter + 1 then .ending else x.phase, status := if c.total ≤ x.iter + 1 then 0 else x.status })))) ∧
    (∀ e, s.input = some (.slipIteration core) → j.phase = .running → j.bases.isSome = true → c.srcRing = false → c.dstRing = false → e.cause ≠ 0 →
      ran.slipSource core j a (digits c.bounds j.iter) (j.bases.getD (0, 0, 0, 0)) rem = .error e →
      exec .slipIteration s = .next (s.engineDone me (ran.faultJob core e))) ∧
    (∀ e, ran.faultJob core e = job (ran.noteBad e) (fun x =>
      { x with phase := .ending, status := 1, faultCode := e.cause, faultVa := e.va
               faultReason := if e.cause = 0x10 ∨ e.cause = 0x11 then e.aux.toNat % 32 else 0 })) ∧
    (∀ n s1 s2, s.input = some (.slipJobComplete core) → j.phase = .ending →
      let va := c.ringVa + 64 + 64 * (n % 2 ^ c.ringLog2)
      let out := j.completion (n + 1)
      ranRing.takeRing a c.ringVa = .ok (some n, s1) → s1.ringRecord a va out = .ok s2 →
      let written := s2.modJob core 0 (fun x => { x with phase := .signalling, out := out })
      let ends (u : State) : Prop := exec .slipJobComplete s = .next (s.engineDone meRing u)
      out.length = 64 ∧ leNat (out.take 4) = (n + 1) % 2 ^ 32 ∧
      (c.signal ≠ 0 → ends written) ∧
      (c.signal = 0 → j.status ≠ 1 → ends (written.modCore core (fun y => { y with jobs := y.jobs.eraseIdx 0 }))) ∧
      (c.signal = 0 → j.status = 1 → j.lost = false → ends (written.modJob core 0 (fun x => { x with phase := .faulted, sig := none })))) ∧
    (∀ t la, s.input = some (.slipJobComplete core) → j.phase = .ending → (s.fabric.answersOf meRing).acks = [] →
      s.translate { a with write := true } c.ringVa = .ok t → t.kind = .hbm → la = localOf t.pa → la + 8 ≤ hbmEnd → ranRing.reachable t = true →
      (ranRing.noteTlb j.asid t).poisoned la 8 = false → s.pkgid < 512 →
      ∃ v, exec .slipJobComplete s = .next v ∧ v.mem = zwrite s.mem la (natLe 8 ((leNat (zread s.mem la 8) + 1) % 2 ^ 64)) ∧
        v.fabric.answersOf meRing = { s.fabric.answersOf meRing with acks := [wordAt (zread s.mem la 4) 0] } ∧ v.core core = s.core core) ∧
    (s.input = some (.slipSignal core) → j.phase = .signalling → s.portOf c.signal j.asid = none → j.lost = false →
      (j.status = 1 → exec .slipSignal s = .next (job s (fun x => { x with phase := .faulted, sig := none }))) ∧
      (j.status ≠ 1 → exec .slipSignal s = .next (s.modCore core (fun y => { y with jobs := r })))) ∧
    (∀ idx p, s.input = some (.slipSignal core) → j.phase = .signalling → s.portOf c.signal j.asid = some (.here idx p) → p.matched = false →
      p.capacity ≤ p.queue.length → exec .slipSignal s = .next s)

/-- TZERO, TFILL, TTRANS and TCVT give a tile its elements. -/
def Obligations.TilesFilledAndConverted : Prop :=
  -- R321, R323: TZERO and TFILL set every element of a tile, TTRANS transposes one tile into another and writes its shape;
  -- nothing else changes. R310: a tile reads back what was put into it.
  (
    (∀ (d a p : BitVec 3) (s : State) (fo : Focus) (w : Wave), KlnReady s fo w [d.toNat, a.toNat] → (w.shape d.toNat).bad = none →
      let sh := w.shape d.toNat
      let n := sh.rows * sh.cols
      KlnEnds (.tzero d) s s fo (w.setTile d.toNat sh.fmt (List.replicate n 0)) ∧
      KlnEnds (.tfill d p) s s fo (w.setTile d.toNat sh.fmt (List.replicate n ((w.greg (8 + p.toNat)).toNat % 2 ^ elemBits sh.fmt))) ∧
      ((w.shape a.toNat).bad = none →
        let ah := w.shape a.toNat
        ∃ (xs : List Nat) (w2 : Wave), xs.length = ah.rows * ah.cols ∧
          (∀ i j, i < ah.rows → j < ah.cols → xs.getD (j * ah.rows + i) 0 = (w.tile a.toNat ah).getD (i * ah.cols + j) 0) ∧
          w2 = { w.setTile d.toNat ah.fmt xs with ctl := w2.ctl } ∧
          w2.shape d.toNat = TileShape.mk ah.cols ah.rows ah.fmt ah.layout ∧
          (∀ k, k ≠ 8 + d.toNat → sget w2.ctl k = sget w.ctl k) ∧
          KlnEnds (.ttrans d a) s s fo w2)) ∧
    (∀ (w : Wave) (t f : Nat) (xs : List Nat) (p : TileShape), p.bad = none → p.fmt = f → xs.length = p.rows * p.cols →
      (∀ x ∈ xs, x < 2 ^ elemBits f) → (w.setTile t f xs).tile t p = xs)) ∧
  -- R322: TCVT converts every element of a tile: between floating formats each is rounded once, and a narrow or I32 element q
  -- becomes q·2^SCALE of the tensor named; into a narrow format each value that fits is divided by 2^SCALE and rounded.
  (
    ∀ (d a p : BitVec 3) (s : State) (fo : Focus) (w : Wave), KlnReady s fo w [d.toNat, a.toNat] →
      let dh := w.shape d.toNat
      let ah := w.shape a.toNat
      let g := w.greg (8 + p.toNat)
      let xs := w.tile a.toNat ah
      dh.bad = none → ah.bad = none → dh.rows = ah.rows → dh.cols = ah.cols →
      (ah.fmt ≤ 2 → dh.fmt ≤ 2 →
        KlnEnds (.tcvt d a p) s s fo (w.setTile d.toNat dh.fmt (xs.map (fun x =>
          (fpConvert fp32 (fmtOf dh.fmt) FpCtx.matrix (fpConvert (fmtOf ah.fmt) fp32 FpCtx.matrix x).bits).bits)))) ∧
      (∀ e rem, wbits g 31 16 = 0 → s.readTensor w.asid (wbits g 15 0) false [] = .ok (e, rem) → e.ok = true →
        (3 ≤ ah.fmt → dh.fmt ≤ 2 →
          KlnEnds (.tcvt d a p) s s fo (w.setTile d.toNat dh.fmt (xs.map (fun x =>
            let q := signed (elemBits ah.fmt) x
            if q = 0 then 0 else (roundTo (fmtOf dh.fmt) FpCtx.matrix (q < 0) q.natAbs (signed 8 e.scale) false).bits)))) ∧
        (ah.fmt ≤ 2 → dh.fmt = 3 ∨ dh.fmt = 4 → ∀ qs : List Int, qs.length = xs.length →
          (∀ k, k < xs.length → narrowTo dh.fmt (signed 8 e.scale) true (fpConvert (fmtOf ah.fmt) fp32 FpCtx.matrix (xs.getD k 0)).bits = .q (qs.getD k 0)) →
          KlnEnds (.tcvt d a p) s s fo (w.setTile d.toNat dh.fmt (qs.map (fun q => (BitVec.ofInt (elemBits dh.fmt) q).toNat))))) ∧
      (∀ e rem, wbits g 31 16 = 0 → s.readTensor w.asid (wbits g 15 0) false [] = .ok (e, rem) → e.ok = false → 3 ≤ ah.fmt → dh.fmt ≤ 2 →
        ∀ ln, w.lane (fo.lanes.headD 0) = some ln → KlnTraps (.tcvt d a p) s s fo 0x11 (faultAux (laneAcc w ln false) 0 6)))

/-- TLD, TST and TDRAIN move a tile's elements. The tile that KILN_SHAPE names is log entry 48 (DEDUCED). -/
def Obligations.TilesMovedAndDrained : Prop :=
  -- R318, R319, R320: TLD brings the lines of a READY slot's bytes into a tile, and TST puts a tile's elements there, each line
  -- at its pitch; no other byte of the scratchpad changes, and the slot stays READY.
  (
    ∀ (t p : BitVec 3) (s : State) (fo : Focus) (w : Wave) (k : Block), KlnReady s fo w [t.toNat] → sget s.blocks w.block = some k →
      let sh := w.shape t.toNat
      let g := w.greg (8 + p.toNat)
      let x := s.slot k.slotCore (wbits g 5 0)
      let pitch := if wbits g 31 20 = 0 then sh.lineBytes else 16 * wbits g 31 20
      let base := 256 * x.base + 128 * wbits g 19 8
      let z := (s.core k.slotCore).scratch
      sh.bad = none → sh.lineBytes ≤ pitch → wbits g 7 6 = 0 → x.st = .ready → x.asid = w.asid →
      128 * wbits g 19 8 + (sh.lines - 1) * pitch + sh.lineBytes ≤ 256 * x.size →
      (∃ xs : List Nat, xs.length = sh.rows * sh.cols ∧
        (∀ i j, i < sh.rows → j < sh.cols →
          let n := if sh.layout = 0 then i else j
          let q := if sh.layout = 0 then j else i
          (sh.fmt ≠ 4 → xs.getD (i * sh.cols + j) 0 = leNat (zread z (base + n * pitch + q * (elemBits sh.fmt / 8)) (elemBits sh.fmt / 8))) ∧
          (sh.fmt = 4 → xs.getD (i * sh.cols + j) 0 = (zget z (base + n * pitch + q / 2)).toNat / 16 ^ (q % 2) % 16)) ∧
        KlnEnds (.tld t p) s s fo (w.setTile t.toNat sh.fmt xs)) ∧
      (∃ z2 : Sparse Byte,
        (∀ i j, i < sh.rows → j < sh.cols →
          let n := if sh.layout = 0 then i else j
          let q := if sh.layout = 0 then j else i
          let v := (w.tile t.toNat sh).getD (i * sh.cols + j) 0
          (sh.fmt ≠ 4 → zread z2 (base + n * pitch + q * (elemBits sh.fmt / 8)) (elemBits sh.fmt / 8) = natLe (elemBits sh.fmt / 8) v) ∧
          (sh.fmt = 4 → (zget z2 (base + n * pitch + q / 2)).toNat / 16 ^ (q % 2) % 16 = v)) ∧
        (∀ a, (∀ n, n < sh.lines → a < base + n * pitch ∨ base + n * pitch + sh.lineBytes ≤ a) → zget z2 a = zget z a) ∧
        KlnEnds (.tst t p) s (s.modCore k.slotCore (fun c => { c with scratch := z2 })) fo w)) ∧
  -- R331, R332, R334: TDRAIN into a tile, its record in sound HBM, its checks passed: each element is drained and rounded into
  -- the tile's format; R332: without vectors, residual and dropout it is the accumulator's value, negated where NEG says so, and
  -- clamped.
  (
    (∀ (t p : BitVec 3) (s : State) (fo : Focus) (w : Wave) (ln : Lane), KlnReady s fo w [t.toNat] →
      w.lane (fo.lanes.headD 0) = some ln →
      let ah := w.shape t.toNat
      let va := (w.greg (8 + p.toNat)).toNat + (w.greg (8 + (p + 1).toNat)).toNat * 2 ^ 32
      ah.bad = none →
      (ah.fmt ≠ 0 → ah.fmt ≠ 5 → KlnTraps (.tdrain t p) s s fo 0x23 (BitVec.ofNat 32 (t.toNat * 256 + 6))) ∧
      (∀ bs rem read, ah.fmt = 0 ∨ ah.fmt = 5 → va % 64 = 0 → s.laneRead w.coreKey (laneAcc w ln false) va 64 [] = .ok (bs, rem, read) →
        let d := DrainRec.ofBytes w (ah.fmt == 5) bs
        (d.ok = false → KlnTraps (.tdrain t p) s read fo 0x23 (BitVec.ofNat 32 (t.toNat * 256 + 6))) ∧
        (d.tileTrap w t.toNat ah = none → d.toTile = true → d.scEn = false → d.biEn = false → (d.resEn = true → (w.shape d.rTile).fmt ≤ 2) →
          KlnEnds (.tdrain t p) s read fo (w.setTile d.dTile (w.shape d.dTile).fmt
            ((d.values w t.toNat ah (signed 8 Tensor.none.scale) none none).map (fun v => (fpConvert fp32 (fmtOf (w.shape d.dTile).fmt) FpCtx.matrix v).bits)))))) ∧
    (∀ (e : DrainSpec) (acc r c : Nat) (sab : Int), e.drop = none → acc < 2 ^ 32 →
      let v := e.elem acc sab none none none r c
      (e.i32 = true → e.neg = false → e.act = 0 → v = scaledWord true (signed 32 acc) sab) ∧
      (e.i32 = false → e.neg = false → e.act = 0 → v = (fpConvert fp32 fp32 FpCtx.matrix acc).bits) ∧
      (e.act = 1 → (fp32.value v).isNaN = false → bitOf v 31 = false) ∧
      (e.i32 = true → e.neg = true → e.act = 0 → (fp32.value (scaledWord true (signed 32 acc) sab)).isNaN = false →
        v = scaledWord true (signed 32 acc) sab ^^^ 0x80000000)))

/-- Narrow multiplies through residues are exact and clamped; TMMA and TMMAQ put the multiply into their accumulators. That the check of R87
passes in the model is log entry 13 (DEDUCED); the tile that KILN_SHAPE names, and when a TMMAQ runs, log entry 48 (DEDUCED). -/
def Obligations.TilesMultiplied : Prop :=
  -- R86, R87, R324: a narrow multiply of tiles gives each element of C the exact sum of the products of a row and a column added
  -- to what C holds, clamped to ±(2^31 − 1): the residues bring back every sum that a tile can have, so the check of R87 passes.
  (
    ∀ (fa fb m k n : Nat) (a b c : List Nat), (fa = 3 ∨ fa = 4) → (fb = 3 ∨ fb = 4) → k ≤ 256 →
      let sum := fun i j => ((List.range k).map (fun x => signed (elemBits fa) (a.getD (i * k + x) 0) * signed (elemBits fb) (b.getD (x * n + j) 0))).sum
      let acc := fun i j => (BitVec.ofNat 32 (c.getD (i * n + j) 0)).toInt + sum i j
      ∃ out sat, multiply fa fb m k n a b c = .ok (out, sat) ∧ out.length = m * n ∧
        (∀ i j, i < m → j < n → out.getD (i * n + j) 0 =
          (BitVec.ofInt 32 (if 2147483647 < acc i j then 2147483647 else if acc i j < -2147483647 then -2147483647 else acc i j)).toNat) ∧
        (sat = true ↔ ∃ i j, i < m ∧ j < n ∧ 2147483647 < (acc i j).natAbs)) ∧
  -- R324, R325, R327: TMMA puts the multiply of its tiles into C and sets KSTATUS.SAT where an element was clamped; R324: shapes
  -- or formats that do not agree trap KILN_SHAPE. R329, R330: with the fourth wave's arrival a TMMAQ starts to
  -- run on the quad's Kilns, and then all four waves complete, each with its quadrant's multiply of the strips of positions 0 and 3.
  (
    (∀ (c a b : BitVec 3) (ra rb : Bool) (s : State) (fo : Focus) (w : Wave) (out : List Nat) (sat : Bool),
      KlnReady s fo w [c.toNat, a.toNat, b.toNat] →
      let ch := w.shape c.toNat
      let ah := w.shape a.toNat
      let bh := w.shape b.toNat
      ch.bad = none → ah.bad = none → bh.bad = none →
      ((¬ (ah.cols = bh.rows ∧ ah.rows = ch.rows ∧ bh.cols = ch.cols) →
        KlnTraps (.tmma c a b ra rb) s s fo 0x23 (BitVec.ofNat 32 (c.toNat * 256 + 5))) ∧
      (ah.cols = bh.rows → ah.rows = ch.rows → bh.cols = ch.cols →
        let agree := (ah.fmt ≤ 2 ∧ bh.fmt = ah.fmt ∧ ch.fmt = 0) ∨ ((ah.fmt = 3 ∨ ah.fmt = 4) ∧ (bh.fmt = 3 ∨ bh.fmt = 4) ∧ ch.fmt = 5)
        (¬ agree → KlnTraps (.tmma c a b ra rb) s s fo 0x23 (BitVec.ofNat 32 (c.toNat * 256 + 6))) ∧
        (agree → multiply ah.fmt bh.fmt ah.rows ah.cols bh.cols (w.tile a.toNat ah) (w.tile b.toNat bh) (w.tile c.toNat ch) = .ok (out, sat) →
          let w1 := w.setTile c.toNat ch.fmt out
          KlnEnds (.tmma c a b ra rb) s s fo (if sat then { w1 with ctl := sput w1.ctl 21 (sgetD w1.ctl 21 0 ||| 1) } else w1))))) ∧
    (∀ (c a b : BitVec 3) (ra rb : Bool) (s : State) (fo : Focus) (w : Wave) (k : Block) (pos : Nat) (us : Sparse Nat),
      KlnReady s fo w [c.toNat, a.toNat, b.toNat] → sget s.blocks w.block = some k → s.quadSize w = 4 → pos = s.quadPos w → w.onCore = true →
      (∀ t ∈ [c.toNat, a.toNat, b.toNat], (w.shape t).bad = none) →
      us = s.quadArrived k fo.pc → sget us pos = none → us.length = 3 → (∀ v ∈ us.map Prod.snd, v ≠ fo.wave) →
      k.quadOn = none →
      (∀ e ∈ s.blocks, e.1 ≠ w.block → e.2.quadOn ≠ none → e.2.die ≠ w.die ∨ s.quadOf e.2.die e.2.core ≠ s.quadOf w.die w.core) →
      ∃ t wt kt, exec (.tmmaq c a b ra rb) s = .next t ∧ sget t.blocks w.block = some kt ∧ kt.quadOn = some (fo.pc, c.toNat) ∧
        sgetD kt.quadInsts fo.pc.toNat [] = sput us pos fo.wave ∧ t.wave fo.wave = some wt ∧ wt.tiles = w.tiles ∧
        ∀ l ln, wt.lane l = some ln → ∃ x, ln.wait = some x ∧ x.kind = .quad) ∧
    (∀ (c a b : BitVec 3) (ra rb : Bool) (s : State) (fo : Focus) (w : Wave) (k : Block) (u : Nat → Nat) (ow : Nat → Wave) (outs : Nat → List Nat × Bool) (pos on : Nat),
      GroupRuns s fo w → sget s.blocks w.block = some k → s.quadSize w = 4 → pos = s.quadPos w → u pos = fo.wave → ow pos = w →
      w.tileLost = false → (∀ t ∈ [c.toNat, a.toNat, b.toNat], t < w.tileCount) →
      (∀ l ln, w.lane l = some ln → ln.inTrap = false ∧ ∃ wt, ln.wait = some wt ∧ wt.kind = .quad) →
      sgetD k.quadInsts fo.pc.toNat [] = [(0, u 0), (1, u 1), (2, u 2), (3, u 3)] → k.quadOn = some (fo.pc, on) →
      (∀ i j, i < 4 → j < 4 → u i = u j → i = j) →
      (∀ i, i < 4 → s.wave (u i) = some (ow i) ∧ ((ow i).shape c.toNat).bad = none ∧ (ow i).onCore = true ∧
        ∃ x, instAt (ow i) fo.pc = some x ∧ x.pc = fo.pc ∧ x.complete = true ∧ x.arrived ≠ [] ∧ x.arrived.map Arrival.lane = skeys (ow i).lanes) →
      (∀ i, i = 0 ∨ i = 3 → ((ow i).shape a.toNat).bad = none ∧ ((ow i).shape b.toNat).bad = none) →
      let a0 := (ow 0).shape a.toNat
      let a1 := (ow 3).shape a.toNat
      let b0 := (ow 0).shape b.toNat
      let b1 := (ow 3).shape b.toNat
      (∀ i, i < 4 → ((ow i).shape c.toNat).rows = a0.rows ∧ ((ow i).shape c.toNat).cols = b0.cols ∧ ((ow i).shape c.toNat).fmt = accFmt a0.fmt) →
      a1.rows = a0.rows → a1.cols = a0.cols → b0.rows = a0.cols → b1.rows = a0.cols → b1.cols = b0.cols →
      mmaFormats a0.fmt b0.fmt = true → mmaFormats a0.fmt b1.fmt = true → mmaFormats a1.fmt b0.fmt = true → mmaFormats a1.fmt b1.fmt = true →
      (∀ i, i < 4 →
        let wa := if i / 2 = 0 then ow 0 else ow 3
        let wb := if i % 2 = 0 then ow 0 else ow 3
        multiply (wa.shape a.toNat).fmt (wb.shape b.toNat).fmt a0.rows a0.cols b0.cols (wa.tile a.toNat (wa.shape a.toNat)) (wb.tile b.toNat (wb.shape b.toNat))
          ((ow i).tile c.toNat ((ow i).shape c.toNat)) = .ok (outs i)) →
      ∃ t, exec (.tmmaq c a b ra rb) s = .next t ∧ t = { s with waves := t.waves, blocks := t.blocks, run := Runner.idle } ∧
        (∀ v, (∀ i, i < 4 → v ≠ u i) → t.wave v = s.wave v) ∧
        (∀ i, i < 4 → ∃ wi, t.wave (u i) = some wi ∧
          wi.tiles = ((ow i).setTile c.toNat ((ow i).shape c.toNat).fmt (outs i).1).tiles ∧
          (∀ l ln, (ow i).lane l = some ln → ∃ ln2, wi.lane l = some ln2 ∧ ln2.pc = fo.next ∧ ln2.wait = none ∧ ln2.bank.b = ln.bank.b))))

/-- R312, R313, R316, R329, R335: every lane of a KLN instruction traps ILLEGAL_OPERAND where it names a tile beyond the footprint,
TILE_LOST, which clears the loss, where tiles have been lost, and KILN_SHAPE with the number and the REASON of the first tile of bad shape,
or for TMMAQ in a quad of fewer than four cores. That a tile beyond the footprint traps every lane, and which tile KILN_SHAPE names, is log
entry 48 (DEDUCED). -/
def Obligations.KilnTraps : Prop :=
  ∀ (c d a b p : BitVec 3) (ra rb : Bool) (s : State) (fo : Focus) (w : Wave), GroupRuns s fo w → fo.lanes = skeys w.lanes → fo.lanes ≠ [] →
    instAt w fo.pc = none → (∀ l ln, w.lane l = some ln → ln.inTrap = false) →
    let all (u : State) (cause : Nat) (aux : Word) : State :=
      fo.lanes.foldl (fun t l => t.traps fo l cause 0 aux) { u with ticket := s.ticket + fo.lanes.length }
    let outer := s.quadPos w = 0 ∨ s.quadPos w = 3
    let quad := Instr.tmmaq c a b ra rb
    let quadTiles := if outer then [c.toNat, a.toNat, b.toNat] else [c.toNat]
    -- the instruction, the tiles it names, and the same in the order in which their shapes are looked at
    (∀ e ∈ [(Instr.tzero d, [d.toNat], [d.toNat]), (.tfill d p, [d.toNat], [d.toNat]), (.ttrans d a, [d.toNat, a.toNat], [d.toNat, a.toNat]),
        (.tcvt d a p, [d.toNat, a.toNat], [d.toNat, a.toNat]), (.tld d p, [d.toNat], [d.toNat]), (.tst d p, [d.toNat], [d.toNat]),
        (.tdrain d p, [d.toNat], [d.toNat]), (.tmma c a b ra rb, [c.toNat, a.toNat, b.toNat], [a.toNat, b.toNat, c.toNat]), (quad, quadTiles, quadTiles)],
      ((∃ t ∈ e.2.1, w.tileCount ≤ t) → exec e.1 s = .next (all s 0x02 fo.word)) ∧
      ((∀ t ∈ e.2.1, t < w.tileCount) → w.tileLost = true → exec e.1 s = .next (all (s.setWave fo.wave { w with tileLost := false }) 0x21 0)) ∧
      (∀ before t after r, (∀ t ∈ e.2.1, t < w.tileCount) → w.tileLost = false → (e.1 = quad → s.quadSize w = 4) →
        e.2.2 = before ++ t :: after → (∀ x ∈ before, (w.shape x).bad = none) → (w.shape t).bad = some r →
        exec e.1 s = .next (all { s with run := Runner.idle } 0x23 (BitVec.ofNat 32 (t * 256 + r))))) ∧
    ((∀ t ∈ quadTiles, t < w.tileCount) → w.tileLost = false → s.quadSize w < 4 →
      exec quad s = .next (all { s with run := Runner.idle } 0x23 7)) ∧
    (∀ p : TileShape, p.bad = none ↔ p.rows % 16 = 0 ∧ 16 ≤ p.rows ∧ p.rows ≤ 256 ∧ p.cols % 16 = 0 ∧ 16 ≤ p.cols ∧ p.cols ≤ 256 ∧
      p.fmt ≤ 5 ∧ p.layout ≤ 1 ∧ p.rows * p.cols * elemBits p.fmt ≤ 524288)

/-- R345, R346, R347, R341, R337, R155: the TASK functions on a record that lies in this package. MTASK, once its lane has no copies in
flight, submits a well-formed record to the Setter of its lane's die, READY when its COUNT is 0, else ARMED, or resumes a FAULTED one;
MTWAIT waits while the task is ARMED, READY or RUNNING, then gives STATE; MTSTAT gives word 0; MTCANCEL takes the task from its Setter and
writes CANCELLED. ALIGN before SLOTARG is log entry 65 (DEDUCED). -/
def Obligations.TaskFunctions : Prop :=
  ∀ (d a b : Opd) (s : State) (fo : Focus) (w : Wave) (l : Nat) (ln : Lane) (k : Block), Single s fo w l ln → sget s.blocks w.block = some k →
    let va := (readOpd w l ln (opdPlus a 1) ++ readOpd w l ln a).toNat
    let flags := readOpd w l ln b
    let acc := laneAcc w ln true
    (va % 128 ≠ 0 → ∀ i ∈ [Instr.mtask d a b, .mtwait d a, .mtstat d a, .mtcancel d a], exec i s = .next (s.traps fo l 0x12 va 0)) ∧
    (va % 128 = 0 → 1 < flags.toNat → exec (.mtask d a b) s = .next (s.traps fo l 0x11 0 (faultAux (laneAcc w ln false) 0 16))) ∧
    (∀ e, va % 128 = 0 → flags.toNat ≤ 1 → s.translate acc va = .error e → e.cause = 0x10 ∨ e.cause = 0x11 ∨ e.cause = 0x13 →
      ∀ i ∈ [Instr.mtask d a b, .mtcancel d a], exec i s = .next (takeTrap s fo.wave l { e with aux := e.aux &&& 0xFFFFFEFF } false fo.len)) ∧
    (∀ rec s1 tr tw, va % 128 = 0 → s.translate (laneAcc w ln false) va = .ok tr → s.translate acc va = .ok tw →
      s.engRead (laneAcc w ln false) va 128 [] = .ok (rec, [], s1) →
      let sr := s1.refreshL1 w.coreKey tr rec
      let sw := s1.refreshL1 w.coreKey tw rec
      let s2 := sw.withAcks ln
      let st := bitsOf (leNat rec) 11 8
      let ends (i : Instr) (u : State) (v : Nat) : Prop := exec i s = .next (u.noRun.completes fo l d [BitVec.ofNat 32 v] 0)
      let waits (i : Instr) (u : State) (q : WaitKind) : Prop := exec i s = .next (s.settled (u.noRun.waits fo l q) d 1)
      let submits (die : Nat) (x : Task) (ready : Bool) : Prop := ∀ u, s2.submit acc die x ready = .ok u → ends (.mtask d a b) u 0
      let task (resume : Bool) : Task := { asid := w.asid, va := va, pa := tw.place, priv := ln.isPriv, prio := bitsOf (leNat rec) 6 4, enqSeq := 0, resume := resume }
      ends (.mtstat d a) (sr.dropL1 w.coreKey) (bitsOf (leNat rec) 31 0) ∧
      (st = 1 ∨ st = 2 ∨ st = 3 → waits (.mtwait d a) sr (.task va)) ∧
      (¬ (st = 1 ∨ st = 2 ∨ st = 3) → ends (.mtwait d a) (if st = 4 then sr.dropL1 w.coreKey else sr) st) ∧
      (∀ u, st = 1 ∨ st = 2 ∨ st = 5 ∨ (st = 3 ∧ bitsOf (leNat rec) 3 0 ≠ 1) → s2.writeState acc va (bitsOf (leNat rec) 14 12) 6 = .ok u →
        ends (.mtcancel d a) ((u.dropTask tw.place).taskEnded w.asid va) 0) ∧
      (¬ (st = 1 ∨ st = 2 ∨ st = 5 ∨ (st = 3 ∧ bitsOf (leNat rec) 3 0 ≠ 1)) → ends (.mtcancel d a) sw 5) ∧
      (flags.toNat ≤ 1 → sw.copying fo.wave l = true → waits (.mtask d a b) sw .copies) ∧
      (sw.copying fo.wave l = false →
        (flags.toNat ≤ 1 → 8 ≤ st → ends (.mtask d a b) sw 2) ∧
        (flags = 1 → st < 8 → st ≠ 5 → ends (.mtask d a b) sw 5) ∧
        (flags = 1 → st = 5 → submits (bitsOf (leNat rec) 14 12) (task true) true) ∧
        (flags = 0 → st = 1 ∨ st = 2 ∨ st = 3 ∨ st = 5 → ends (.mtask d a b) sw 5) ∧
        (flags = 0 → st = 0 ∨ st = 4 ∨ st = 6 ∨ st = 7 →
          let ready := bitsOf (leNat rec) 63 32 == 0
          (taskFormed rec = false → ends (.mtask d a b) sw 2) ∧
          (taskFormed rec = true → bitsOf (leNat rec) 3 0 = 1 → submits w.die (task false) ready) ∧
          (∀ x y z r, taskFormed rec = true → bitsOf (leNat rec) 3 0 = 0 → s2.taskEntries w.asid false rec [] = .ok (x, y, z, r) →
            (entriesOk rec x y z = true ∧ formatsOk x y z = true → submits w.die (task false) ready) ∧
            (¬ (entriesOk rec x y z = true ∧ formatsOk x y z = true) → ends (.mtask d a b) sw 2)))))

/-- A task takes its place in a Setter, leaves it when cancelled, and is dispatched from its head. FAULTVA 0 of KILN_SHAPE is log entry 65
(DEDUCED); the quad of a WAVE task's wave and when RUNNING is written, log entry 66 (DEDUCED). -/
def Obligations.SettersHoldTasks : Prop :=
  -- R340, R341, R342, R475: a task entering a Setter takes its place behind the others with the next ENQSEQ, and STATE, DIE and
  -- ENQSEQ are written into its record; a cancelled one is in no Setter and on no Kiln; a write by a Setter changes just its bytes of
  -- the record, or is lost.
  (
    (∀ (s u : State) (a : Acc) (die : Nat) (t : Task) (ready : Bool), die < s.setters.length → s.submit a die t ready = .ok u →
      let x := s.setter die
      let t2 := { t with enqSeq := x.nextSeq }
      u.setter die = Setter.mk (if ready then x.ready ++ [t2] else x.ready) (if ready then x.armed else x.armed ++ [t2]) x.running (x.nextSeq + 1) ∧
      (∀ e, e ≠ die → u.setter e = s.setter e) ∧ u.waves = s.waves ∧ (∀ c, (u.core c).kiln = (s.core c).kiln) ∧
      ∃ v, State.taskWrite { s with setters := u.setters } a (t.va + 1) [BitVec.ofNat 8 (die * 16 + (if ready then 2 else 1))] = .ok v ∧
        v.taskWrite a (t.va + 8) (natLe 4 x.nextSeq) = .ok u) ∧
    (∀ (s : State) (pa : Nat),
      (∀ x ∈ (s.dropTask pa).setters, (∀ t ∈ x.ready ++ x.armed, t.pa ≠ pa) ∧
        ∀ r ∈ x.running, r.task.pa ≠ pa ∧ ∀ e ∈ r.released, e.2.pa ≠ pa) ∧
      (∀ e ∈ (s.dropTask pa).cores, ∀ k, e.2.kiln = some k → k.task.pa ≠ pa) ∧
      (∀ d, d < s.setters.length → ∀ t, t.pa ≠ pa → (t ∈ (s.setter d).ready → t ∈ ((s.dropTask pa).setter d).ready) ∧
        (t ∈ (s.setter d).armed → t ∈ ((s.dropTask pa).setter d).armed)) ∧
      (s.dropTask pa) = { s with setters := (s.dropTask pa).setters, cores := (s.dropTask pa).cores, fabric := (s.dropTask pa).fabric }) ∧
    (∀ (s : State) (a : Acc) (va : Nat) (bs : List Byte), 0 < bs.length → va % 128 + bs.length < 128 →
      (∀ e, s.translate { a with write := true } va = .error e → e.cause ≠ 0 → s.taskWrite a va bs = .ok (s.noteBad e)) ∧
      (∀ g, s.translate { a with write := true } va = .ok g → g.kind = .hbm ∨ g.kind = .host → s.hostFault (localOf g.pa) = none → s.reachable g = true →
        (s.poisoned (localOf g.pa) bs.length = true → s.taskWrite a va bs = .ok (s.noteBad (s.poisonIn va (localOf g.pa) bs.length))) ∧
        (s.poisoned (localOf g.pa) bs.length = false → ∃ u, s.taskWrite a va bs = .ok u ∧ u.mem = zwrite s.mem (localOf g.pa) bs)))) ∧
  -- R338, R341, R342, R475: the event that dispatches a Setter's head: a record that cannot be read leaves the queue without
  -- running; a KILNOP task waits for a free Kiln, then is RUNNING on it with its entries as read now, or FAULTED where they no
  -- longer allow it; a WAVE task's wave is spawned from its record.
  (
    ∀ (s : State) (die : Nat) (t : Task) (r : List Task), s.input = some (.taskDispatch die) → s.quiet (.dispatch die) →
      ((s.setter die).ready = [] → exec .taskDispatch s = .next s) ∧
      ((s.setter die).ready = t :: r →
        let me := Client.dispatch die
        let ran := s.asEngine me 6
        let acc := engAcc t.asid t.priv
        let ends (v : State) : Prop := exec .taskDispatch s = .next (s.engineDone me v)
        let runs (u : State) (q : Running) : Prop := ∀ v, u.writeState acc t.va die 3 = .ok v →
          ends (v.modSetter die (fun x => { x with ready := x.ready.drop 1, running := x.running ++ [q] }))
        (∀ e, ran.taskRead acc t.va 128 (s.fabric.answersOf me).bytes = .error e → e.cause ≠ 0 →
          ends ((ran.noteBad e).modSetter die (fun x => { x with ready := x.ready.drop 1 }))) ∧
        (∀ rec rem s1, ran.taskRead acc t.va 128 (s.fabric.answersOf me).bytes = .ok (rec, rem, s1) → bitsOf (leNat rec) 3 0 = 0 →
          (s1.freeKiln die = none → exec .taskDispatch s = .next s) ∧
          (∀ core e, s1.freeKiln die = some core → s1.taskEntries t.asid true rec rem = .error e → e.cause ≠ 0 →
            runs (s1.noteBad e) { Running.mk t (some core) none rec none [] 0 [] with outcome := some (5, e.cause, e.va, faultReason e), iters := 0 :: firstTile t rec }) ∧
          (∀ core a b c q, s1.freeKiln die = some core → s1.taskEntries t.asid true rec rem = .ok (a, b, c, q) →
            let tile := firstTile t rec
            let run := Running.mk t (some core) none rec none [] 0 []
            (∀ v, entriesOk rec a b c = true → formatsOk a b c = true → s1.writeState acc t.va die 3 = .ok v →
              ends ((v.modSetter die (fun x => { x with ready := x.ready.drop 1, running := x.running ++ [run] })).modCore core
                (fun x => { x with kiln := some (KilnRun.begin t rec a b c tile) }))) ∧
            (entriesOk rec a b c = true → formatsOk a b c = false → runs s1 { run with outcome := some (5, 0x23, 0, 6), iters := 0 :: tile }) ∧
            (a.ok = false → runs s1 { run with outcome := some (5, 0x11, a.va, 6), iters := 0 :: tile }))) ∧
        (∀ rec rem s1 bs q p, ran.taskRead acc t.va 128 (s.fabric.answersOf me).bytes = .ok (rec, rem, s1) → bitsOf (leNat rec) 3 0 = 1 →
          let va := bitsOf (leNat rec) 146 96 * 64
          let run := Running.mk t none none rec none [0, 0, 0, 0, 0] 0 []
          let sp := SpawnRec.ofBytes bs
          s1.engRead acc va 64 rem = .ok (bs, q, p) →
          (sp.ok = false → runs s1 { run with outcome := some (5, 0x38, va, 2) }) ∧
          (sp.ok = true → s1.coreCount die = 0 → runs s1 { run with outcome := some (5, 0x38, va, 11) }) ∧
          (sp.ok = true → s1.coreCount die ≠ 0 →
            let made := s1.spawn t.asid { sp with user0 := t.va, user1 := t.va / 2 ^ 32 } (min sp.prio (bitsOf (leNat rec) 6 4)) 1 none
              (t.priv && t.asid == 0) false (2 ^ die) (16 * die)
            (made = none → runs s1 { run with outcome := some (5, 0x38, va, 1) }) ∧
            (∀ o u s2, made = some (o, u, s2) → runs s2 { run with wave := some u })))))

/-- The events that run and complete a tile task. FAULTVA 0 of TENSORRANGE is log entry 65 (DEDUCED). -/
def Obligations.KilnTasksRun : Prop :=
  -- R325, R338, R339, R344: the events that run a KILNOP task: a slab adds 16 k of the K step to the working copy, the last slab
  -- ends the step; a fault discards the working copy and records the iteration; after the last step the tile is drained, and the
  -- next one begins, or the task is done.
  (
    ∀ (s : State) (core : Nat) (k : KilnRun), (s.core core).kiln = some k → s.quiet (.kiln core) →
      let me := Client.kiln core
      let ran := s.asEngine me (core / 64)
      let rem := (s.fabric.answersOf me).bytes
      let rec_ := k.record
      let o := tileOrigin rec_ k.tile
      let kk : Int := ((bitsOf (leNat rec_) 203 184 + k.step * taskK rec_ + 16 * k.slab : Nat) : Int)
      let acc := engAcc k.task.asid k.task.priv
      let ends (i : Instr) (v : State) : Prop := exec i s = .next (s.engineDone me v)
      let faulted (u : State) (t : Trap) : State :=
        ((u.noteBad t).modRunning core (fun r => { r with outcome := some (5, t.cause, t.va, faultReason t), iters := k.step :: k.tile })).modCore core
          (fun c => { c with kiln := none })
      let runs (u : State) (q : KilnRun) : State := u.modCore core (fun c => { c with kiln := some q })
      (s.input = some (.wheelSlab core) → k.step < taskBound rec_ 0 →
        (∀ t, ran.readElems acc k.a k.a.live (cellsOf o.1 kk (taskM rec_) 16) rem = .error t → t.cause ≠ 0 → ends .wheelSlab (faulted ran t)) ∧
        (∀ xs r1 s1 ys r2 s2, ran.readElems acc k.a k.a.live (cellsOf o.1 kk (taskM rec_) 16) rem = .ok (xs, r1, s1) →
          s1.readElems acc k.b k.b.live (cellsOf kk o.2 16 (taskN rec_)) r1 = .ok (ys, r2, s2) →
          let q := k.addSlab (taskN rec_) xs ys
          (16 * (k.slab + 1) < taskK rec_ → ends .wheelSlab (runs s2 { q with slab := k.slab + 1 })) ∧
          (taskK rec_ ≤ 16 * (k.slab + 1) → k.a.fmt ≤ 2 → ends .wheelSlab (runs s2 { q with step := k.step + 1, slab := 0 })) ∧
          (taskK rec_ ≤ 16 * (k.slab + 1) → 3 ≤ k.a.fmt → (∀ r ∈ q.residues, residueOk r = true) →
            ends .wheelSlab (runs s2 { q with
              step := k.step + 1, slab := 0, acc := (k.acc.zip q.residues).map (fun e => (passAdd e.1 (crt e.2)).1), residues := q.residues.map (fun _ => 0) })) ∧
          (taskK rec_ ≤ 16 * (k.slab + 1) → 3 ≤ k.a.fmt → (∃ r ∈ q.residues, residueOk r = false) →
            ends .wheelSlab (faulted { s2 with kilnChecks := s2.kilnChecks + 1 } (Trap.mk 0x22 0 0))))) ∧
      (s.input = some (.taskTileDrain core) → taskBound rec_ 0 ≤ k.step →
        (o.1 < 0 ∨ o.2 < 0 → ends .taskTileDrain (faulted ran (Trap.mk 0x11 0 (faultAux { acc with write := true } 0 7)))) ∧
        (0 ≤ o.1 → 0 ≤ o.2 →
          (∀ t, ran.taskPages k o.1.toNat o.2.toNat = some t → t.cause ≠ 0 → ends .taskTileDrain (faulted ran t)) ∧
          (∀ vs r1 s1 end_, ran.taskPages k o.1.toNat o.2.toNat = none → ran.taskValues k o.1.toNat o.2.toNat rem = .ok (vs, r1) →
            ran.drainTensor { acc with write := true } k.c (bitOf (leNat rec_) 26) o.1.toNat o.2.toNat (taskN rec_) vs r1 = (s1, end_) →
            (∀ t, end_ = some t → t.cause ≠ 0 → ends .taskTileDrain (faulted s1 t)) ∧
            (∀ tile, end_ = none → nextTile rec_ k.tile = some tile → ends .taskTileDrain (runs s1 (KilnRun.begin k.task rec_ k.a k.b k.c tile))) ∧
            (end_ = none → nextTile rec_ k.tile = none → ends .taskTileDrain
              ((s1.modRunning core (fun r => { r with outcome := some (4, 0, 0, 0) })).modCore core (fun c => { c with kiln := none })))))) ∧
      (s.input = some (.wheelSlab core) → taskBound rec_ 0 ≤ k.step → exec .wheelSlab s = .next s)) ∧
  -- R340, R341, R347: the event that completes a task that has ended goes through its stages, each once and in this order: its fault
  -- fields where it is FAULTED; its STATE; DONE, its successors one by one; last it leaves its Setter, those it has made READY enter
  -- their queues, and its TASKQ objects are signalled. A successor's COUNT goes down by one at its home; at 0 an ARMED one leaves the armed
  -- tasks of its Setter, whatever address it was submitted under, and is READY.
  (
    (∀ (s : State) (die n : Nat) (r : Running), s.input = some (.taskComplete die n) → (s.setter die).running[n]? = some r →
      let t := r.task
      let me := Client.task t.asid t.va
      let ran := s.asEngine me 6
      let rem := (s.fabric.answersOf me).bytes
      let acc := engAcc t.asid t.priv
      (r.outcome = none → exec .taskComplete s = .next s) ∧
      (∀ st code va reason, r.outcome = some (st, code, va, reason) → s.quiet me →
        let then_ (x : Option (Nat × Task)) (u : State) : Prop :=
          let v := s.engineDone me (u.modSetter die (fun y => { y with
            running := y.running.modify n (fun q => { q with stage := q.stage + 1, released := x.toList ++ q.released }) }))
          exec .taskComplete s = .next ((v.completeRun die n 6).getD v)
        (∀ u, r.stage = 0 → st = 5 → ran.writeFault r code va reason = .ok u → then_ none u) ∧
        (r.stage = 0 → st ≠ 5 → then_ none ran) ∧
        (∀ u, r.stage = 1 → ran.writeState acc t.va die st = .ok u → then_ none u) ∧
        (∀ k x u, r.stage = k + 2 → k < 4 → st = 4 → ran.successor t r.record k rem = .ok (x, u) → then_ x u) ∧
        (∀ k, r.stage = k + 2 → k < 4 → st ≠ 4 → then_ none ran) ∧
        (r.stage = 6 → exec .taskComplete s = .next (s.engineDone me
          (((ran.modSetter die (fun x => { x with running := x.running.eraseIdx n })).enqueueTasks r.released.reverse).taskEnded t.asid t.va))))) ∧
    (∀ (s : State) (t : Task) (rec rem : List Byte) (k la : Nat) (g : Target),
      let va := successorVa rec k
      let acc := Acc.mk t.asid t.priv true false true
      (va = 0 → s.successor t rec k rem = .ok (none, s)) ∧
      (va ≠ 0 → s.translate acc va = .ok g → g.kind = .hbm ∨ g.kind = .host → la = localOf g.pa → s.reachable g = true → s.hostFault la = none →
        s.poisoned la 8 = false →
        let w0 := leNat (zread s.mem la 4)
        let die := bitsOf w0 14 12
        let old := leNat (zread s.mem (la + 4) 4)
        let left := if old = 0 then 2 ^ 32 - 1 else old - 1
        ∃ u, s.decrement (engAcc t.asid t.priv) va rem = .ok (g.place, w0, left, u) ∧ u.mem = zwrite s.mem (la + 4) (natLe 4 left) ∧
          u.setters = s.setters ∧
          (left ≠ 0 ∨ bitsOf w0 11 8 ≠ 1 ∨ u.armedTask die g.place = none → s.successor t rec k rem = .ok (none, u)) ∧
          (∀ x v, left = 0 → bitsOf w0 11 8 = 1 → u.armedTask die g.place = some x →
            (u.modSetter die (fun y => { y with armed := y.armed.filter (fun z => z.pa != g.place) })).writeState acc va die 2 = .ok v →
            s.successor t rec k rem = .ok (some (die, x), v)))))

/-- KCREATE makes a kernel object from its record, KCLOSE takes it away. The new entry of a wave whose handle has been closed, and what
closing a SPACE or a pipeline group looks at, is log entry 64 (DESIGN CHOICE). -/
def Obligations.ObjectsMadeAndClosed : Prop :=
  -- R388, R389, R381: KCREATE of a type that is none gives BADARG, of WAVE the handle of the lane's own wave; else it reads its
  -- record and gives the status of the record's checks, FULL without a free entry, or OK and the handle of a new entry, which was
  -- free before.
  (
    (∀ (d a b : Opd) (s : State) (fo : Focus) (w : Wave) (l : Nat) (ln : Lane) (k : Block), Calls s fo w l ln k →
      let t := (readOpd w l ln a).toNat
      let va := (readOpd w l ln (opdPlus b 1) ++ readOpd w l ln b).toNat
      let acc := laneAcc w ln false
      let ends (u : State) (st : Nat) (h : Word) : Prop := exec (.kcreate d a b) s = .next (u.completes fo l d [BitVec.ofNat 32 st, h] 0)
      (t = 0 ∨ 9 < t → ends s 12 0) ∧
      (∀ e x g, t = 1 → (s.obj w.obj).body = some (.wave fo.wave e x g) →
        ends (s.setBody w.obj (.wave fo.wave false true)) 0 (handleWord 1 (s.obj w.obj).gen w.obj)) ∧
      (t = 1 → (∀ e x g, (s.obj w.obj).body ≠ some (.wave fo.wave e x g)) →
        (s.newObj w.asid (.wave fo.wave false true) = none → ends s 1 0) ∧
        (∀ i s2, s.newObj w.asid (.wave fo.wave false true) = some (i, s2) →
          ends (s2.modWave fo.wave (fun x => { x with obj := i })) 0 (handleWord 1 (s.obj i).gen i))) ∧
      (2 ≤ t → t ≤ 9 → va % 64 ≠ 0 → exec (.kcreate d a b) s = .next (s.traps fo l 0x12 va 0)) ∧
      (∀ bs rem s0 ms r s1, 2 ≤ t → t ≤ 9 → va % 64 = 0 → s.laneRead w.coreKey acc va 64 [] = .ok (bs, rem, s0) →
        s0.windowBar w.asid t (leNat bs) = none →
        (t ≠ 6 ∨ bitsOf (leNat bs) 127 64 % 16 ≠ 0 → s1 = s0 ∧ ms = []) →
        (t = 6 → bitsOf (leNat bs) 127 64 % 16 = 0 → s0.laneRead w.coreKey acc (bitsOf (leNat bs) 127 64) (16 * (bitsOf (leNat bs) 4 0 + 1)) rem = .ok (ms, r, s1)) →
        (∀ c, s1.createBody w ln t (leNat bs) ms = .error c → ends s1 c 0) ∧
        (∀ body, s1.createBody w ln t (leNat bs) ms = .ok body →
          (s1.newObj w.asid body = none → ends s1 1 0) ∧
          (∀ i s2, s1.newObj w.asid body = some (i, s2) →
            (t ≠ 7 → ends s2 0 (handleWord t (s1.obj i).gen i)) ∧
            (∀ st, body = .stream st → ends (s2.igmp true st) 0 (handleWord 7 (s1.obj i).gen i)))))) ∧
    (∀ (s s2 : State) (asid i : Nat) (body : Body), s.newObj asid body = some (i, s2) →
      1 ≤ i ∧ i < 2 ^ 20 ∧ (s.obj i).body = none ∧ s2.obj i = Obj.mk (s.obj i).gen asid (some body) ∧ (∀ j, j ≠ i → s2.obj j = s.obj j) ∧
        s2 = { s with objs := s2.objs, freeCtr := s2.freeCtr }) ∧
    (∀ (s : State) (w : Wave) (ln : Lane) (v : Nat), v < 2 ^ 512 →
      (s.createBody w ln 3 v [] = if v = 0 then .ok (.waitset []) else .error 2) ∧
      (s.createBody w ln 9 v [] = if v = 0 then .ok (.pipegroup false none []) else .error 2) ∧
      (2 ^ 64 ≤ v → s.createBody w ln 4 v [] = .error 2) ∧
      (v < 2 ^ 64 → s.objs.length < 65536 → s.createBody w ln 4 v [] = .ok (.timer v none 0)) ∧
      (ln.isPriv = false → s.createBody w ln 5 v [] = .error 2) ∧
      (ln.isPriv = true → v < 2 ^ 16 → (s.spaceOf v).isSome = true → s.createBody w ln 5 v [] = .error 5) ∧
      (ln.isPriv = true → v < 2 ^ 16 → s.spaceOf v = none → s.createBody w ln 5 v [] = .ok (.space v 0 0 0)) ∧
      (∀ base n, base < 2 ^ 50 → 1 ≤ n → n ≤ 65536 → s.createBody w ln 8 (base + n * 2 ^ 64) [] = .ok (.taskq base n 0)) ∧
      (∀ cap, 1 ≤ cap → cap ≤ 4096 → s.createBody w ln 2 (cap * 2 ^ 16) [] = .ok (.port (Port.mk false false cap 0 0 [] [] [] 0 false none))))) ∧
  -- R382, R390, R397, R381, R108: KCLOSE of a handle that is not live traps KERNEL_OBJ; of a live one it frees the entry, whose handles
  -- are live no more, after what its kind asks; a slot release acts on a mapped slot alone; frames return to the pool once every access
  -- translated before has been performed.
  (
    (∀ (d a b : Opd) (s : State) (fo : Focus) (w : Wave) (l : Nat) (ln : Lane) (k : Block), Calls s fo w l ln k →
      let h := readOpd w l ln a
      let c := readOpd w l ln b
      let ends (u : State) (st : Nat) : Prop := exec (.kclose d a b) s = .next (u.completes fo l d [BitVec.ofNat 32 st] 0)
      (s.live h w.asid = none → exec (.kclose d a b) s = .next (s.traps fo l 0x38 0 h)) ∧
      (∀ idx body, s.live h w.asid = some (idx, body) → c = 0 →
        (bodyType body = 1 ∨ bodyType body = 4 ∨ bodyType body = 6 ∨ bodyType body = 8 → ends (s.freeObj idx) 0) ∧
        (bodyType body = 3 → ends (((s.release (fun k => match k with | .waitSet x _ => x == idx | _ => false) 7 0 []).forgetSet idx).freeObj idx) 0) ∧
        (bodyType body = 9 → (s.groupHas idx h = true → ends s 5) ∧ (s.groupHas idx h = false → ends (s.freeObj idx) 0)) ∧
        (bodyType body = 5 → ln.isPriv = false → ends s 12) ∧
        (∀ x t ab ac, body = .space x t ab ac → ln.isPriv = true →
          let used := s.waves.any (fun e => e.2.asid == x && e.2.onCore) || s.objs.any (fun e => e.2.asid == x && e.2.body.isSome && e.1 != idx)
          (used = true → ends s 5) ∧ (used = false → ends ({ s with allocs := sdel s.allocs x }.freeObj idx) 0)) ∧
        (∀ st, body = .stream st → ends ((s.igmp false st).freeObj idx) 0) ∧
        (∀ q m, body = .ref s.pkgid q m → ends ((s.freeObj idx).dropSender q (some fo.wave)) 0) ∧
        (∀ pkg q m, body = .ref pkg q m → pkg ≠ s.pkgid → ends ((s.freeObj idx).tellLogen pkg (.refClosed q)) 0) ∧
        (∀ p, body = .port p →
          let u := s.closePort idx p
          let fs := p.slots.map (fun e => e.2.frame)
          (fs = [] ∨ u.olderAccess (some w.asid) (u.ctx w.asid).gen = false → ends { u with pool := u.pool ++ fs } 0) ∧
          (fs ≠ [] → u.olderAccess (some w.asid) (u.ctx w.asid).gen = true → exec (.kclose d a b) s = .next (s.settled (u.waitAdvance fo w l (frameBytes fs)) d 1)))) ∧
      (∀ idx p, s.live h w.asid = some (idx, .port p) → c ≠ 0 →
        let i := wbits c 9 0
        (c.toNat ≠ 2 ^ 31 + i ∨ p.gwSlots ≤ i → ends s 12) ∧
        (c.toNat = 2 ^ 31 + i → i < p.gwSlots → ((sget p.slots i).map GrantSlot.mapped).getD false = false → ends s 5) ∧
        (∀ g, c.toNat = 2 ^ 31 + i → i < p.gwSlots → sget p.slots i = some g → g.mapped = true →
          s.entriesBar [((s.obj idx).asid, p.slotVa i, g.frame.size)] = none →
          let u := (s.releaseGrant (s.obj idx).asid p i g).setPort idx { p with slots := sdel p.slots i }
          (u.olderAccess (some w.asid) (u.ctx w.asid).gen = false → ends { u with pool := u.pool ++ [g.frame] } 0) ∧
          (u.olderAccess (some w.asid) (u.ctx w.asid).gen = true → exec (.kclose d a b) s = .next (s.settled (u.waitAdvance fo w l (frameBytes [g.frame])) d 1))))) ∧
    (∀ (d a b : Opd) (s : State) (fo : Focus) (w : Wave) (l : Nat) (ln : Lane) (k : Block) (wt : Wait) (c : Option Nat) (g : Nat),
      CallsAgain s fo w l ln k wt → wt.kind = .advance c g →
      exec (.kclose d a b) s = .next (s.settled (({ s with pool := s.pool ++ framesOf wt.bytes (wt.bytes.length / 8) } : State).completes fo l d [0] 0) d 1)) ∧
    (∀ (s : State) (idx : Nat), ((s.freeObj idx).obj idx) = Obj.mk (((s.obj idx).gen + 1) % 128) 0 none ∧
      (∀ h asid, wbits h 19 0 = idx → (s.freeObj idx).live h asid = none) ∧
      (∀ j, j ≠ idx → ((s.freeObj idx).obj j).gen = (s.obj j).gen ∧ ((s.freeObj idx).obj j).asid = (s.obj j).asid ∧
        (((s.freeObj idx).obj j).body.map bodyType) = ((s.obj j).body.map bodyType))) ∧
    (∀ (s : State) (idx : Nat) (p : Port), ((s.closePort idx p).obj idx).body = none ∧ (∀ e ∈ (s.closePort idx p).unexpected, e.port ≠ idx) ∧
      ∀ e ∈ (s.closePort idx p).arriving, e.port ≠ idx))

/-- R391, R392, R371, R376: KSPAWN refuses a bad record, depth 8 and a part without a core; else it makes a wave of 32 lanes at ENTRY, with
its g registers, footprint and privilege, that waits in a run queue, and gives its handle. When NORESOURCE is returned is log entry 63
(DEDUCED), and that the wave keeps its spawner log entry 53 (DEDUCED). -/
def Obligations.WavesSpawned : Prop :=
  (∀ (d a : Opd) (s : State) (fo : Focus) (w : Wave) (l : Nat) (ln : Lane) (k : Block) (bs rem : List Byte) (s1 : State),
    Calls s fo w l ln k →
    let va := (readOpd w l ln (opdPlus a 1) ++ readOpd w l ln a).toNat
    let r := SpawnRec.ofBytes bs
    let dies := if r.dieMask = 0 then 2 ^ w.die else r.dieMask
    let ends (u : State) (st : Nat) (h : Word) : Prop := exec (.kspawn d a) s = .next (u.completes fo l d [BitVec.ofNat 32 st, h] 0)
    (va % 64 ≠ 0 → exec (.kspawn d a) s = .next (s.traps fo l 0x12 va 0)) ∧
    (va % 64 = 0 → s.laneRead w.coreKey (laneAcc w ln false) va 64 [] = .ok (bs, rem, s1) →
      let made := s1.spawn w.asid r (min r.prio w.prio) (w.depth + 1) w.group (ln.isPriv && w.asid == 0) true dies (queueQuad w.die (s1.quadOf w.die w.core) dies)
      (r.ok = false → ends s1 2 0) ∧
      (r.ok = true → 8 ≤ w.depth → ends s1 8 0) ∧
      (r.ok = true → w.depth < 8 → s1.anyCore dies = false → ends s1 11 0) ∧
      (r.ok = true → w.depth < 8 → s1.anyCore dies = true → made = none → ends s1 1 0) ∧
      (∀ obj u s2, r.ok = true → w.depth < 8 → s1.anyCore dies = true → made = some (obj, u, s2) →
        (w.group = none → ends s2 0 (handleWord 1 (s1.obj obj).gen obj)) ∧
        (w.group.isSome = true → ends (s2.modWave u (fun x => { x with spawner := some w.coreKey })) 0 (handleWord 1 (s1.obj obj).gen obj))))) ∧
  (∀ (s s2 : State) (asid prio depth dies quad obj u : Nat) (r : SpawnRec) (group : Option Nat) (priv shown : Bool),
    s.spawn asid r prio depth group priv shown dies quad = some (obj, u, s2) →
    (∀ v, v ≠ u → s2.wave v = s.wave v) ∧ s2.runQueue = s.runQueue ++ [QueueEntry.mk u quad dies prio u] ∧
    ∃ w2, s2.wave u = some w2 ∧ w2.asid = asid ∧ w2.depth = depth ∧ w2.group = group ∧ w2.prio = prio ∧ w2.st = .queued ∧ w2.obj = obj ∧
      w2.regs = 8 * r.regs ∧ w2.privBytes = r.privBytes ∧ w2.tileCount = r.tileCount ∧
      (∀ j, j < 32 → ∃ x, w2.lane j = some x ∧ x.pc = BitVec.ofNat 64 r.entry ∧ x.stklim = BitVec.ofNat 32 r.privBytes ∧ x.isPriv = priv ∧
        x.inTrap = false ∧ ∀ i, i < 32 → x.bank.reg i = marker 2 i) ∧
      w2.greg 0 = 0 ∧ w2.greg 1 = 1 ∧ w2.greg 2 = BitVec.ofNat 32 r.arg ∧ w2.greg 3 = BitVec.ofNat 32 (r.arg / 2 ^ 32) ∧
      w2.greg 6 = BitVec.ofNat 32 r.user0 ∧ w2.greg 7 = BitVec.ofNat 32 r.user1 ∧ ∀ i, i = 4 ∨ i = 5 ∨ 8 ≤ i → w2.greg i = marker 1 i)

/-- KSEND, KRECV and KTRYRECV carry a message through a port of this package. KRECV through a reference to a closed port is log entry 52
(DEDUCED), the turns of receivers log entry 61 (DEDUCED), when a KSEND is interrupted and taken up log entries 33 and 54 (DEDUCED), and the
POISON trap of granted pages log entry 101 (DESIGN CHOICE). -/
def Obligations.MessagesSentAndReceived : Prop :=
  -- R393, R394: KSEND to a queue-mode port of this package puts its message behind the others, or waits for room; BADREC comes
  -- before PEER_CLOSED; to a port on another package its message leaves and the lane waits for the answer. R108, R254, R386: a lane
  -- whose pages' accesses are performed goes on, and one whose wait was interrupted takes it up.
  (
    (∀ (d a b : Opd) (s : State) (fo : Focus) (w : Wave) (l : Nat) (ln : Lane) (k : Block) (wt : Wait) (n : Nat), CallsAgain s fo w l ln k wt →
      wt.kind = .send n ∨ wt.kind = .rendezvous n →
      (∀ st, wt.status = some st → st < 256 → exec (.ksend d a b) s = .next (s.settled (s.completes fo l d [BitVec.ofNat 32 st] 0) d 1)) ∧
      (wt.status = some 256 → exec (.ksend d a b) s = .next (s.settled (s.traps fo l 0x14 (leNat wt.bytes) 0) d 1))) ∧
    (∀ (d a b : Opd) (s : State) (fo : Focus) (w : Wave) (l : Nat) (ln : Lane) (k : Block) (wt : Wait) (c : Option Nat) (g : Nat) (x : Arriving) (p : Port),
      CallsAgain s fo w l ln k wt → wt.kind = .advance c g →
      s.arriving.find? (fun x => x.pkg == s.pkgid && x.seq == leNat (wt.bytes.take 8)) = some x → s.portIdx x.port = some p →
      exec (.ksend d a b) s = .next (s.settled ((({ s with
        arriving := s.arriving.filter (fun y => !(y.pkg == s.pkgid && y.seq == leNat (wt.bytes.take 8))) } : State).enqueue x.port p x.msg
          (some fo.wave)).completes fo l d [0] 0) d 1)) ∧
    (∀ (d a b : Opd) (s : State) (fo : Focus) (w : Wave) (l : Nat) (ln : Lane) (k : Block) (q : Parked), Calls s fo w l ln k →
      ln.parked.find? (fun q => q.pc == ln.pc && q.inTrap == ln.inTrap) = some q →
      ∀ i ∈ [Instr.ksend d a b, .kname d a b, .klookup d a], exec i s = .next (s.settled (s.modLane fo.wave l (fun x =>
        { x with wait := some q.wait, parked := x.parked.filter (fun y => !(y.pc == x.pc && y.inTrap == x.inTrap)) })) d 1)) ∧
    ∀ (d a b : Opd) (s : State) (fo : Focus) (w : Wave) (l : Nat) (ln : Lane) (k : Block), Calls s fo w l ln k → ln.takenUp = none →
      let h := readOpd w l ln a
      let va := (readOpd w l ln (opdPlus b 1) ++ readOpd w l ln b).toNat
      let acc := laneAcc w ln false
      let ends (u : State) (st : Nat) : Prop := exec (.ksend d a b) s = .next (u.completes fo l d [BitVec.ofNat 32 st] 0)
      (s.portOf h w.asid = none → exec (.ksend d a b) s = .next (s.traps fo l 0x38 0 h)) ∧
      (∀ at_, s.portOf h w.asid = some at_ → va % 64 ≠ 0 → exec (.ksend d a b) s = .next (s.traps fo l 0x12 va 0)) ∧
      (∀ at_ bs rem s1 inl rem1 s2, s.portOf h w.asid = some at_ → va % 64 = 0 → s.laneRead w.coreKey acc va 64 [] = .ok (bs, rem, s1) →
        let r := SendRec.ofBytes bs
        s1.laneRead w.coreKey acc (va + 64) r.inLen rem = .ok (inl, rem1, s2) →
        (¬ (r.inLen ≤ 256 ∧ r.nGrant ≤ 4 ∧ (r.byRef = true → r.inLen = 0 ∧ r.nGrant = 0)) → ends s2 2) ∧
        (r.inLen ≤ 256 → r.byRef = false → r.nGrant = 0 →
          (at_ = .closed → ends s2 7) ∧
          (∀ idx p, at_ = .here idx p → p.matched = false → s2.portIdx idx = some p →
            (p.capacity ≤ s2.queueLen idx p ∨ w.sendsBefore idx l ln = true → exec (.ksend d a b) s = .next (s.settled (s2.waits fo l (.room idx)) d 1)) ∧
            (s2.queueLen idx p < p.capacity → w.sendsBefore idx l ln = false →
              ends (s2.enqueue idx p (Msg.mk (s2.sendSource w) r.tag inl [] none) (some fo.wave)) 0)) ∧
          (∀ pkg port, at_ = .away pkg port →
            let m := PortMessage.mk port (s2.sendSource w) (BitVec.ofNat 64 r.tag) inl inl.length [] false 0
            let q : Kmsg := { wave := fo.wave, lane := l, asid := w.asid, dest := pkg, seq := 0, body := .message m, pages := [], port := 0, sentAt := 0,
                              priv := ln.isPriv, payva := r.payVa }
            (s2.releaseWait fo.wave l (some .pod) 0 = none →
              exec (.ksend d a b) s = .next (s.settled ((s2.newKmsg q).2.waitFor fo.wave l (.send s2.fabric.nextReq)) d 1)) ∧
            (∀ x, s2.releaseWait fo.wave l (some .pod) 0 = some x →
              exec (.ksend d a b) s = .next (s.settled (s2.waitWith fo.wave l (.acks x) 0 []) d 1)))) ∧
        (r.inLen = 0 → r.nGrant = 0 → r.byRef = true → ∀ idx p, at_ = .here idx p → p.matched = false → ends s2 2) ∧
        (r.inLen ≤ 256 → r.byRef = false → r.nGrant ≠ 0 → r.nGrant ≤ 4 → ∀ idx p, at_ = .here idx p → p.matched = true → ends s2 2))) ∧
  -- R395, R397: KRECV and KTRYRECV take the oldest message of a port that nobody waits for, where no other lane is taking it: its header
  -- and bytes are written, and it leaves the queue; a write that faults leaves it there; behind others they wait their turn; on an empty
  -- queue KRECV waits, KTRYRECV gives EMPTY, and both PEER_CLOSED without senders.
  (
    (∀ (d a b : Opd) (s : State) (fo : Focus) (w : Wave) (l : Nat) (ln : Lane) (k : Block), Calls s fo w l ln k →
      let h := readOpd w l ln a
      let va := (readOpd w l ln (opdPlus b 1) ++ readOpd w l ln b).toNat
      let both (t : State) : Prop := exec (.krecv d a b) s = .next t ∧ exec (.ktryrecv d a b) s = .next t
      let ends (u : State) (st : Nat) : State := u.completes fo l d [BitVec.ofNat 32 st] 0
      (s.portOf h w.asid = none → both (s.traps fo l 0x38 0 h)) ∧
      (∀ at_, s.portOf h w.asid = some at_ → va % 64 ≠ 0 → both (s.traps fo l 0x12 va 0)) ∧
      (va % 64 = 0 → s.portOf h w.asid = some .closed → both (ends s 7)) ∧
      (∀ pkg q, va % 64 = 0 → s.portOf h w.asid = some (.away pkg q) → both (ends s 4)) ∧
      (∀ idx p m r, va % 64 = 0 → s.portOf h w.asid = some (.here idx p) → p.queue = m :: r →
        s.msgHeld m = true ∨ s.waiters (fun k => k == .port idx) ≠ [] →
        exec (.krecv d a b) s = .next (s.settled (s.waitWith fo.wave l (.port idx) 0 []) d 1) ∧
        exec (.ktryrecv d a b) s = .next (s.settled (s.waitWith fo.wave l (.port idx) 1 []) d 1)) ∧
      (∀ idx p, va % 64 = 0 → s.portOf h w.asid = some (.here idx p) → s.waiters (fun k => k == .port idx) = [] →
        (p.queue = [] → p.hadSenders = true ∧ p.senders = 0 → both (ends s 7)) ∧
        (p.queue = [] → ¬ (p.hadSenders = true ∧ p.senders = 0) →
          exec (.krecv d a b) s = .next (s.settled (s.waitWith fo.wave l (.port idx) 0 []) d 1) ∧ exec (.ktryrecv d a b) s = .next (ends s 13)) ∧
        (∀ m r, p.queue = m :: r → m.grants = [] → s.msgHeld m = false →
          (∀ s2, (s.withAcks ln).engWrite (laneAcc w ln true) va (msgHeader p m ++ m.bytes) = (s2, none) →
            both (ends ((s2.setPort idx { p with queue := r }).dropL1 w.coreKey).noRun 0)) ∧
          (∀ s2 t, (s.withAcks ln).engWrite (laneAcc w ln true) va (msgHeader p m ++ m.bytes) = (s2, some t) → t.cause ≠ 0 → ¬ (t.cause = 0x15 ∧ t.aux = 3) →
            both (takeTrap (s.setPort idx { p with queue := { m with taker := none } :: r }) fo.wave l t false fo.len))))) ∧
    (∀ (p : Port) (m : Msg), m.grants = [] → m.bytes.length ≤ 256 →
      (msgHeader p m).length = 64 ∧ bitsOf (leNat (msgHeader p m)) 63 0 = m.tag % 2 ^ 64 ∧
      BitVec.ofNat 32 (bitsOf (leNat (msgHeader p m)) 95 64) = m.source ∧ bitsOf (leNat (msgHeader p m)) 104 96 = m.bytes.length ∧
      bitsOf (leNat (msgHeader p m)) 511 105 = 0))

/-- R399 to R403: KWADD puts an object of a waitable kind with its key into the lowest free slot, KWDEL takes it out; KWAIT gives the key of
the lowest signalled slot, else TIMEOUT at once or after its limit; KARM sets a deadline or counts the expiries due, KDISARM stops and
clears; the timer and timeout events; KTIME reads device time, which does not decrease. The order in which waiters are served is log entry
61 (DEDUCED). -/
def Obligations.WaitSetsAndTimers : Prop :=
  (∀ (d a b : Opd) (s : State) (fo : Focus) (w : Wave) (l : Nat) (ln : Lane) (k : Block), Calls s fo w l ln k →
    let h := readOpd w l ln a
    let q := readOpd w l ln b
    let key := readOpd w l ln (opdPlus b 1)
    let ends (i : Instr) (u : State) (ws : List Word) : Prop := exec i s = .next (u.completes fo l d ws 0)
    ((∀ i x, s.live h w.asid ≠ some (i, .waitset x)) →
      ∀ j ∈ [Instr.kwadd d a b, .kwdel d a b, .kwait d a b], exec j s = .next (s.traps fo l 0x38 0 h)) ∧
    (∀ i x, s.live h w.asid = some (i, .waitset x) →
      (s.live q w.asid = none → exec (.kwadd d a b) s = .next (s.traps fo l 0x38 0 q) ∧ exec (.kwdel d a b) s = .next (s.traps fo l 0x38 0 q)) ∧
      (∀ j body, s.live q w.asid = some (j, body) →
        let held := x.any (fun e => e.2.1 == q)
        (bodyType body = 3 ∨ bodyType body = 5 ∨ bodyType body = 6 ∨ bodyType body = 7 ∨ (∃ pkg r m, body = .ref pkg r m) → ends (.kwadd d a b) s [12]) ∧
        ((∃ p, body = .port p) ∨ bodyType body = 1 ∨ bodyType body = 4 ∨ bodyType body = 8 ∨ bodyType body = 9 →
          (held = true → ends (.kwadd d a b) s [5]) ∧
          (held = false → firstFree (skeys x) 0 64 = none → ends (.kwadd d a b) s [1]) ∧
          (∀ n, held = false → firstFree (skeys x) 0 64 = some n → ends (.kwadd d a b) (s.setBody i (.waitset (sput x n (q, key)))) [0])) ∧
        (held = false → ends (.kwdel d a b) s [9]) ∧
        (held = true → ends (.kwdel d a b) (s.setBody i (.waitset (x.filter (fun e => e.2.1 != q)))) [0])) ∧
      (∀ o key, s.lowestSignalled i ln = some (o, key) → ends (.kwait d a b) (s.takeSignal w o) [0, key]) ∧
      (s.lowestSignalled i ln = none → q = 0 → ends (.kwait d a b) s [6, 0]) ∧
      (s.lowestSignalled i ln = none → q ≠ 0 → exec (.kwait d a b) s = .next (s.settled (s.waits fo l
        (.waitSet i (if q = 0xFFFFFFFF then none else some (s.time + 1000 * q.toNat)))) d 1))) ∧
    (∀ i period t n, s.live h w.asid = some (i, .timer period t n) →
      let due := (key ++ q).toNat
      (s.time < due → ends (.karm d a b) (s.setBody i (.timer period (some due) n)) [0]) ∧
      (due ≤ s.time → period = 0 → ends (.karm d a b) ((s.setBody i (.timer 0 none (min 65535 (n + 1)))).signalled i (some fo.wave)) [0]) ∧
      (due ≤ s.time → period ≠ 0 → ∃ m, 1 ≤ m ∧ due + (m - 1) * period ≤ s.time ∧ s.time < due + m * period ∧
        ends (.karm d a b) ((s.setBody i (.timer period (some (due + m * period)) (min 65535 (n + m)))).signalled i (some fo.wave)) [0]) ∧
      (t = none → ends (.kdisarm d a) s [5]) ∧
      (t.isSome = true → ends (.kdisarm d a) (s.setBody i (.timer period none 0)) [0])) ∧
    ((∀ i p t n, s.live h w.asid ≠ some (i, .timer p t n)) → exec (.karm d a b) s = .next (s.traps fo l 0x38 0 h) ∧
      exec (.kdisarm d a) s = .next (s.traps fo l 0x38 0 h)) ∧
    (∃ now, s.time ≤ now ∧ ends (.ktime d) { s with time := now } [BitVec.ofNat 32 now, BitVec.ofNat 32 (now / 2 ^ 32)])) ∧
  (∀ (d a b : Opd) (s : State) (fo : Focus) (w : Wave) (l : Nat) (ln : Lane) (k : Block) (wt : Wait) (j : Nat) (t : Option Nat),
    CallsAgain s fo w l ln k wt → wt.kind = .waitSet j t →
    let ends (u : State) (ws : List Word) : Prop := exec (.kwait d a b) s = .next (s.settled (u.completes fo l d ws 0) d 1)
    (wt.status = some 7 → ends s [7, 0]) ∧
    (∀ i x, wt.status ≠ some 7 → s.live (readOpd w l ln a) w.asid = some (i, .waitset x) →
      (∀ o key, s.lowestSignalled i ln = some (o, key) → ends (s.takeSignal w o) [0, key]) ∧
      (wt.status = some 6 → s.lowestSignalled i ln = none → ends s [6, 0]))) ∧
  (∀ (s : State) (w : Wave) (i b : Nat),
    (∀ p x n, (s.obj i).body = some (.timer p x n) → s.takeSignal w i = s.setBody i (.timer p x (n - 1))) ∧
    (∀ q n, (s.obj i).body = some (.taskq q b n) → s.takeSignal w i = s.setBody i (.taskq q b (n - 1))) ∧
    (∀ u e x, (s.obj i).body = some (.wave u e x false) → s.takeSignal w i = s.dropL1 w.coreKey) ∧
    (∀ u e x, (s.obj i).body = some (.wave u e x true) → s.takeSignal w i = s)) ∧
  (∀ (s : State) (i period t n : Nat), s.input = some (.timerExpiry i) → (s.obj i).body = some (.timer period (some t) n) →
    exec .timerExpiry s = .next ((({ s with time := max s.time t } : State).setBody i
      (.timer period (if period = 0 then none else some (t + period)) (min 65535 (n + 1)))).signalled i none)) ∧
  (∀ (s : State) (u l i t : Nat) (ln : Lane) (wt : Wait), s.input = some (.kwaitTimeout u l) → s.lane u l = some ln → ln.wait = some wt →
    wt.kind = .waitSet i (some t) → wt.status = none →
    exec .kwaitTimeout s = .next (({ s with time := max s.time t } : State).modLane u l (fun x => { x with wait := some { wt with status := some 6 } })))

/-- Names are bound, looked up and unbound; a request of another package is performed once. The order of KNAME's checks is log entry 63
(DEDUCED). -/
def Obligations.NamesAndRequests : Prop :=
  -- R404, R405, R406: a name whose home is this package is bound to a port once, and looked up here: NOTFOUND, or a new reference
  -- to its port, whose send count it raises; another home is asked, and the lane waits; the events that answer other packages'
  -- requests and end the lane's own.
  (
    (∀ (d a b : Opd) (s : State) (fo : Focus) (w : Wave) (l : Nat) (ln : Lane) (k : Block) (bs rem : List Byte) (s1 : State) (name : List Byte),
      Calls s fo w l ln k → ln.takenUp = none →
      let va := (readOpd w l ln (opdPlus a 1) ++ readOpd w l ln a).toNat
      let vb := (readOpd w l ln (opdPlus b 1) ++ readOpd w l ln b).toNat
      let h := readOpd w l ln a
      (va % 64 = 0 → s.laneRead w.coreKey (laneAcc w ln false) va 64 [] = .ok (bs, rem, s1) →
        let ends (u : State) (ws : List Word) : Prop := exec (.klookup d a) s = .next (u.completes fo l d ws 0)
        (nameOf bs = none → ends s1 [2, 0]) ∧
        (nameOf bs = some name → nameHome s1 name = s1.pkgid →
          ((∀ n ∈ s1.names, n.name ≠ name) → ends s1 [9, 0]) ∧
          (∀ n, s1.names.find? (fun n => n.name == name) = some n → n.pkg = s1.pkgid →
            (s1.newObj w.asid (.ref n.pkg n.port n.matched) = none → ends s1 [1, 0]) ∧
            (∀ i s2, s1.newObj w.asid (.ref n.pkg n.port n.matched) = some (i, s2) → ends (s2.addSender n.port) [0, handleWord 2 (s1.obj i).gen i]))) ∧
        (nameOf bs = some name → nameHome s1 name ≠ s1.pkgid →
          let q : Kmsg := { wave := fo.wave, lane := l, asid := w.asid, dest := nameHome s1 name, seq := 0, body := .lookup name, pages := [], port := 0, sentAt := 0 }
          exec (.klookup d a) s = .next (s.settled ((s1.newKmsg q).2.waitFor fo.wave l (.name s1.fabric.nextReq)) d 1))) ∧
      (vb % 64 = 0 → s.laneRead w.coreKey (laneAcc w ln false) vb 64 [] = .ok (bs, rem, s1) →
        let ends (u : State) (st : Nat) : Prop := exec (.kname d a b) s = .next (u.completes fo l d [BitVec.ofNat 32 st] 0)
        (∀ idx p, s.live h w.asid = some (idx, .port p) →
          (nameOf bs = none → ends s1 2) ∧
          (nameOf bs = some name → p.name.isSome = true → ends s1 5) ∧
          (nameOf bs = some name → p.name = none → nameHome s1 name = s1.pkgid →
            ((∃ n ∈ s1.names, n.name = name) → ends s1 10) ∧
            ((∀ n ∈ s1.names, n.name ≠ name) →
              ∀ p1, s1.portIdx idx = some p1 → p1.name = none →
                ends ({ s1 with names := s1.names ++ [Name.mk name s1.pkgid h p.matched] }.setPort idx { p1 with name := some name }) 0)) ∧
          (nameOf bs = some name → p.name = none → nameHome s1 name ≠ s1.pkgid →
            let q : Kmsg := { wave := fo.wave, lane := l, asid := w.asid, dest := nameHome s1 name, seq := 0, body := .bind name h p.matched, pages := [],
                              port := idx, sentAt := 0 }
            exec (.kname d a b) s = .next (s.settled ((s1.newKmsg q).2.waitFor fo.wave l (.name s1.fabric.nextReq)) d 1))) ∧
        (∀ idx pkg q m, s.live h w.asid = some (idx, .ref pkg q m) → nameOf bs = some name → ends s1 12)) ∧
      ((∀ idx p, s.live h w.asid ≠ some (idx, .port p)) → (∀ idx pkg q m, s.live h w.asid ≠ some (idx, .ref pkg q m)) →
        exec (.kname d a b) s = .next (s.traps fo l 0x38 0 h))) ∧
    (∀ (d a b : Opd) (s : State) (fo : Focus) (w : Wave) (l : Nat) (ln : Lane) (k : Block) (wt : Wait) (n st : Nat), CallsAgain s fo w l ln k wt →
      wt.kind = .name n → wt.status = some st →
      exec (.kname d a b) s = .next (s.settled (s.completes fo l d [BitVec.ofNat 32 st] 0) d 1) ∧
      (st ≠ 0 → exec (.klookup d a) s = .next (s.settled (s.completes fo l d [BitVec.ofNat 32 st, 0] 0) d 1))) ∧
    (∀ (s : State) (k : Kmsg), let seq := sgetD s.kmsgNext k.dest 0
      s.newKmsg k = (s.fabric.nextReq, ({ s with
        fabric := { s.fabric with nextReq := s.fabric.nextReq + 1 }, kmsgs := sput s.kmsgs s.fabric.nextReq { k with seq := seq, sentAt := s.time },
        kmsgNext := sput s.kmsgNext k.dest (seq + 1) } : State).sendFlit 0 (.kmsg s.fabric.nextReq k.dest seq k.body))) ∧
    (∀ (s : State) (req : Nat) (k : Kmsg), sget s.kmsgs req = some k →
      let came (st v : Nat) (s1 : State) : Prop := s.input = some (.kmsgReply req st v) ∧ s.takeFlit (.kmsgReply req st v) = some s1
      let gone (u : State) : State := { u with kmsgs := sdel u.kmsgs req }
      (∀ st v, s.input = some (.kmsgReply req st v) → s.takeFlit (.kmsgReply req st v) = none → exec .kmsgReply s = .next s) ∧
      (∀ st v name s1, came st v s1 → k.body = .lookup name →
        exec .kmsgReply s = .next ((gone s1).release (fun x => x == WaitKind.name req) st 0 (natLe 8 v))) ∧
      (∀ st v m s1, came st v s1 → k.body = .message m →
        exec .kmsgReply s = .next (((gone s1).dropClient (.message req)).release (fun x => x == WaitKind.send req) st 0 [])) ∧
      (∀ st v name port m s1, came st v s1 → k.body = .bind name port m → st ≠ 0 →
        exec .kmsgReply s = .next ((gone s1).release (fun x => x == WaitKind.name req) st 0 [])) ∧
      (∀ v name port m p s1, came 0 v s1 → k.body = .bind name port m → s.portIdx k.port = some p →
        (p.name = none →
          exec .kmsgReply s = .next (((gone s1).setPort k.port { p with name := some name }).release (fun x => x == WaitKind.name req) 0 0 [])) ∧
        (p.name.isSome = true → exec .kmsgReply s = .next (((gone s1).unbind name).release (fun x => x == WaitKind.name req) 5 0 []))) ∧
      (∀ name, s.input = some (.nameTimeout req) → k.body = .lookup name →
        exec .nameTimeout s = .next (({ gone s with time := max s.time (k.sentAt + 1000 * s.fabric.timeout) } : State).release (fun x => x == WaitKind.name req) 6 0 [])) ∧
      (s.input = some (.kmsgRetransmission req) → exec .kmsgRetransmission s = .next (s.sendFlit 0 (.kmsg req k.dest k.seq k.body))))) ∧
  -- R195, R209, R383, R394, R405, R406, R435: the events that bring another package's message, in the order of its package's numbers: the
  -- first time it is taken and performed, and answered; one without room is kept; a repetition is answered alike without being
  -- performed again.
  (
    ∀ (s0 : State) (src seq : Nat) (body : KmsgBody) (i : Instr),
      (i = .kmsgDeliver ∧ s0.input = some (.kmsgDeliver src seq body)) ∨
      (i = .belvedereBind ∧ ∃ name port m, body = .bind name port m ∧ s0.input = some (.belvedereBind src seq name port m)) ∨
      (i = .belvedereLookup ∧ ∃ name, body = .lookup name ∧ s0.input = some (.belvedereLookup src seq name)) →
      (s0.takeFlit (.kmsg src seq body) = none → s0.isHeld src seq = false → exec i s0 = .next s0) ∧
      (∀ s, s0.takeFlit (.kmsg src seq body) = some s →
        (∀ v, s.seen src seq = some v → s.isHeld src seq = false →
          (v % 256 ≠ 255 → exec i s0 = .next (s.sendFlit 0 (.kmsgReply src seq (v % 256) (v / 256)))) ∧ (v % 256 = 255 → exec i s0 = .next s)) ∧
        (s.seen src seq = none → seq ≠ 0 → s.seen src (seq - 1) = none → exec i s0 = .next s) ∧
        (s.seen src seq = none → (seq = 0 ∨ (s.seen src (seq - 1)).isSome = true) →
          let u := s.taken src seq body
          let ends (v : State) : Prop := exec i s0 = .next (v.over src seq)
          (∀ name port m, body = .bind name port m →
            ((∃ n ∈ s.names, n.name = name) → ends (u.replyKmsg src seq 10 0)) ∧
            ((∀ n ∈ s.names, n.name ≠ name) → ends (({ u with names := u.names ++ [Name.mk name src port m] } : State).replyKmsg src seq 0 0))) ∧
          (∀ name, body = .lookup name →
            ((∀ n ∈ s.names, n.name ≠ name) → ends (u.replyKmsg src seq 9 0)) ∧
            (∀ n, s.names.find? (fun n => n.name == name) = some n →
              ends (u.replyKmsg src seq 0 (n.pkg * 2 ^ 33 + (if n.matched then 2 ^ 32 else 0) + n.port.toNat)))) ∧
          (∀ h, body = .refOpened h → ends ((u.addSender h).replyKmsg src seq 0 0)) ∧
          (∀ h, body = .refClosed h → ends ((u.dropSender h none).replyKmsg src seq 0 0)) ∧
          (∀ m, body = .message m → u.heldBefore src seq m = true → exec i s0 = .next u) ∧
          (∀ m, body = .message m → u.heldBefore src seq m = false →
            (s.entry m.port = none → ends (u.replyKmsg src seq 7 0)) ∧
            (∀ idx p, s.entry m.port = some (idx, .port p) → p.matched = false → m.byref = false → m.grants = [] →
              (p.capacity ≤ s.queueLen idx p → exec i s0 = .next u) ∧
              (s.queueLen idx p < p.capacity → ends ((u.enqueue idx p (Msg.mk m.source m.tag.toNat m.bytes [] none) none).replyKmsg src seq 0 0)))))) ∧
      (∀ (u : State) (st v : Nat), st < 256 → (u.replyKmsg src seq st v).seen src seq = some (st + 256 * v)))

/-- R374: KWORK hands the group its block's next segment of the work and moves the block's cursor; R376 to R378: KIDLE gives 2
outside a group, 1 when the group has ended, 0 when something is signalled, and else waits, the cone started; R377: the cone
goes on from a passive core, and a round that found none black, with no spawned member without a core, ends the group. R171, R385: a lane
whose die's way to Logen retrains waits for it in every KRN function. That an unplaced member holds the end is log entry 53. -/
def Obligations.WorkAndTermination : Prop :=
  (∀ (d a b : Opd) (s : State) (fo : Focus) (w : Wave) (l : Nat) (ln : Lane) (k : Block), Single s fo w l ln → sget s.blocks w.block = some k →
    s.reach w.die 6 = false →
    ∀ i ∈ [Instr.kcreate d a b, .kclose d a b, .kspawn d a, .ksend d a b, .krecv d a b, .ktryrecv d a b, .kpost d a b, .kwadd d a b, .kwdel d a b,
      .kwait d a b, .karm d a b, .kdisarm d a, .kname d a b, .klookup d a, .kidle d a, .kwork d],
      exec i s = .next (s.settled (s.waitWith fo.wave l (.dieLink w.die 6) 0 []) d 1)) ∧
  (∀ (d a : Opd) (s : State) (fo : Focus) (w : Wave) (l : Nat) (ln : Lane) (k : Block), Calls s fo w l ln k →
    let total := k.workTiles * k.workK
    let u := k.index * total / k.blocks + k.cursor
    let hi := (k.index + 1) * total / k.blocks
    let tile := u / k.workK
    let ke := min (hi - tile * k.workK) k.workK
    let h := readOpd w l ln a
    (k.launch = none ∨ total = 0 ∨ hi ≤ u → ∃ t : State, exec (.kwork d) s = .next (t.completes fo l d [0xFFFFFFFF, 0, 0, 0x80000000] 0) ∧
      t = { s with blocks := t.blocks } ∧ sget t.blocks w.block = some k) ∧
    (k.launch.isSome = true → total ≠ 0 → u < hi →
      exec (.kwork d) s = .next ((s.modBlock w.block (fun x => { x with cursor := tile * k.workK + ke - k.index * total / k.blocks })).completes fo l d
        [BitVec.ofNat 32 tile, BitVec.ofNat 32 (u % k.workK), BitVec.ofNat 32 ke,
          BitVec.ofNat 32 ((if u % k.workK = 0 ∧ ke = k.workK then 0 else 1) + (if ke = k.workK then 2 else 0))] 0)) ∧
    ((∀ i x, s.live h w.asid ≠ some (i, .waitset x)) → exec (.kidle d a) s = .next (s.traps fo l 0x38 0 h)) ∧
    (∀ i x, s.live h w.asid = some (i, .waitset x) →
      (w.group = none → exec (.kidle d a) s = .next (s.completes fo l d [2] 0)) ∧
      (∀ g ended cone black, w.group = some g → (s.obj g).body = some (.pipegroup ended cone black) →
        let u := if cone.isSome then s else s.setBody g (.pipegroup false (some (Cone.mk (s.groupCores g) 0 false)) black)
        (ended = true → exec (.kidle d a) s = .next ((s.dropL1 w.coreKey).completes fo l d [1] 0)) ∧
        (ended = false → u.anySignalled i = true → exec (.kidle d a) s = .next (u.completes fo l d [0] 0)) ∧
        (ended = false → u.anySignalled i = false → exec (.kidle d a) s = .next (s.settled (u.waits fo l (.idle i g)) d 1))))) ∧
  (∀ (d a : Opd) (s : State) (fo : Focus) (w : Wave) (l : Nat) (ln : Lane) (k : Block) (wt : Wait) (i g : Nat), CallsAgain s fo w l ln k wt →
    wt.kind = .idle i g →
    (wt.status = some 1 → exec (.kidle d a) s = .next (s.settled ((s.dropL1 w.coreKey).completes fo l d [1] 0) d 1)) ∧
    (wt.status ≠ some 1 → s.anySignalled i = true → exec (.kidle d a) s = .next (s.settled (s.completes fo l d [0] 0) d 1))) ∧
  (∀ (s : State) (g : Nat) (c : Cone) (black : List Nat) (core : Nat), s.input = some (.conePass g) → (s.obj g).body = some (.pipegroup false (some c) black) →
    c.order[c.place]? = some core →
    let dark := c.black || black.contains core
    let rest := black.filter (fun x => x != core)
    let ended : Prop := dark = false ∧ (∀ x ∈ c.order, s.passive g x = true) ∧ s.unplaced g = false
    (s.passive g core = false → exec .conePass s = .next s) ∧
    (s.passive g core = true → c.place + 1 < c.order.length →
      exec .conePass s = .next (s.setBody g (.pipegroup false (some { c with place := c.place + 1, black := dark }) rest))) ∧
    (s.passive g core = true → c.order.length ≤ c.place + 1 →
      (ended → exec .conePass s = .next (((s.setBody g (.pipegroup true none rest)).release
        (fun k => match k with | .idle _ x => x == g | _ => false) 1 0 []).signalled g none)) ∧
      (¬ ended → exec .conePass s = .next (s.setBody g (.pipegroup false (some (Cone.mk (s.groupCores g) 0 false)) rest)))))

/-- KPOST, the landing of a message through a post, and the ends of a post. KPOST through a reference to a closed port is log entry 52
(DEDUCED); when a payload is read and what a faulting one counts, log entry 55 (DEDUCED); the status of a post whose sender is gone, log
entry 57 (DEDUCED); the bitmap of a frame that ends so, log entry 59 (DEDUCED) and log entry 116 (DESIGN CHOICE). -/
def Obligations.PostsAndMessages : Prop :=
  -- R207, R206, R210: KPOST on a matched-mode port of this package adds its post behind the others, and takes the oldest message
  -- that waits for it; NOTMATCHED, NOTLOCAL, BADREC and FULL otherwise.
  (
    ∀ (d a b : Opd) (s : State) (fo : Focus) (w : Wave) (l : Nat) (ln : Lane) (k : Block), Calls s fo w l ln k →
      let h := readOpd w l ln a
      let va := (readOpd w l ln (opdPlus b 1) ++ readOpd w l ln b).toNat
      let ends (u : State) (st : Nat) : Prop := exec (.kpost d a b) s = .next (u.completes fo l d [BitVec.ofNat 32 st] 0)
      (s.portOf h w.asid = none → exec (.kpost d a b) s = .next (s.traps fo l 0x38 0 h)) ∧
      (∀ at_, s.portOf h w.asid = some at_ → va % 64 ≠ 0 → exec (.kpost d a b) s = .next (s.traps fo l 0x12 va 0)) ∧
      (∀ at_ bs rem s1, s.portOf h w.asid = some at_ → va % 64 = 0 → s.laneRead w.coreKey (laneAcc w ln false) va 64 [] = .ok (bs, rem, s1) →
        (∀ pkg q, at_ = .away pkg q → ends s1 4) ∧ (at_ = .closed → ends s1 7) ∧
        (∀ idx p, at_ = .here idx p →
          (p.matched = false → ends s1 3) ∧
          (∀ e r, p.matched = true → s1.readTensor w.asid (bitsOf (leNat bs) 207 192) false rem = .ok (e, r) →
            let post : Post :=
              { asid := w.asid, va := va, record := bs, priv := ln.isPriv, entry := e, since := s1.time, latched := none, firstT := 0, lastT := 0,
                taken := [], landing := none, uid := s1.ticket }
            (s1.postOk idx post = false → ends s1 2) ∧
            (s1.postOk idx post = true → 4096 ≤ p.posts.length + p.queue.length → ends s1 1) ∧
            (s1.postOk idx post = true → p.posts.length + p.queue.length < 4096 →
              let s2 := ({ s1 with ticket := s1.ticket + 1 } : State).setPort idx { p with posts := p.posts ++ [post] }
              ((∀ m ∈ s1.uq, m.port = idx → post.takes m.source m.tag = false) → ends s2 0) ∧
              (∀ i m, (∀ j, j < i → ∀ x, s1.uq[j]? = some x → ¬ (x.port = idx ∧ post.takes x.source x.tag = true)) → s1.uq[i]? = some m → m.port = idx →
                post.takes m.source m.tag = true →
                ends (({ s2 with unexpected := s1.uq.eraseIdx i } : State).takeEntry idx { p with posts := p.posts ++ [post] } p.posts.length m) 0)))))) ∧
  -- R208, R210, R211, R212, R444: a message for a matched-mode port goes to the oldest post that takes it, or joins the unexpected queue;
  -- what a stream sends goes to no post here, and what Ethernet brings needs the accepted feature; the engine goes on with a post while it can; a payload takes at most CAPACITY bytes to the
  -- tensor at OFFSET, TRUNCATED when there were more; a fault gives FAULT.
  (
    (∀ (s : State) (m : PortMessage), s.input = some (.messageArrival m) → wbits m.source 31 29 ≠ 0 → s.accepted 2 = false → exec .messageArrival s = .next s) ∧
    (∀ (s : State) (m : PortMessage) (idx : Nat) (p : Port), s.input = some (.messageArrival m) → s.entry m.port = some (idx, .port p) → p.matched = true →
      wbits m.source 31 29 = 0 ∨ s.accepted 2 = true →
      let now : State := { s with time := max s.time m.time }
      let e := Unexpected.mk idx m.source m.tag.toNat m.bytes.length m.bytes none m.time
      (wbits m.source 31 29 = 2 → exec .messageArrival s = .next { now with rxDrop := s.rxDrop + 1 }) ∧
      (wbits m.source 31 29 ≠ 2 →
        (∀ n, p.posts.findIdx? (fun q => q.takes m.source m.tag.toNat) = some n → exec .messageArrival s =
          .next ((now.setPort idx { p with posts := p.posts.modify n (fun q => { q with landing := some e }) }).runPost idx n)) ∧
        ((∀ q ∈ p.posts, q.takes m.source m.tag.toNat = false) → s.uq.length < 65536 →
          exec .messageArrival s = .next { now with unexpected := s.uq ++ [e] }) ∧
        ((∀ q ∈ p.posts, q.takes m.source m.tag.toNat = false) → 65536 ≤ s.uq.length →
          exec .messageArrival s = .next (if wbits m.source 31 29 = 1 then { now with rxDrop := s.rxDrop + 1 } else now)))) ∧
    (∀ (s : State) (idx n k : Nat) (p : Port) (post : Post), s.portIdx idx = some p → p.posts[n]? = some post →
      (∀ u, s.postStep idx n = some u → s.postRun idx n post.uid (k + 1) = u.postRun idx n post.uid k) ∧
      (s.postStep idx n = none → s.runPost idx n = s) ∧ s.runPost idx n = s.postRun idx n post.uid 4) ∧
    (∀ (s : State) (post : Post) (source : Word) (tag : Nat) (bytes rem r : List Byte) (time : Nat) (e : Tensor), s.postTensor post rem = .ok (e, r) →
      let kept := min bytes.length (bitsOf (leNat post.record) 319 288)
      let start := e.live + bitsOf (leNat post.record) 271 224
      let out (st by_ code va : Nat) : Completion := Completion.mk st source tag by_ 0 code va time time
      let lands (t : State) (c : Completion) : Prop := s.land post source tag bytes time rem = .ok (t, c)
      (e.span < bitsOf (leNat post.record) 271 224 + kept → lands s (out 3 0 0x11 start)) ∧
      (bitsOf (leNat post.record) 271 224 + kept ≤ e.span →
        (∀ t, s.engWrite post.acc start (bytes.take kept) = (t, none) →
          lands t (out (if bitsOf (leNat post.record) 319 288 < bytes.length then 1 else 0) kept 0 0)) ∧
        (∀ t x, s.engWrite post.acc start (bytes.take kept) = (t, some x) → x.cause ≠ 0 → lands (t.noteBad x) (out 3 (x.va - start) x.cause x.va)))) ∧
    (∀ (c : Completion) (key : Nat), key < 2 ^ 64 → c.status < 256 → c.faultCode < 256 →
      let v := leNat (c.record key)
      (c.record key).length = 64 ∧ bitsOf v 63 0 = key ∧ bitsOf v 127 64 = c.tag % 2 ^ 64 ∧ bitsOf v 159 128 = c.source.toNat ∧ bitsOf v 167 160 = c.status ∧
        bitsOf v 175 168 = c.faultCode ∧ bitsOf v 191 176 = c.lines % 65536 ∧ bitsOf v 255 192 = c.bytes % 2 ^ 64 ∧
        bitsOf v 319 256 = c.first % 2 ^ 64 ∧ bitsOf v 383 320 = c.last % 2 ^ 64 ∧ bitsOf v 447 384 = c.faultVa % 2 ^ 64 ∧ bitsOf v 511 448 = 0)) ∧
  -- R210 to R214, R221: the events of a post: a payload lands and its sender goes on; the next SRD of a frame lands and counts; what
  -- has ended writes its bitmap, then its record, a copy of which joins the port's queue; STALLUS runs out for a post without a
  -- message, or for a frame, which takes no more SRDs and ends once those it has taken have landed.
  (
    ∀ (s : State) (idx n : Nat) (p : Port) (post : Post), s.portIdx idx = some p → p.posts[n]? = some post →
      let me := Client.post idx post.uid
      let ran := s.asEngine me 6
      let rem := (s.fabric.answersOf me).bytes
      (s.input = some (.rendezvousLand idx n) → s.quiet me →
        let ends (v : State) : Prop := exec .rendezvousLand s = .next (s.engineDone me v)
        (post.ending = none → post.landing = none → post.srds = [] →
          exec .rendezvousLand s = .next (if post.closing then
            (s.lastFrame post).modPost idx n (fun _ => { post with srds := [], ending := some (post.frameEnd 2 0 0) }) else s)) ∧
        (∀ e, post.ending = none → post.landing = some e →
          (∀ pkg seq, e.sender = some (.away pkg seq) → e.bytes.length ≠ e.len → exec .rendezvousLand s = .next s) ∧
          (∀ u l r va, e.sender = some (.lane u l r va) → ran.senderThere (.lane u l r va) = false →
            ends (ran.endPost idx n { Completion.bare 5 with source := e.source, tag := e.tag })) ∧
          (∀ bs rem1 s1 c, (∀ x, e.sender = some x → ran.senderThere x = true) → (∀ pkg seq, e.sender = some (.away pkg seq) → e.bytes.length = e.len) →
            ran.payload e rem = .ok (bs, rem1) → ran.land post e.source e.tag bs e.time rem1 = .ok (s1, c) →
            ends ((s1.endPost idx n c).answerSender e.sender 0)) ∧
          (∀ x, (∀ y, e.sender = some y → ran.senderThere y = true) → (∀ pkg seq, e.sender = some (.away pkg seq) → e.bytes.length = e.len) →
            ran.payload e rem = .error x → x.cause ≠ 0 →
            ends (((ran.noteBad x).endPost idx n
              { Completion.bare 3 with source := e.source, tag := e.tag, faultCode := x.cause, faultVa := x.va }).answerSender e.sender 0)) ∧
          (e.sender = none → ran.payload e rem = .ok (e.bytes, rem))) ∧
        (∀ y r rest x e rem1 s1, post.ending = none → post.landing = none → post.srds = (y, r) :: rest → post.stream = some x → ran.postTensor post rem = .ok (e, rem1) →
          ran.engWrites post.acc (y.placement e post r) = (s1, none) →
          let q := { post with taken := post.taken ++ [(r.line, y.startByte r, r.length)], srds := rest }
          ((x.linesDone q.taken).length ≠ x.height → ends (s1.modPost idx n (fun _ => q))) ∧
          ((x.linesDone q.taken).length = x.height →
            ends ((s1.lastFrame q).modPost idx n (fun _ => { q with srds := [], ending := some (q.frameEnd 0 0 0) })))) ∧
        (∀ c va bs t, post.ending = some c → ran.bitmapOf idx post = some (va, bs) → ran.engWrite post.acc va bs = (t, none) →
          ends (t.modPost idx n (fun x => { x with mapped := true }))) ∧
        (∀ c t err, post.ending = some c → ran.bitmapOf idx post = none →
          let record := c.record (bitsOf (leNat post.record) 383 320)
          let finish (u : State) : State := u.enqueue idx { p with posts := p.posts.eraseIdx n } (Msg.mk c.source c.tag record [] none) none
          ran.engWrite post.acc post.va record = (t, err) →
          (err = none → t.portIdx idx = some p → ends (finish t)) ∧ (∀ x, err = some x → x.cause ≠ 0 → ends (finish (ran.noteBad x))))) ∧
      (s.input = some (.postTimeout idx n) →
        let stall := bitsOf (leNat post.record) 415 384
        (post.frame = true ∨ stall = 0 ∨ post.live = false → exec .postTimeout s = .next s) ∧
        (post.frame = false → stall ≠ 0 → post.live = true → exec .postTimeout s =
          .next ((({ s with time := max s.time (post.since + 1000 * stall) } : State).endPost idx n (Completion.bare 6)).runPost idx n))) ∧
      (s.input = some (.frameStall idx n) →
        let stall := bitsOf (leNat post.record) 415 384
        (post.frame = true → stall ≠ 0 → post.ending = none → post.closing = false → exec .frameStall s =
          .next (((({ s with time := max s.time (post.since + 1000 * stall) } : State).lastFrame post).modPost idx n
            (fun x => { x with closing := true })).runPost idx n)) ∧
        (post.frame = false ∨ stall = 0 ∨ post.ending.isSome = true ∨ post.closing = true → exec .frameStall s = .next s)))

/-- R215 to R221, R402, R444: what arrives at the Ethernet ports has an effect once the feature is accepted alone: a Thrumino message at
ETHMSGUDP whose header holds goes to its port, any other is dropped and counted, as are a datagram whose checksum fails, a packet of no
stream and an SRD the stream refuses; an SRD goes to the frame post that takes it; the first PTP lock steps device time, which never
decreases afterwards; an ARP request is answered. What RXDROP counts and that a latched frame compares the timestamp alone is log entry 59
(DEDUCED); device time moves as log entry 14 (DESIGN CHOICE) says. -/
def Obligations.EthernetReceives : Prop :=
  ∀ (s : State), 
    let on := s.bringup.accepted = true ∧ bitOf s.bringup.drvaccept 2 = true
    let dropped (u : State) : State := { u with rxDrop := u.rxDrop + 1 }
    (∀ udp payload sum time, s.input = some (.thruminoMessage udp payload sum time) →
      let now : State := { s with time := max s.time time }
      let v := leNat (payload.take 24)
      let len := bitsOf v 127 96
      (¬ on ∨ udp.toNat ≠ s.ethMsgUdp → exec .thruminoMessage s = .next s) ∧
      (on → udp.toNat = s.ethMsgUdp → sum = false ∨ payload.length < 24 ∨ bitsOf v 31 0 ≠ 0x54484D31 ∨ 4096 < len ∨ len + 24 ≠ payload.length →
        exec .thruminoMessage s = .next (dropped now)) ∧
      (∀ idx p, on → udp.toNat = s.ethMsgUdp → sum = true → 24 ≤ payload.length → bitsOf v 31 0 = 0x54484D31 → len ≤ 4096 → len + 24 = payload.length →
        s.entry (BitVec.ofNat 32 (bitsOf v 63 32)) = some (idx, .port p) →
        (p.matched = false ∨ p.eth = false → exec .thruminoMessage s = .next (dropped now)) ∧
        (p.matched = true → p.eth = true → (∀ q ∈ p.posts, q.takes (BitVec.ofNat 32 (2 ^ 29 + bitsOf v 92 64)) (bitsOf v 191 128) = false) → s.uq.length < 65536 →
          exec .thruminoMessage s = .next { now with unexpected := s.uq ++
            [Unexpected.mk idx (BitVec.ofNat 32 (2 ^ 29 + bitsOf v 92 64)) (bitsOf v 191 128) len (payload.drop 24) none time] }) ∧
        (∀ n, p.matched = true → p.eth = true → p.posts.findIdx? (fun q => q.takes (BitVec.ofNat 32 (2 ^ 29 + bitsOf v 92 64)) (bitsOf v 191 128)) = some n →
          exec .thruminoMessage s = .next ((now.setPort idx { p with posts := p.posts.modify n (fun q => { q with
            landing := some (Unexpected.mk idx (BitVec.ofNat 32 (2 ^ 29 + bitsOf v 92 64)) (bitsOf v 191 128) len (payload.drop 24) none time) }) }).runPost idx n)))) ∧
    (∀ r, s.input = some (.srdReceive r) →
      let now : State := { s with time := max s.time r.time }
      (¬ on → exec .srdReceive s = .next s) ∧
      (on → r.sumOk = false ∨ (∀ e ∈ s.objs, ∀ t, e.2.body = some (.stream t) → t.accepts r = false) → exec .srdReceive s = .next (dropped now)) ∧
      (∀ k t o p, on → r.sumOk = true → s.objs = [(k, o), (t.port, s.obj t.port)] → o.body = some (.stream t) → k < t.port → t.accepts r = true →
        s.portIdx t.port = some p →
        let takes (q : Post) : Bool := q.takes (streamWord k) (r.timestamp.toNat * 2 ^ 32 + r.line) &&
          (match q.latched with | some (x, _) => x == r.timestamp.toNat | none => true) && now.fitsNow q t
        (t.refuses r = true → exec .srdReceive s = .next (dropped now)) ∧
        (t.refuses r = false → (∀ q ∈ p.posts, takes q = false) → exec .srdReceive s =
          .next (dropped (now.endFrames t.port k r.timestamp.toNat p.posts.length))) ∧
        (∀ n post, t.refuses r = false → p.posts.findIdx? takes = some n → p.posts[n]? = some post →
          let q : Post := if post.latched.isNone then
              { post with latched := some (r.timestamp.toNat, streamWord k), stream := some t, firstT := r.time, lastT := r.time, since := r.time, srds := [(t, r)] }
            else { post with lastT := r.time, since := r.time, srds := post.srds ++ [(t, r)] }
          exec .srdReceive s = .next ((now.setPort t.port { p with posts := p.posts.set n q }).runPost t.port n)))) ∧
    (∀ time lock, s.input = some (.ptpMessage time lock) →
      (¬ on → exec .ptpMessage s = .next s) ∧
      (on → lock = true → s.ptpEver = false → ∃ u, exec .ptpMessage s = .next u ∧ u = { s with time := time, ptpLock := true, ptpEver := true, sent := u.sent }) ∧
      (on → lock = false ∨ s.ptpEver = true → ∃ u, exec .ptpMessage s = .next u ∧ s.time ≤ u.time ∧
        u = { s with ptpLock := s.ptpLock || lock, time := u.time, sent := u.sent })) ∧
    exec .ptpLockLoss s = .next { s with ptpLock := false } ∧
    (∀ sender target, s.input = some (.arpRequest sender target) →
      (on → exec .arpRequest s = .next { s with sent := .arp sender target :: s.sent }) ∧ (¬ on → exec .arpRequest s = .next s))

/-- The events of a die link, and an uncore reset. Refused writes, links without a module and the events after a reset's training are log
entry 24 (DEDUCED), one replay for a failing flit and when a flit is acknowledged log entry 93 (DESIGN CHOICE), the numbers of a flow log
entry 113 (DESIGN CHOICE), an uncore reset in one step log entry 34 (DEDUCED). -/
def Obligations.DieLinks : Prop :=
  -- R163, R164, R165, R169, R170, R171, R173, R174, R175, R176, R180, R182, R356: the events of a die link: a TARGET write is accepted or
  -- REFUSED; training reaches the rate or steps down 4 GT/s; a lane fault uses a redundant lane of its direction, narrows that direction
  -- or ends the module, the module retraining (its retrain reports nothing, log entry 92; the lane that narrows or ends a module counts
  -- as retired, log entry 112); a window of 2^24 flits over LKREPLAYMAX is raised and may fall back; a failing flit is counted, a good
  -- one joins its flow or takes a credit; the raised event traps the lowest lane of the wave that LINKTRAPW named then; a scrub clears
  -- a line.
  (
    ∀ (s : State) (i : Nat), i < 12 → s.links.length = 12 →
      let k := s.link i
      (∀ v, s.input = some (.lkrateWrite i v) →
        let rate := wbits v 7 0
        let ok := (rate = 32 ∨ rate = 36 ∨ rate = 40 ∨ rate = 44 ∨ rate = 48) ∧ k.busy = false ∧
          (rate ≤ 32 ∨ (s.bringup.accepted = true ∧ bitOf s.bringup.drvaccept 0 = true))
        (ok → exec .lkrateWrite s = .next (s.setLink i
          { k with autofb := v.getLsbD 16, target := rate, busy := true, repairing := false, trying := rate, fellBack := false })) ∧
        (¬ ok → exec .lkrateWrite s = .next (s.setLink i { k with autofb := v.getLsbD 16, target := rate, status := 1 }))) ∧
      (s.input = some (.linkTrainingDone i false) → k.busy = true → k.dead = false →
        exec .linkTrainingDone s = .next (if 36 ≤ k.trying then s.setLink i { k with trying := k.trying - 4, fellBack := true, repairing := false } else s)) ∧
      (∀ ok, s.input = some (.linkTrainingDone i ok) → k.busy = true → k.dead = true →
        exec .linkTrainingDone s = .next (s.setLink i { k with busy := false, repairing := false, status := 3, down := true }).endReset) ∧
      (s.input = some (.linkTrainingDone i true) → k.busy = true → k.dead = false → k.repairing = true →
        exec .linkTrainingDone s = .next (s.setLink i { k with busy := false, repairing := false }).endReset.linkFree) ∧
      (s.input = some (.linkTrainingDone i true) → k.busy = true → k.dead = false → k.repairing = false →
        let up := { k with busy := false, cur := k.trying, status := if k.fellBack then 2 else 0, announce := false, down := false }
        let v := (s.setLink i up).linkEvent i (if k.fellBack then 3 else 0) k.fellBack k
        exec .linkTrainingDone s = .next (if k.announce then v.linkEvent i 7 false k else v).endReset.linkFree) ∧
      (∀ m out, s.input = some (.laneFault i m out) → m < 8 → k.widths.length = 16 → k.retired.length = 8 → k.spares.length = 16 → k.moduleWidth m ≠ 3 →
        let dir := 2 * m + (if out then 1 else 0)
        let counted := { k with retired := k.retired.set m (min 15 (k.retired.getD m 0 + 1)) }
        let again (x : LinkRegs) : LinkRegs := if x.busy then x else { x with busy := true, repairing := true, trying := x.cur, fellBack := false }
        (k.spares.getD dir 0 < 4 → exec .laneFault s =
          .next ((s.setLink i (again { counted with spares := k.spares.set dir (k.spares.getD dir 0 + 1) })).linkEvent i 1 false k)) ∧
        (4 ≤ k.spares.getD dir 0 → k.widths.getD dir 3 < 2 → exec .laneFault s =
          .next ((s.setLink i (again { counted with widths := k.widths.set dir (k.widths.getD dir 3 + 1) })).linkEvent i 2 true k)) ∧
        (4 ≤ k.spares.getD dir 0 → 2 ≤ k.widths.getD dir 3 →
          let dead := { counted with widths := (k.widths.set (2 * m) 3).set (2 * m + 1) 3 }
          ((∃ n, n < 8 ∧ n ≠ m ∧ k.moduleWidth n ≠ 3) → exec .laneFault s = .next ((s.setLink i dead).linkEvent i 5 true k)) ∧
          ((∀ n, n < 8 → n ≠ m → k.moduleWidth n = 3) → exec .laneFault s =
            .next ((((s.setLink i dead).linkEvent i 5 true k).setLink i
              { dead with status := 3, busy := false, repairing := false, down := true, announce := true }).linkEvent i 6 true dead).endReset.linkFree))) ∧
      (s.input = some (.replayWindow i) →
        let next := { k with ber := k.window, window := 0, flits := 0 }
        (k.flits < 2 ^ 24 → exec .replayWindow s = .next s) ∧
        (2 ^ 24 ≤ k.flits → k.replayMax = 0 ∨ k.window ≤ k.replayMax ∨ k.down = true → exec .replayWindow s = .next (s.setLink i next)) ∧
        (2 ^ 24 ≤ k.flits → k.replayMax ≠ 0 → k.replayMax < k.window → k.down = false →
          (k.autofb = true ∧ 32 < k.cur ∧ k.busy = false → exec .replayWindow s = .next
            (((s.setLink i next).linkEvent i 4 true k).setLink i { next with busy := true, repairing := false, trying := k.cur - 4, fellBack := true })) ∧
          (¬ (k.autofb = true ∧ 32 < k.cur ∧ k.busy = false) → exec .replayWindow s = .next ((s.setLink i next).linkEvent i 4 true k)))) ∧
      (∀ f ok, s.input = some (.dieFlitReceive i ok f) →
        (k.busy = true ∨ k.down = true → exec .dieFlitReceive s = .next s) ∧
        (k.busy = false → k.down = false →
          (ok = false → exec .dieFlitReceive s = .next ((s.setLink i
            { k with crcErr := (k.crcErr + 1) % 2 ^ 32, replay := (k.replay + 1) % 2 ^ 32, window := k.window + 1 }).countFlit i)) ∧
          (ok = true →
            let u := s.takeRoute f
            let x := u.flow (flowKey f)
            let j := x.route.idxOf i
            let ends (v : State) : Prop := exec .dieFlitReceive s = .next (v.countFlit i)
            (x.route.length ≤ j → ends u) ∧
            (j < x.route.length →
              (j = 0 → x.send f = none → ends u) ∧
              (j ≠ 0 → (u.link (x.route.getD (j - 1) 0)).buffer.any (fun y => y.2 == f) = false → ends u) ∧
              (∀ y, (j = 0 ∧ x.send f = some y) ∨ (j ≠ 0 ∧ (u.link (x.route.getD (j - 1) 0)).buffer.any (fun y => y.2 == f) = true ∧ y = x) →
                let a := (x.route.take (j + 1)).foldl (fun z l => farEnd l z) f.src
                (j + 1 = x.route.length →
                  let v := (u.freeCredits (fun z => z == f)).setFlow (flowKey f) (y.arrive f)
                  ends (v.settleFlows (v.flows.map (fun e => e.2.early.length)).sum)) ∧
                (j + 1 < x.route.length → u.credit i a f.chan = false → ends u) ∧
                (j + 1 < x.route.length → u.credit i a f.chan = true →
                  let v := (u.freeCredits (fun z => z == f)).setFlow (flowKey f) y
                  ends (v.setLink i { v.link i with buffer := (v.link i).buffer ++ [(a, f)] })))))) ) ∧
      (∀ d : DieFlit, let x := s.flow (flowKey d)
        (s.way d.src d.dst = none ∨ s.way d.src d.dst = some x.route → s.takeRoute d = s) ∧
        (∀ r, s.way d.src d.dst = some r → r ≠ x.route → s.takeRoute d =
          (s.freeCredits (fun y => flowKey y == flowKey d)).setFlow (flowKey d) { x with route := r, resend := x.unacked.map DieFlit.seq })) ∧
      (∀ (x : Sys2Proof.Machine.Flow) (d : DieFlit),
        let held := { x with unacked := x.unacked.filter (fun y => y.seq != d.seq), resend := x.resend.filter (fun n => n != d.seq) }
        (d.seq < x.awaited ∨ (∃ y ∈ x.early, y.seq = d.seq) → x.arrive d = held) ∧
        (x.awaited ≤ d.seq → (∀ y ∈ x.early, y.seq ≠ d.seq) → x.arrive d = { held with early := x.early ++ [d] }) ∧
        (x.resend = [] → d.seq = x.next → x.send d = some { x with next := x.next + 1, unacked := x.unacked ++ [d] }) ∧
        (x.resend = [] → d.seq ≠ x.next → x.send d = none) ∧
        (∀ n r, x.resend = n :: r → d.seq ≠ n → x.send d = none) ∧
        (∀ n r, x.resend = n :: r → d.seq = n → d ∈ x.unacked → x.send d = some { x with resend := r })) ∧
      (∀ n, (∀ e ∈ s.flows, ∀ y ∈ e.2.early, y.seq ≠ e.2.awaited ∨ s.clockMet y = false) → s.settleFlows n = s) ∧
      (∀ u aux r w l ln, s.linkCtl.raised = (u, aux) :: r → s.wave u = some w → w.st = .resident → w.lanes.head? = some (l, ln) → ln.degradable = true →
        exec .linkDegraded s = .next (takeTrap ((({ s with linkCtl := { s.linkCtl with raised := r.filter (fun e => e.1 != u) } } : State).setWave u
          (w.withdraw l)).modLane u l Lane.park) u l (Trap.mk 0x30 0 aux) false (s.unitLen w ln))) ∧
      (s.degradedLane = none → exec .linkDegraded s = .next s) ∧
      (∀ v, s.input = some (.poiscrub v) →
        let pa := bitsOf v.toNat 55 7 * 128
        (s.inHbm pa = false → exec .poiscrub s = .next s) ∧
        (s.inHbm pa = true → ∃ t, exec .poiscrub s = .next t ∧ t = { s with mem := t.mem, poison := t.poison, ecc := t.ecc, dir := t.dir, sent := t.sent } ∧
          (∀ a, localOf pa ≤ a → a < localOf pa + 128 → zget t.mem a = 0) ∧ (∀ a, a < localOf pa ∨ localOf pa + 128 ≤ a → zget t.mem a = zget s.mem a) ∧
          t.poisoned (localOf pa) 128 = false))) ∧
  -- R180, R432, R434: an uncore reset holds the cores of its die in reset, loses their waves' blocks, retrains its three links, and
  -- BUSY reads 1 until they have trained; a core that is reset holds nothing but the jobs of its channel.
  (
    ∀ (s : State) (die : Nat), s.input = some (.uncrst die) →
      (6 ≤ die → exec .uncrst s = .next s) ∧
      (die < 6 → s.links.length = 12 → ∃ t, exec .uncrst s = .next t ∧ t.linkCtl.resetBusy = true ∧ t.linkCtl.resetDie = some die ∧
        (∀ i, i = die ∨ i = 6 + die ∨ i = 6 + (die + 5) % 6 →
          t.link i = { LinkRegs.reset with busy := true, announce := true, down := (s.link i).down, buffer := (s.link i).buffer }) ∧
        (∀ c, c < s.coreCount die → ∃ jobs, t.core (coreKey die c) = { CoreState.reset with jobs := jobs } ∧
          ∀ j ∈ jobs, j.phase = .ending ∨ j.phase = .signalling) ∧
        (∀ line d, sget t.dir line = some d → t.lineHome line ≠ die ∧ bitOf d.present die = false) ∧
        ((∀ u w, s.wave u = some w → w.onCore = true → ∃ b, sget s.blocks w.block = some b ∧ u ∈ b.waves) →
          ∀ u w, t.wave u = some w → ∀ c, c < s.coreCount die → ¬ (w.onCore = true ∧ w.coreKey = coreKey die c)))) ∧
  (∀ (s : State) (d : Nat), s.linkCtl.resetDie = some d →
    ((∃ i, (i = d ∨ i = 6 + d ∨ i = 6 + (d + 5) % 6) ∧ (s.link i).busy = true) → s.endReset = s) ∧
    ((∀ i, i = d ∨ i = 6 + d ∨ i = 6 + (d + 5) % 6 → (s.link i).busy = false) →
      s.endReset = { s with linkCtl := { s.linkCtl with resetBusy := false, resetDie := none } }))

/-- R188, R189, R190, R195, R139: what a flit asks is done only once its group has authenticated; a request of another package is performed
once, its reply kept and repeated; while a die link on its path retrains it is held with a hold notice, which is repeated; a reply ends a
lane's remote access with its data, or its trap comes later where the lane has gone on; FABTIMEOUT of unsuspended time ends it with the
trap's word. The mark of a POISON reply is log entry 27 (DEDUCED), a posted store log entry 36 (DEDUCED), and when notices and limits act
log entries 74 and 75 (DEDUCED). -/
def Obligations.FabricRequests : Prop :=
  (∀ (s : State) (r : FabricRequest), s.input = some (.remoteRequest r) →
    let la := localOf r.pa
    (s.takeFlit (.request r) = none → exec .remoteRequest s = .next s) ∧
    (∀ s1, s.takeFlit (.request r) = some s1 →
      let seen := s1.performed r.pkg r.port r.seq none
      (∀ p, seen = some p → exec .remoteRequest s = .next (s1.sendFlit r.port (.reply r.pkg r.port r.seq p.ok p.data))) ∧
      (seen = none → s1.pathBusy la = true → (∀ h ∈ s1.fabric.heldIn, h.what ≠ .request r) → exec .remoteRequest s =
        .next (({ s1 with fabric := { s1.fabric with heldIn := s1.fabric.heldIn ++ [HeldReq.mk (.request r) s1.time] } } : State).sendFlit r.port
          (.hold r.pkg r.port r.seq))) ∧
      (seen = none → s1.pathBusy la = false →
        let answers (mem : List Host.Cell) (ok : Bool) (data : List Byte) : Prop := ∃ t : State, t.mem = mem ∧
          exec .remoteRequest s = .next (t.sendFlit r.port (.reply r.pkg r.port r.seq ok data)) ∧ t.performed r.pkg r.port r.seq none = some (Performed.mk r.seq none ok data)
        let old := wordAt (zread s1.mem la 4) 0
        (hbmEnd < la + r.size → answers s1.mem false []) ∧
        (la + r.size ≤ hbmEnd → ¬ (r.op = .store ∧ r.data.length = 128) → s1.poisoned la r.size = true → answers s1.mem false [0x14]) ∧
        (la + r.size ≤ hbmEnd → s1.poisoned la r.size = false → r.op = .load → answers s1.mem true (zread s1.mem la r.size)) ∧
        (la + r.size ≤ hbmEnd → s1.poisoned la r.size = false ∨ r.data.length = 128 → r.op = .store → answers (zwrite s1.mem la r.data) true []) ∧
        (∀ op, la + r.size ≤ hbmEnd → s1.poisoned la r.size = false → r.op = .atomic op →
          answers (zwrite s1.mem la (natLe 4 (atomNew op r.expected old (wordAt r.data 0) r.expected).1.toNat)) true (natLe 4 old.toNat)) ∧
        (la + r.size ≤ hbmEnd → s1.poisoned la r.size = false → r.op = .decrement →
          answers (zwrite s1.mem (la + 4) (natLe 4 ((leNat (zread s1.mem (la + 4) 4) + 2 ^ 32 - 1) % 2 ^ 32))) true (zread s1.mem la 8)) ∧
        (la + r.size ≤ hbmEnd → s1.poisoned la r.size = false → r.op = .increment →
          answers (zwrite s1.mem la (natLe 8 (leNat (zread s1.mem la 8) + 1))) true (zread s1.mem la 4)) ∧
        (∀ high, la + r.size ≤ hbmEnd → s1.poisoned la r.size = false → r.op = .nibble high →
          let b := leNat (zread s1.mem la 1)
          let x := leNat r.data % 16
          answers (zwrite s1.mem la (natLe 1 (if high then b % 16 + x * 16 else b / 16 * 16 + x))) true [])))) ∧
  (∀ (s : State) (req : Nat) (r : OutReq) (u l : Nat) (w : Wave) (ln : Lane), sget s.fabric.out req = some r → r.held = false → r.client = none → r.wave = u →
    r.lanes = [(l, 0)] → s.wave u = some w → w.lane l = some ln →
    let flit (ok : Bool) (data : List Byte) : Prop := s.input = some (.remoteReply req ok data) ∧ (s.takeFlit (.reply req ok data)).isSome = true
    let lane (i : Instr) (f : State → Lane) : Prop := ∃ t, exec i s = .next t ∧ t.lane u l = some (f t) ∧ sget t.fabric.out req = none
    (∀ ok data, s.input = some (.remoteReply req ok data) → s.takeFlit (.reply req ok data) = none → exec .remoteReply s = .next s) ∧
    (∀ wt, r.posted = none → ln.wait = some wt → wt.kind = .remote req →
      (∀ data, flit true data → r.op = .load → lane .remoteReply (fun _ => { ln with wait := some { wt with status := some 0, bytes := wt.bytes ++ data } })) ∧
      (∀ data, flit true data → r.op = .store → lane .remoteReply (fun _ => { ln with wait := some { wt with status := some 0, acks := wt.acks ++ [0] } })) ∧
      (∀ data, flit false data →
        lane .remoteReply (fun _ => { ln with wait := some { wt with status := some (if data.headD 0 = 0x14 then 3 else 1), value := 0, bytes := wt.bytes ++ natLe 8 r.va } })) ∧
      (s.input = some (.remoteTimeout req) → ∃ t, exec .remoteTimeout s = .next t ∧
        t.lane u l = some { ln with wait := some { wt with status := some 2, value := r.aux, bytes := wt.bytes ++ natLe 8 r.va } } ∧
        r.sentAt + r.suspended + 1000 * s.fabric.timeout ≤ t.time)) ∧
    (∀ p, r.posted = some p →
      (∀ data, flit true data → lane .remoteReply (fun _ => ln)) ∧
      (∀ data, flit false data → ln.late = none → lane .remoteReply (fun _ =>
        { ln with late := some (Late.mk p.pc p.inTrap (if data.headD 0 = 0x14 then 0x14 else 0x10) r.va 0) }))) ∧
    (∀ s1, s.input = some (.holdNotice req none) → s.takeFlit (.hold req) = some s1 → exec .holdNotice s =
      .next { s1 with fabric := { s1.fabric with out := smod s1.fabric.out req (fun x =>
        { x with suspended := x.suspended + (s1.time + 50000 - max s1.time x.resumes), resumes := s1.time + 50000 }) } })) ∧
  (∀ (s : State) (n : Nat), s.input = some (.holdNoticeSend n) →
    (∀ h, s.fabric.heldIn[n]? = some h →
      let now := max s.time (h.noticed + 20000)
      let u : State := { s with time := now, fabric := { s.fabric with heldIn := s.fabric.heldIn.set n { h with noticed := now } } }
      (∀ r, h.what = .request r → exec .holdNoticeSend s = .next (u.sendFlit r.port (.hold r.pkg r.port r.seq))) ∧
      (∀ m, h.what = .member m → exec .holdNoticeSend s = .next (u.sendFlit m.port (.holdMember m.pkg m.port m.seq m.member)))) ∧
    (s.fabric.heldIn[n]? = none → exec .holdNoticeSend s = .next s))

/-- The keys, the ports and the planes of the fabric. Which loss bars a port and the order of a remap are log entry 26 (DEDUCED), the port
and class of a flit log entries 90 and 107 (DESIGN CHOICE). -/
def Obligations.FabricKeysAndPorts : Prop :=
  -- R195, R196, R197: the keys of a port's direction: the port's established session loads a new key into an idle bank; it becomes
  -- active when the load is confirmed, and the old one is gone when the receiver has acknowledged its first group; 2^32 groups begin a
  -- rekey; a group that authenticates releases its flits; one that does not is discarded and counted, and eight in a row take the port
  -- down. The key itself is the model's free value (log entry 11), and REKEYED is posted for each direction (log entry 109).
  (
    ∀ (s : State) (port : Nat) (tx : Bool) (k : KeyDir), s.fabric.keys[2 * port + (if tx then 1 else 0)]? = some k →
      let put (q : KeyDir) : State := { s with fabric := { s.fabric with keys := s.fabric.keys.set (2 * port + (if tx then 1 else 0)) q } }
      (s.input = some (.keyUpdate port tx) →
        let may := s.sessionOpen port = true ∧ (s.spdm port).stage = 5 ∧ k.bank0 ≠ .loaded ∧ k.bank1 ≠ .loaded ∧ (k.bank0 = .idle ∨ k.bank1 = .idle)
        let load (q : KeyDir) : Prop := exec .keyUpdate s = .next ((put { q with rekey := true, switched := false }).spdmAnswer port (fun _ => true) id [])
        (port < 16 → may → k.bank0 = .idle → load { k with bank0 := .loaded, key0 := s.derivedKey tx }) ∧
        (port < 16 → may → k.bank0 ≠ .idle → load { k with bank1 := .loaded, key1 := s.derivedKey tx }) ∧
        (port < 16 → ¬ may → exec .keyUpdate s = .next s) ∧
        (16 ≤ port → exec .keyUpdate s = .next (s.spdmAnswer port (fun n => n == 5) id []))) ∧
      (s.input = some (.loadConfirm port tx) →
        let on (q : KeyDir) (bank : Bool) : Prop := exec .loadConfirm s =
          .next (put { q with proven := false, switched := true, gen := if k.filled = 0 then bank else k.gen }).settlePlanes
        (k.bank0 = .loaded → on { k with bank0 := .active, bank1 := if k.bank1 = .active then .accept else k.bank1 } false) ∧
        (k.bank0 ≠ .loaded → k.bank1 = .loaded → on { k with bank1 := .active, bank0 := if k.bank0 = .active then .accept else k.bank0 } true)) ∧
      (s.input = some (.receiverAck port tx) →
        let may := k.rekey = true ∧ k.switched = true ∧ (tx = true ∨ k.proven = true)
        let v := (put { k with
          bank0 := if k.bank0 = .accept then .idle else k.bank0, key0 := if k.bank0 = .accept then 0 else k.key0,
          bank1 := if k.bank1 = .accept then .idle else k.bank1, key1 := if k.bank1 = .accept then 0 else k.key1,
          rekey := false, switched := false }).postFabric 4 port
        (may → exec .receiverAck s = .next (if tx then v else v.sendFlit port (.keyAck port))) ∧ (¬ may → exec .receiverAck s = .next s)) ∧
      (s.input = some (.rekeyGroupCount port tx) →
        (k.due = true → exec .rekeyGroupCount s = .next (put { k with due := false, rekey := true })) ∧
        (k.due = false → exec .rekeyGroupCount s = .next s)) ∧
      (s.input = some (.fabrekey port) →
        (s.fabric.rekeying port = true → exec .fabrekey s = .next s) ∧
        (s.fabric.rekeying port = false → ∃ t, exec .fabrekey s = .next t ∧ t = { s with fabric := { s.fabric with keys := t.fabric.keys } } ∧
          (s.fabric.keys[2 * port]?.isSome = true → s.fabric.keys[2 * port + 1]?.isSome = true → t.fabric.rekeying port = true))) ∧
      (∀ bank ok flits, s.input = some (.flitGroupReceive port bank ok flits) → tx = false →
        let st := if bank = 0 then k.bank0 else k.bank1
        let fine := ok = true ∧ (st = .active ∨ st = .accept)
        let open_ := port < 16 ∧ flits.length ≤ 16 ∧ s.fabric.ports.getD port 0 ≠ 0 ∧ s.bringup.accepted = true ∧ bitOf s.bringup.drvaccept 1 = true
        (¬ open_ → exec .flitGroupReceive s = .next s) ∧
        (open_ → fine → ∃ t, exec .flitGroupReceive s = .next t ∧ t.fabric.released = s.fabric.released ++ flits ∧ port ∉ t.fabric.announcing ∧
          t.fabric.keys[2 * port]? = some { k with
            discards := 0, groups := (k.groups + 1) % 2 ^ 64, filled := 0, gen := k.bank1 == .active, due := k.due || (k.groups + 1) % 2 ^ 64 % 2 ^ 32 == 0,
            proven := k.proven || st == .active } ∧
          ((k.groups + 1) % 2 ^ 32 = 0 → Turn.step (.rekeyGroupCount port false) ∈ t.agenda) ∧
          (st = .active → k.rekey = true → k.switched = true → k.proven = false → Turn.step (.receiverAck port false) ∈ t.agenda)) ∧
        (open_ → ¬ fine → k.discards + 1 < 8 → exec .flitGroupReceive s = .next { s with fabric := { s.fabric with
          authErr := (s.fabric.authErr + 1) % 2 ^ 32, keys := s.fabric.keys.set (2 * port) { k with discards := k.discards + 1 } } }) ∧
        (open_ → ¬ fine → 8 ≤ k.discards + 1 → ∃ t, exec .flitGroupReceive s = .next t ∧ t.fabric.ports.getD port 0 = 0 ∧
          t.fabric.keys[2 * port]? = some KeyDir.reset ∧ t.fabric.released = s.fabric.released))) ∧
  -- R198 to R201, R405, R443: a port that is lost goes DOWN, its keys zeroised, and the names of a package that is lost with it are
  -- unbound; one that trains comes UP unless its announcement has been refused; a dead plane whose requests have ended loses its entries
  -- of PLANEMAP to the next live one; a PLANEMAP write waits for each plane's drain.
  (
    ∀ (s : State) (port : Nat), port < 16 → s.fabric.ports.length = 16 → s.fabric.keys.length = 32 →
      (∀ refused, s.input = some (.portLost port refused none) →
        (s.fabric.ports.getD port 0 = 0 → exec .portLost s = .next s) ∧
        (s.fabric.ports.getD port 0 ≠ 0 → ∃ t, exec .portLost s = .next t ∧ t.fabric.ports = s.fabric.ports.set port 0 ∧
          t.fabric.keys[2 * port]? = some KeyDir.reset ∧ t.fabric.keys[2 * port + 1]? = some KeyDir.reset ∧ port ∉ t.fabric.announcing ∧
          (port ∈ s.fabric.announcing → refused = true → port ∈ t.fabric.barred) ∧
          (refused = false → t.fabric.barred = s.fabric.barred))) ∧
      (∀ refused pkg, s.input = some (.portLost port refused (some pkg)) → ∃ t, exec .portLost s = .next t ∧ t.fabric.ports = s.fabric.ports.set port 0 ∧
        (∀ n ∈ t.names, n.pkg ≠ pkg) ∧ (∀ n ∈ s.names, n.pkg ≠ pkg → n ∈ t.names)) ∧
      (s.input = some (.portTrained port) →
        (port ∈ s.fabric.barred ∨ s.fabric.ports.getD port 0 = 2 → exec .portTrained s = .next s) ∧
        (port ∉ s.fabric.barred → s.fabric.ports.getD port 0 ≠ 2 → ∃ t, exec .portTrained s = .next t ∧ t.fabric.ports = s.fabric.ports.set port 2 ∧
          (s.bringup.accepted = true ∧ bitOf s.bringup.drvaccept 1 = true → port ∈ t.fabric.announcing))) ∧
      (∀ plane q, s.input = some (.planeRemap plane) → s.fabric.nextPlane plane = some q → plane < 8 →
        (s.fabric.planeLive plane = true ∨ (s.fabric.anySent (fun _ p _ => p == plane) = true) → exec .planeRemap s = .next s) ∧
        (s.fabric.planeLive plane = false → s.fabric.anySent (fun _ p _ => p == plane) = false → ∃ t, exec .planeRemap s = .next t ∧
          ∀ p, p < 8 → planeOf t.fabric.planeWant p = if planeOf s.fabric.planeWant p = plane then q else planeOf s.fabric.planeWant p)) ∧
      (∀ v, s.input = some (.planemapWrite v) → ∃ t, exec .planemapWrite s = .next t ∧ t.fabric.planeWant = v &&& 0x77777777 ∧
        ∀ p, p < 8 → planeOf t.fabric.planemap p =
          if s.fabric.anySent (fun _ _ pa => bitsOf pa 9 7 == p) then planeOf s.fabric.planemap p else planeOf v p)) ∧
  -- R184, R195 to R197, R199, R443, R444: a flit leaves with its class and the key-generation bit of its group, by a port that is UP and,
  -- unless it belongs to a session or is an announcement, has a key; sixteen fill a group; without such a port it waits.
  (
    ∀ (s : State) (o : Outgoing) (port : Nat),
      (s.exitPort port o = none → s.sendFlit port o = { s with waiting := s.waiting ++ [(port, o)] }) ∧
      (∀ q, s.exitPort port o = some q →
        let t := s.sendFlit port o
        s.fabric.ports.getD q 0 = 2 ∧ (o.keyless = true ∨ (s.accepted 1 = true ∧ s.fabric.keyed q = true)) ∧
        t.sent = .flit q o.class (s.fabric.txGen q) o :: s.sent ∧ t.waiting = s.waiting ∧
        (∀ k, s.fabric.keys[2 * q + 1]? = some k → s.fabric.keyed q = true →
          (k.filled < 15 → t.fabric.keys[2 * q + 1]? = some { k with filled := k.filled + 1 }) ∧
          (15 ≤ k.filled → t.fabric.keys[2 * q + 1]? = some { k with
            groups := (k.groups + 1) % 2 ^ 64, filled := 0, gen := k.bank1 == .active, due := k.due || (k.groups + 1) % 2 ^ 64 % 2 ^ 32 == 0 })) ∧
        (s.fabric.keyed q = false → t.fabric = s.fabric)))

/-- Launch queues are read and their launches complete. What becomes of a completion record, and of the lines that a writer holds dirty, is
log entry 67 (DEDUCED). -/
def Obligations.Launches : Prop :=
  -- R408, R407, R364: LAUNCH_READ does nothing without a pending queue or with 256 launches live; else it takes the oldest packet
  -- of a queue of the highest priority, whose head and sequence number advance; a launch in ERROR touches no handle, another
  -- waits for the last writer of each buffer it reads and for all users of one it writes; LAUNCH_START starts a launch when what
  -- it waits for is gone and those before it in its queue have started. A doorbell stores the tail.
  (
    (∀ (s : State), s.input = some .launchRead →
      (s.nextQueue = none → exec .launchRead s = .next s) ∧
      (∀ q x, s.nextQueue = some (q, x) →
        let pa := x.base * 4096 + 128 * (x.head % x.ring)
        let me := Client.packet q pa
        let ran := s.asEngine me 6
        let rem := (s.fabric.answersOf me).bytes
        x = s.queue q ∧ x.en = true ∧ x.head % x.ring ≠ x.tail % x.ring ∧
        (∀ p, p < s.queues.length → (s.queue p).pending = true → (s.queue p).prio < x.prio ∨ (s.queue p).prio = x.prio ∧ x.bell ≤ (s.queue p).bell) ∧
        (s.quiet me →
          (∀ pkt u, ran.readPacket pa rem = .ok (pkt, u) → exec .launchRead s = .next (s.engineDone me (u.takePacket q x (some pkt)))) ∧
          (∀ la, pkgOf pa = s.pkgid → la = localOf pa → la + 128 ≤ hbmEnd → ran.reachable (ringTarget pa false) = true →
            (s.poisoned la 128 = false → ran.readPacket pa rem = .ok (zread s.mem la 128, ran.receive la)) ∧
            (s.poisoned la 128 = true → exec .launchRead s = .next (s.engineDone me ((ran.noteBad (ran.poisonIn 0 la 128)).takePacket q x none)))) ∧
          (pkgOf pa ≠ s.pkgid → s.podsize ≤ pkgOf pa → exec .launchRead s = .next (s.engineDone me (ran.takePacket q x none)))))) ∧
    (∀ (s : State) (q : Nat) (x : HostQueue) (pkt : Option (List Byte)), q < s.queues.length → x = s.queue q → ∃ t y, s.takePacket q x pkt = t ∧
        t = { s with queues := t.queues, launches := sput s.launches s.ticket y, handles := t.handles, ticket := s.ticket + 1 } ∧
        (t.queue q).head = (x.head + 1) % x.ring ∧ (t.queue q).seq = (x.seq + 1) % 2 ^ 32 ∧ (t.queue q).tail = x.tail ∧
        (∀ p, p ≠ q → t.queue p = s.queue p) ∧
        y.q = q ∧ y.seq = x.seq ∧ y.asid = x.asid ∧ y.prio = x.prio ∧ (y.priv = true ↔ x.privq = true ∧ x.asid = 0) ∧ y.started = false ∧
        (∀ bs, pkt = some bs → y.packet = bs ∧
          (y.bad = true ↔ packetOk (leNat bs) = false ∨ s.groupOk x.asid (BitVec.ofNat 32 (bitsOf (leNat bs) 351 320)) = false)) ∧
        (pkt = none → y.bad = true) ∧
        (y.bad = true → y.waitFor = [] ∧ t.handles = s.handles)) ∧
    (∀ (s : State), 256 ≤ s.launches.length → s.nextQueue = none) ∧
    (∀ (s : State), s.launches.length < 256 → (∃ p, p < s.queues.length ∧ (s.queue p).pending = true) → s.nextQueue.isSome = true) ∧
    (∀ (asid n h : Nat) (t : Sparse (Option Nat × List Nat)) (w : Nat) (rs : List Nat), sget t (2 ^ 30 * asid + h) = some (some w, rs) →
      takeHandles asid n t [(h, false)] = ([w], sput t (2 ^ 30 * asid + h) (some w, rs ++ [n])) ∧
      takeHandles asid n t [(h, true)] = (w :: rs, sput t (2 ^ 30 * asid + h) (some n, []))) ∧
    (∀ (s : State) (q seq n : Nat) (x : Launch), s.input = some (.launchStart q seq) → s.findLaunch q seq = some (n, x) →
      let may := x.bad = false ∧ x.started = false ∧ (∀ m ∈ x.waitFor, sget s.launches m = none) ∧
        ∀ e ∈ s.launches, e.2.q = x.q → e.2.bad = true ∨ e.2.started = true ∨ n ≤ e.1
      (may → exec .launchStart s = .next { s with
        launches := sput s.launches n { x with started := true, order := s.ticket, startT := s.time, deal := some (0, false) }, ticket := s.ticket + 1 }) ∧
      (¬ may → exec .launchStart s = .next s)) ∧
    (∀ (s : State) (q : Nat) (v : Word), s.input = some (.doorbell q v) → q < 64 → s.queues.length = 64 →
      ∃ t, exec .doorbell s = .next t ∧ t = { s with queues := t.queues, ticket := s.ticket + 1 } ∧
        t.queue q = { s.queue q with tail := v.toNat % 4096, bells := (t.queue q).bells } ∧ ∀ p, p ≠ q → t.queue p = s.queue p)) ∧
  -- R363, R409: a launch is complete when it is in ERROR, or when all its blocks have been placed and are gone and its lane
  -- copies are over; what its writer's L2s hold of the host's memory goes home, its record goes to its place in the completion
  -- ring, SEQ last, with status, counts and times, an interrupt follows where the queue asks, and the launch is gone. A record that
  -- has nowhere to go, or fails, is lost.
  (
    (∀ (s : State) (q seq n : Nat) (x : Launch), s.input = some (.launchComplete q seq) → s.findLaunch q seq = some (n, x) →
      let ended := x.bad = true ∨ (x.started = true ∧ x.count ≤ x.next ∧ (∀ e ∈ s.blocks, e.2.launch ≠ some n) ∧
        ∀ e ∈ s.cores, ∀ c ∈ e.2.copies, c.launch ≠ some n)
      let me := Client.completion x.q x.seq
      let ran := s.asEngine me 6
      let writes := x.bad = false ∧ ∃ h ∈ packetHandles (leNat x.packet), h.2 = true
      let pa := (s.queue x.q).comp * 32 + 32 * (x.seq % (s.queue x.q).ring)
      (¬ ended → exec .launchComplete s = .next s) ∧
      (ended → s.quiet me → ∀ u, (writes → u = ran.hostDirty.foldl State.writeBack ran) → (¬ writes → u = ran) →
        (∀ v, u.writeCompletion pa (x.record s.time) = .ok v → exec .launchComplete s = .next (s.engineDone me (v.endLaunch n x))) ∧
        (∀ e, u.writeCompletion pa (x.record s.time) = .error e → e.cause ≠ 0 → exec .launchComplete s = .next (s.engineDone me ((u.noteBad e).endLaunch n x))))) ∧
    (∀ (s : State) (n : Nat) (x : Launch), ∃ t, s.endLaunch n x = t ∧ t = { s with launches := sdel s.launches n, host := t.host } ∧
      t.host = { s.host with msix := if (s.queue x.q).irq = true then x.q :: s.host.msix else s.host.msix }) ∧
    (∀ (s : State) (pa la : Nat) (bs : List Byte), bs.length = 32 → pkgOf pa = s.pkgid → la = localOf pa → la + 32 ≤ hbmEnd →
      s.reachable (ringTarget pa false) = true →
      (s.poisoned la 32 = true → s.writeCompletion pa bs = .error (s.poisonIn 0 la 32)) ∧
      (s.poisoned la 32 = false → ∃ t, s.writeCompletion pa bs = .ok t ∧ t = { s with mem := t.mem, dir := t.dir, sent := t.sent, corrected := t.corrected } ∧
        zread t.mem la 32 = bs ∧ ∀ a, a < la ∨ la + 32 ≤ a → zget t.mem a = zget s.mem a)) ∧
    ∀ (x : Launch) (time : Nat), x.q < 64 → x.record time =
      natLe 4 ((x.seq + 1) % 2 ^ 32) ++ natLe 4 (x.q * 2 ^ 25 + x.seq % 2 ^ 25) ++
        natLe 4 (if x.bad = true then 1 else if x.lost = true then 2 else 0) ++ natLe 4 (if x.bad = true then 0 else x.ended) ++
        natLe 8 (if x.bad = true then 0 else x.startT) ++ natLe 8 time)

/-- Blocks are placed on cores, end, move and are saved. The core among several that fit is a free choice (log entry 35, DESIGN CHOICE);
discarded registers are log entry 32 (DEDUCED), and which waits a saving ends log entry 33 (DEDUCED). -/
def Obligations.Blocks : Prop :=
  -- R372, R411, R413, R368: a launch that deals puts its next block on the first core of its round on which it fits, and its
  -- rounds end when one places none; a run-queue entry goes to a core of its dies on which it fits.
  (
    (∀ (s : State) (n : Nat) (x : Launch) (pos : Nat) (any : Bool), s.dealing = some (n, x) → x.deal = some (pos, any) →
      let cores := s.coresOf (x.bits 173 168)
      let goes (t : State) (d : Option (Nat × Bool)) : State := { t with launches := smod t.launches n (fun y => { y with deal := d }) }
      (x.count ≤ x.next → exec .blockPlace s = .next (goes s none)) ∧
      (x.next < x.count → (∀ i c, cores[pos + i]? = some c → s.dealTo n x c.1 c.2 = none) →
        exec .blockPlace s = .next (goes s (if any = true then some (0, false) else none))) ∧
      (∀ i c t, x.next < x.count → cores[pos + i]? = some c → s.dealTo n x c.1 c.2 = some t →
        (∀ j d, j < i → cores[pos + j]? = some d → s.dealTo n x d.1 d.2 = none) →
        exec .blockPlace s = .next (goes t (some (pos + i + 1, true)))) ∧
      exec .runQueuePlace s = .next s) ∧
    (∀ (s t : State) (n die core : Nat) (x : Launch), s.dealTo n x die core = some t →
      ∃ b, sget t.blocks s.ticket = some b ∧ b.placed = true ∧ b.die = die ∧ b.core = core ∧ b.launch = some n ∧
        b.waves.length = x.bits 167 160 ∧ sget t.launches n = some { x with next := x.next + 1 } ∧ t.mem = s.mem ∧ t.queues = s.queues) ∧
    (∀ (s : State), s.dealing = none → s.wanting = [] → exec .blockPlace s = .next s ∧ exec .runQueuePlace s = .next s) ∧
    (∀ (s : State) (e : QueueEntry), s.dealing = none → s.wanting = [.entry e] →
      exec .blockPlace s = .next s ∧
      ((∀ c ∈ s.coresOf 63, bitOf e.dies c.1 = true → s.placeBlock e.block c.1 c.2 = none) → exec .runQueuePlace s = .next s) ∧
      (∀ c ∈ s.coresOf 63, bitOf e.dies c.1 = true → (s.placeBlock e.block c.1 c.2).isSome = true →
        ∃ d ∈ s.coresOf 63, bitOf e.dies d.1 = true ∧ ∃ t, s.placeBlock e.block d.1 d.2 = some t ∧
          exec .runQueuePlace s = .next { t with runQueue := t.runQueue.filter (fun y => y.block != e.block) }))) ∧
  -- R365, R409, R400: a wave whose lanes have all exited, and whose writes to other packages are answered, leaves its core; its WAVE object is signalled, or freed where nothing
  -- holds its handle; with the last wave of a block the block is gone and its launch counts it.
  (
    ∀ (s : State) (u : Nat) (w : Wave), s.input = some (.waveEnd u) → s.wave u = some w →
      let writing := ∃ e ∈ s.fabric.out, e.2.client = none ∧ e.2.wave = u ∧ e.2.op ≠ .load
      (w.lanes ≠ [] ∨ w.onCore = false ∨ w.st = .saving ∨ writing → exec .waveEnd s = .next s) ∧
      (w.lanes = [] → w.onCore = true → w.st ≠ .saving → ¬ writing → ∃ t, exec .waveEnd s = .next t ∧ t.wave u = none ∧ (∀ v, v ≠ u → t.wave v = s.wave v) ∧ t.mem = s.mem ∧ t.cores = s.cores ∧
        (∀ e lost, (s.obj w.obj).body = some (.wave u e true lost) → (t.obj w.obj).body = some (.wave u true true false)) ∧
        (∀ e lost, (s.obj w.obj).body = some (.wave u e false lost) → t.obj w.obj = Obj.mk (((s.obj w.obj).gen + 1) % 128) 0 none) ∧
        (∀ b, sget s.blocks w.block = some b →
          ((∃ v ∈ b.waves, v ≠ u) → sget t.blocks w.block = some { b with waves := b.waves.filter (fun v => v != u) } ∧ t.launches = s.launches) ∧
          ((∀ v ∈ b.waves, v = u) → sget t.blocks w.block = none ∧
            (b.launch = none → t.launches = s.launches) ∧
            ∀ n x, b.launch = some n → sget s.launches n = some x → sget t.launches n = some { x with ended := x.ended + 1 })))) ∧
  -- R414, R415, R427: a COMPACTOR_MOVE moves resident waves to other main-file ranges and nothing else; MOVE_DONE makes such a
  -- wave resident; a block whose lanes have stopped is saved: its dirty private sectors are written back, its waves hold no tiles
  -- and no instance, each lane as its image has it, its scratchpad range in its image; what its lanes have asked of other packages
  -- is no one's any more.
  (
    (∀ (s : State) (core : Nat), s.input = some (.compactorMove core) → s.waves.wf = true →
      ∃ t, exec .compactorMove s = .next t ∧ t = { s with waves := t.waves } ∧
        ∀ u w, s.wave u = some w → t.wave u = some w ∨
          (w.st = .resident ∧ w.coreKey = core ∧ ∃ base, t.wave u = some { w with mainBase := base, st := .moving })) ∧
    (∀ (s : State) (u : Nat) (w : Wave), s.input = some (.moveDone u) → s.wave u = some w →
      (w.st = .moving → exec .moveDone s = .next (s.setWave u { w with st := .resident })) ∧
      (w.st ≠ .moving → ∃ t, exec .moveDone s = .next t ∧ t = { s with waves := t.waves } ∧ ∀ v, t.wave v = s.wave v)) ∧
    (∀ (s : State) (k : Nat) (b : Block), s.input = some (.waveSaved k) → sget s.blocks k = some b →
      let saving := (∃ e ∈ s.waves, e.2.block = k ∧ e.2.st = .saving) ∧
        ∀ e ∈ s.waves, e.2.block = k → ∀ x ∈ e.2.lanes, x.2.bank.tail = 0 ∨ ∃ wt, x.2.wait = some wt ∧ wt.interruptible = true
      (¬ saving → exec .waveSaved s = .next s) ∧
      (saving → ∃ t, exec .waveSaved s = .next t ∧
        t = { s with waves := t.waves, blocks := t.blocks, dir := t.dir, sent := t.sent, corrected := t.corrected,
                     fabric := { s.fabric with out := t.fabric.out, casts := t.fabric.casts } } ∧
        (∀ n r, sget s.fabric.out n = some r → ∃ q, sget t.fabric.out n = some q ∧ q = { r with lanes := q.lanes } ∧
          q.lanes = if r.client = none ∧ r.wave ∈ b.waves then [] else r.lanes) ∧
        (∀ e, e ∈ t.fabric.casts ↔ e ∈ s.fabric.casts ∧ e.2.wave ∉ b.waves) ∧
        (∃ image, sget t.blocks k = some { b with placed := false, image := image, quadInsts := [] } ∧
          ∀ i, i < b.scratchBytes → zget image i = zget (s.core b.slotCore).scratch (b.origin + i)) ∧
        ∀ u w, s.wave u = some w → w.block = k → ∃ w2, t.wave u = some w2 ∧
          w2 = { w with st := .saved, tileSlots := [], insts := [], idle := w2.idle, lanes := w2.lanes, privDirty := [], gWait := [] } ∧
          ∀ l ln, w.lane l = some ln → ∃ ln2, w2.lane l = some ln2 ∧ ln2.wait = (if ln.inIdle = true then ln.wait else none) ∧
            (ln.inTrap = false → ln.bank.tail = 0 → ln2.pc = ln.bank.restartPc ∧ ln2.bank.b = [] ∧ ln2.bank.restart = true) ∧
            (ln.bank.tail ≠ 0 → ln2.pc = ln.pc ∧ ln2.bank = ln.bank))))

/-- Package reset, bring-up and writes of the package's registers. What a package reset keeps is log entry 69 (DEDUCED), and that nothing is
refused from reset log entry 102 (DESIGN CHOICE). -/
def Obligations.PackageStarts : Prop :=
  -- R16, R426, R166, R448: a package reset leaves what State.reset has, but for the fuses and the controller's images, the host's own
  -- memory, what has been sent, and the model's counters; a link that was DOWN trains; the lines of host memory that an L2 held dirty
  -- keep what their home had; HBM reads zero (log entry 2); a firmware image that the boot ROM does not accept leaves every phase at
  -- 00, the host link trained by the ROM. A minimum version that a management operation has written with it (log entry 69) raises the fused
  -- one and never lowers it.
  (
    ∀ (s : State) (raised : Option Nat), (s.input = some (.packageReset raised) ∨ (raised = none ∧ ∀ r, s.input ≠ some (.packageReset r))) →
      ∃ t, exec .packageReset s = .next t ∧
      let least := max s.controller.minVersion (raised.getD 0)
      t = { State.reset with mem := t.mem, harvest := s.harvest, sent := s.sent, freeCtr := s.freeCtr, ticket := s.ticket,
                             controller := { s.controller with minVersion := least },
                             links := t.links, bringup := { Bringup.reset with refused := t.bringup.refused }, host := { HostLink.reset with up := t.bringup.refused } } ∧
      (t.bringup.refused = true ↔ ∃ f ∈ s.controller.firmware, ¬ (Config.verify f.key (Config.sha3 f.bytes) f.signature = true ∧
        Config.sha3 f.key = s.controller.keyDigest ∧ least ≤ f.version)) ∧
      (∀ (i : Nat) (k : LinkRegs), s.links[i]? = some k → t.links[i]? =
        some (if k.down = true then { LinkRegs.reset with busy := true, announce := true } else LinkRegs.reset)) ∧
      (s.dir.wf = true → (∀ e ∈ s.dir, e.2.dirty = true → hostBase ≤ 128 * e.1 → e.2.back.length = 128) →
        (∀ a, a < hostBase → zget t.mem a = 0) ∧
        (∀ a, hostBase ≤ a → s.dirtyLine (lineOf a) = false → zget t.mem a = zget s.mem a) ∧
        (∀ a d, hostBase ≤ a → sget s.dir (lineOf a) = some d → d.dirty = true → d.back[a % 128]? = some (zget t.mem a)))) ∧
  -- R440, R441, R442, R443: the phases of bring-up end in order, none where an image was refused, a failed one sets FAILED, the last DONE; the die links'
  -- and the Ilpaip's phase end with what the links and ports have come to, none of them training any more; the first DRVACCEPT
  -- write after a good bring-up keeps the features the part has, ST2110 only with ETH, locks the memory split, settles PKGID and
  -- PODSIZE, and fills the device information page; every other is ignored.
  (
    (∀ (s : State) (phase : Nat) (result : BitVec 2), s.input = some (.bringupPhaseDone phase result) → s.bringup.phases.length = 5 →
      let b := s.bringup
      let links := if ∃ d ∈ List.range 6, ∀ i ∈ dieLinks d, (s.link i).down = true then 3
        else if ∃ k ∈ s.links, k.down = true ∨ ∃ w ∈ k.widths, w ≠ 0 then 2 else 1
      let ports := if 0 ∈ s.fabric.ports then 2 else 1
      let r := if phase = 1 then links else if phase = 2 then ports else result.toNat
      let training := (phase = 1 ∧ ∃ k ∈ s.links, k.busy = true) ∨ (phase = 2 ∧ 1 ∈ s.fabric.ports)
      let may := ¬ training ∧ b.refused = false ∧ phase < 5 ∧ b.phases.getD phase 0 = 0 ∧ (∀ p, p < phase → b.phases.getD p 0 ≠ 0) ∧ r ≠ 0 ∧
        (phase = 0 → r ≠ 2) ∧ (2 ≤ phase → r ≠ 3)
      (may → exec .bringupPhaseDone s = .next { s with
        bringup := { b with phases := b.phases.set phase r, failed := b.failed || r == 3, done := phase == 4 },
        host := { s.host with up := s.host.up || phase == 4 } }) ∧
      (¬ may → exec .bringupPhaseDone s = .next s)) ∧
    (∀ (s : State) (v : BitVec 64), s.input = some (.drvacceptWrite v) →
      let b := s.bringup
      let may := b.done = true ∧ b.failed = false ∧ b.accepted = false
      (¬ may → exec .drvacceptWrite s = .next s) ∧
      (may → ∃ t acc page, exec .drvacceptWrite s = .next t ∧
        t = { s with cfg := { s.cfg with lock := true }, pkgid := t.pkgid, podsize := t.podsize, infoPage := some page,
                     bringup := { b with drvaccept := acc, accepted := true }, fabric := { s.fabric with announcing := t.fabric.announcing, keys := t.fabric.keys }, sent := t.sent, waiting := t.waiting,
                     agenda := t.agenda } ∧
        (∀ i, bitOf acc i = true ↔ (i < 5 ∧ v.getLsbD i = true ∧ (i = 3 → v.getLsbD 2 = true))) ∧
        (bitOf acc 1 = false → t.pkgid = 0 ∧ t.podsize = 1 ∧ t.fabric.announcing = s.fabric.announcing) ∧
        (bitOf acc 1 = true → t.podsize = max 1 (min 512 s.podsize) ∧ t.pkgid = (if t.podsize ≤ s.pkgid then 0 else s.pkgid) ∧
          ∀ p, p < 16 → s.fabric.ports.getD p 0 = 2 → p ∈ t.fabric.announcing) ∧
        leNat (page.take 4) = 0x1C090101 ∧ leNat ((page.drop 8).take 4) = t.pkgid % 2 ^ 32 ∧ leNat ((page.drop 12).take 4) = t.podsize % 2 ^ 32 ∧
        leNat ((page.drop 16).take 8) = acc ∧ leNat ((page.drop 24).take 8) = 1))) ∧
  -- R5, R97, R198, R217, R398, R407, R440: writes to registers: MEMSPLIT only while it is not locked, no wave is on a core and no
  -- engine works; 32-bit registers take their fields; read-only ones keep theirs; a frame joins the grant pool when it is aligned
  -- local HBM that overlaps none, else GPREJECT counts it.
  (
    (∀ (s : State) (v : Word), s.input = some (.memsplitWrite v) →
      let closed := s.cfg.lock = true ∨ (∃ e ∈ s.waves, e.2.onCore = true) ∨ s.engineLive = true
      (closed → exec .memsplitWrite s = .next s) ∧
      (¬ closed → exec .memsplitWrite s = .next { s with cfg := { s.cfg with wingib := min 128 (wbits v 7 0) } })) ∧
    (∀ (s : State) (off : Nat) (v : Word), s.input = some (.registerWrite off 4 (v.setWidth 64)) →
      let goes (t : State) : Prop := exec .registerWrite s = .next t
      (off % 4 ≠ 0 → goes s) ∧
      (off = 0x1008 → goes { s with cfg := { s.cfg with ctxroot := s.cfg.ctxroot / 2 ^ 20 % 2 ^ 24 * 2 ^ 20 + wbits v 31 12, xlaten := v.getLsbD 0 } }) ∧
      (off = 0x2400 → goes { s with linkCtl := { s.linkCtl with evPort := v } }) ∧
      (off = 0x3010 → goes { s with fabric := { s.fabric with timeout := max 1 (wbits v 15 0) } }) ∧
      (off = 0x3018 → goes { s with fabric := { s.fabric with authErr := v.toNat } }) ∧
      (off = 0x4004 → goes { s with rxDrop := v }) ∧
      (off = 0x4008 → goes { s with ethMsgUdp := wbits v 15 0 }) ∧
      (off = 0x4010 → goes s) ∧
      (off = 0x6000 ∨ off = 0x6008 ∨ off = 0x6010 → goes s) ∧
      (off = 0x6018 → goes { s with bringup := { s.bringup with pwrLimit := min 2800 (wbits v 11 0) } }) ∧
      (off = 0x6020 → goes (if s.bringup.accepted = true then s else { s with pkgid := wbits v 8 0 })) ∧
      (off = 0x6024 → goes (if s.bringup.accepted = true then s else { s with podsize := wbits v 9 0 })) ∧
      (off = 0x7018 → goes { s with gpReject := v })) ∧
    (∀ (s : State) (v : BitVec 64), s.input = some (.grantPoolAdd v) →
      let f := Frame.mk (bitsOf v.toNat 55 12 * 4096) (bitsOf v.toNat 1 0)
      let sound := pkgOf f.pa = s.pkgid ∧ localOf f.pa + f.bytes ≤ hbmEnd ∧ f.pa % f.bytes = 0 ∧
        ∀ g ∈ s.pool, f.pa + f.bytes ≤ g.pa ∨ g.pa + g.bytes ≤ f.pa
      (sound → exec .grantPoolAdd s = .next { s with pool := f :: s.pool }) ∧
      (¬ sound → exec .grantPoolAdd s = .next { s with gpReject := s.gpReject + 1 })))

/-- The host's accesses of memory and registers, and the SPDM answers. What the host answers is log entry 70 (DESIGN CHOICE), the order of
SPDM requests log entry 71 (PRESUMED), and that the environment places errors in HBM log entry 104 (DESIGN CHOICE). -/
def Obligations.HostAccesses : Prop :=
  -- R367, R439, R426, R113, R446: an access of the host to the interleaved pool through the accepted decoder, over die links that are
  -- up, reaches HBM, a read is answered with its data or as failed, a full line clears its POISON, a shorter write to a poisoned one is lost, and an access that finds an uncorrectable
  -- error marks its line; the link's state follows CXL; a snoop sends a dirty line home and may take it; a stretch is counted.
  (
    (∀ (s : State) (a n : Nat) (write : Bool) (data : List Byte), s.input = some (.hostMemAccess a n write data) →
      let open' := s.bringup.accepted = true ∧ bitOf s.bringup.drvaccept 4 = true ∧ a + n ≤ (768 - 6 * s.cfg.wingib) * 2 ^ 30 ∧
        s.reach 6 (s.homeDie a) = true
      let bad := lineOf a ∈ s.poison ∨ s.latent (lineOf a) = true
      let marked (t : State) : Prop := t = { s with poison := t.poison } ∧ ∀ k, k ∈ t.poison ↔ k ∈ s.poison ∨ (k = lineOf a ∧ s.latent k = true)
      (¬ open' → exec .hostMemAccess s = .next s) ∧
      (open' → 1 ≤ n → lineOf (a + n - 1) = lineOf a →
        (write = false → ∃ t, exec .hostMemAccess s = .next t ∧
          (bad → marked { t with sent := s.sent } ∧ t.sent = .hostRead a none :: s.sent) ∧
          (¬ bad → t = { s with dir := t.dir, sent := t.sent, corrected := t.corrected } ∧ t.sent.head? = some (.hostRead a (some (zread s.mem a n))))) ∧
        (write = true → data.length = n → n = 128 → ∃ t, exec .hostMemAccess s = .next t ∧
          t = { s with mem := zwrite s.mem a data, poison := t.poison, ecc := t.ecc, dir := t.dir, sent := t.sent } ∧
          (∀ k, k ∈ t.poison ↔ k ∈ s.poison ∧ k ≠ lineOf a) ∧ ∀ k, k ∈ t.ecc ↔ k ∈ s.ecc ∧ k ≠ lineOf a) ∧
        (write = true → data.length = n → n < 128 → ∃ t, exec .hostMemAccess s = .next t ∧ (bad → marked t) ∧
          (¬ bad → t = { s with mem := zwrite s.mem a data, dir := t.dir, sent := t.sent, corrected := t.corrected })))) ∧
    (∀ (s : State), exec .cxlLinkDown s = .next { s with host := { s.host with up := false } } ∧
      (∃ t, exec .cxlLinkUp s = .next t ∧ t = { s with host := { s.host with up := true }, dir := t.dir, sent := t.sent } ∧
        ∀ k, sget t.dir k = sget s.dir k ∨ ∃ d, sget s.dir k = some d ∧ d.dirty = true ∧ s.lineHome k = 7 ∧
          sget t.dir k = some { d with st := .s, back := [] } ∧ .writeBack k ∈ t.sent) ∧
      exec .droopStretch s = .next { s with clkStretch := s.clkStretch + 1 } ∧
      exec .powerStretch s = .next { s with clkStretch := s.clkStretch + 1 }) ∧
    (∀ (s : State) (a : Nat) (inv : Bool) (data : List Byte), s.input = some (.cxlCacheSnoop a inv data) →
      (a < hostBase ∨ s.host.up = false → exec .cxlCacheSnoop s = .next s) ∧
      (hostBase ≤ a → s.host.up = true → ∃ t, exec .cxlCacheSnoop s = .next t ∧
        t = { s with mem := t.mem, dir := t.dir, sent := t.sent } ∧
        t.dirtyLine (lineOf a) = false ∧ (∀ k, k ≠ lineOf a → sget t.dir k = sget s.dir k) ∧
        (s.dirtyLine (lineOf a) = true → .writeBack (lineOf a) ∈ t.sent) ∧
        (inv = true → sget t.dir (lineOf a) = none) ∧
        t.mem = (if inv = true ∧ data.length = 128 then zwrite s.mem (128 * lineOf a) data else s.mem)))) ∧
  -- R196, R449, R448: SPDM requests are answered in their order, each only at the stage of its session that it needs; the
  -- answers' bytes are free values (log entry 11), but measurement 3 begins with the features and holds DRVACCEPT. The session of a port
  -- needs the port UP and the feature accepted, its answers leave by it, and a rekey starts with its FINISH; a session of the mailbox answers
  -- a KEY_UPDATE.
  (
    ∀ (s : State) (n : Nat),
      let stage := (s.spdm n).stage
      let told (k : Nat) (a : List Byte) : State :=
        let base := { s with host := { s.host with spdm := sput s.host.spdm n (Spdm.mk k (a :: (s.spdm n).answers)) } }
        if n < 16 then base.sendFlit n (.spdm n a) else base
      let answered (i : Instr) (k : Nat) (a : List Byte) : Prop := exec i s = .next (told k a)
      let open' := n < 16 → s.bringup.accepted = true ∧ bitOf s.bringup.drvaccept 1 = true ∧ s.fabric.ports.getD n 0 = 2
      (¬ open' →
        (s.input = some (.getVersion n) → exec .getVersion s = .next s) ∧ (s.input = some (.getCapabilities n) → exec .getCapabilities s = .next s) ∧
        (∀ o, s.input = some (.negotiateAlgorithms n o) → exec .negotiateAlgorithms s = .next s) ∧
        (s.input = some (.getDigests n) → exec .getDigests s = .next s) ∧
        (∀ slot, s.input = some (.getCertificate n slot) → exec .getCertificate s = .next s) ∧
        (∀ x, s.input = some (.keyExchange n x) → exec .keyExchange s = .next s) ∧ (∀ ok, s.input = some (.finish n ok) → exec .finish s = .next s) ∧
        (s.input = some (.heartbeat n) → exec .heartbeat s = .next s) ∧ (s.input = some (.endSession n) → exec .endSession s = .next s) ∧
        (∀ k, s.input = some (.getMeasurements n k) → exec .getMeasurements s = .next s) ∧
        (∀ x, s.input = some (.challenge n x) → exec .challenge s = .next s)) ∧
      (open' →
      (s.input = some (.getVersion n) → answered .getVersion 1 (Config.image 4)) ∧
      (s.input = some (.getCapabilities n) → (stage = 1 → answered .getCapabilities 2 (Config.image 5)) ∧ (stage ≠ 1 → exec .getCapabilities s = .next s)) ∧
      (∀ o, s.input = some (.negotiateAlgorithms n o) →
        (stage = 2 → answered .negotiateAlgorithms 3 (Config.image 6)) ∧ (stage ≠ 2 → exec .negotiateAlgorithms s = .next s)) ∧
      (s.input = some (.getDigests n) →
        (3 ≤ stage → answered .getDigests stage (Config.sha3 (Config.image 3))) ∧ (stage < 3 → exec .getDigests s = .next s)) ∧
      (∀ slot, s.input = some (.getCertificate n slot) → (3 ≤ stage ∧ slot = 0 → answered .getCertificate stage (Config.image 3)) ∧
        (¬ (3 ≤ stage ∧ slot = 0) → exec .getCertificate s = .next s)) ∧
      (∀ x, s.input = some (.keyExchange n x) → (3 ≤ stage → answered .keyExchange 4 (Config.kem x ++ Config.sign (Config.kem x))) ∧
        (stage < 3 → exec .keyExchange s = .next s)) ∧
      (∀ ok, s.input = some (.finish n ok) → (stage = 4 ∧ ok = true → 16 ≤ n → answered .finish 5 []) ∧
        (stage = 4 ∧ ok = true → n < 16 → exec .finish s = .next ((told 5 []).writeFabrekey n)) ∧
        (¬ (stage = 4 ∧ ok = true) → exec .finish s = .next s)) ∧
      (s.input = some (.heartbeat n) → (stage = 5 → answered .heartbeat 5 []) ∧ (stage ≠ 5 → exec .heartbeat s = .next s)) ∧
      (s.input = some (.endSession n) → (stage = 5 → answered .endSession 3 []) ∧ (stage ≠ 5 → exec .endSession s = .next s)) ∧
      (∀ k, s.input = some (.getMeasurements n k) →
        let part := s.measurement k
        (3 ≤ stage → 1 ≤ k → k ≤ 4 → answered .getMeasurements stage (part ++ Config.sign part)) ∧
        (¬ (3 ≤ stage ∧ 1 ≤ k ∧ k ≤ 4) → exec .getMeasurements s = .next s) ∧
        (k = 3 → leNat (part.take 8) = 0x1F ∧ leNat (part.drop 8) = if s.bringup.accepted = true then s.bringup.drvaccept % 2 ^ 64 else 0)) ∧
      (∀ tx, s.input = some (.keyUpdate n tx) → 16 ≤ n → (stage = 5 → answered .keyUpdate 5 []) ∧ (stage ≠ 5 → exec .keyUpdate s = .next s)) ∧
      (∀ nonce, s.input = some (.challenge n nonce) → (3 ≤ stage → answered .challenge stage (Config.sign nonce)) ∧ (stage < 3 → exec .challenge s = .next s))))

/-- R108, R300, R134, R304, R305, R426: advancing a context's generation drops its cached translations and non-leaf entries; a lane whose
reconvergence limit has passed goes on alone; an MFREE exchange reaches the owner quad's return list, or, of an address that no chunk of
the pool holds, nothing (DESIGN CHOICE, log entry 51); pod barrier messages that
have come act on the barrier held here, and on no other context's, the pod being told its new state (DESIGN CHOICE, log entry 96); those of a home set the state
of a barrier held elsewhere; a CXL answer that fails to come within 4 ms ends its wait as a timeout. -/
def Obligations.TimeLimitsAndExchanges : Prop :=
  (∀ (s : State) (asid : Nat), s.input = some (.generationAdvance asid) → ∃ t, exec .generationAdvance s = .next t ∧
    t = { s with ctxs := t.ctxs, tlb := t.tlb, tables := t.tables } ∧ (∀ e, e ∈ t.tables ↔ e ∈ s.tables ∧ e.asid ≠ asid) ∧ t.ctx asid = { s.ctx asid with gen := (s.ctx asid).gen + 1 } ∧ (∀ k, k ≠ asid → t.ctx k = s.ctx k) ∧
    ∀ e, e ∈ t.tlb ↔ e ∈ s.tlb ∧ e.asid ≠ asid) ∧
  (∀ (s : State) (u l : Nat) (w : Wave) (ln : Lane), s.input = some (.reconvTimeout u l) → s.wave u = some w → w.lane l = some ln →
    ∃ t, exec .reconvTimeout s = .next t ∧
      (∀ wt limit, ln.wait = some wt → wt.kind = .reconv limit → t.lane u l = some { ln with wait := some { wt with status := some 0 } }) ∧
      ((ln.wait = none ∨ ∃ wt, ln.wait = some wt ∧ ∀ limit, wt.kind ≠ .reconv limit) → t.lane u l = some ln) ∧
      ∀ v m, (v ≠ u ∨ m ≠ l) → t.lane v m = s.lane v m) ∧
  (∀ (s : State) (n : Nat), s.input = some (.mfreeExchange n) →
    (s.exchanges[n]? = none → exec .mfreeExchange s = .next s) ∧
    (∀ asid va hdl base k, s.exchanges[n]? = some (asid, va) → s.spaceOf asid = some (hdl, base, k) → va / 2 ^ 16 < base →
      exec .mfreeExchange s = .next { s with exchanges := s.exchanges.eraseIdx n }) ∧
    (∀ asid va hdl base k quad c, s.exchanges[n]? = some (asid, va) → s.spaceOf asid = some (hdl, base, k) → base ≤ va / 2 ^ 16 →
      sget (s.alloc asid).taken (va / 2 ^ 16 - base) = some (quad, c) →
      ∃ t, exec .mfreeExchange s = .next t ∧ t = { s with exchanges := s.exchanges.eraseIdx n, allocs := t.allocs } ∧
        sgetD (t.alloc asid).returned (8 * quad + c) [] = va :: sgetD (s.alloc asid).returned (8 * quad + c) [] ∧
        (t.alloc asid).taken = (s.alloc asid).taken)) ∧
  (∀ (s : State) (index : Nat) (m : PodBarrierMsg), s.input = some (.podBarrierMessage index m) →
    (s.takeFlit (.podBarrier index m) = none → exec .podBarrierMessage s = .next s) ∧
    (∀ s1, s.takeFlit (.podBarrier index m) = some s1 → 4 ≤ index → exec .podBarrierMessage s = .next s1) ∧
    (∀ s1, s.takeFlit (.podBarrier index m) = some s1 → index < 4 →
      let b := s.barrier 5 0 index
      let ends (t : State) : Prop := exec .podBarrierMessage s = .next t
      let told (t : State) : State := t.tellPod index (.state (t.barrier 5 0 index).on (t.barrier 5 0 index).owner (t.barrier 5 0 index).phase)
      (s.heldElsewhere 5 index = false →
        (∀ asid, m = .arrive asid 1 →
          (b.on = true → b.owner = asid → b.arrived + 1 < b.expected → b.dynamic = false →
            ends (s1.setBarrier 5 0 index { b with arrived := b.arrived + 1 })) ∧
          (b.on = false ∨ b.owner ≠ asid → ends s1)) ∧
        (∀ asid count, m = .init asid count →
          (count ≠ 0 → b.on = false → ends (told (s1.setBarrier 5 0 index
            { b with on := true, dynamic := false, expected := count.toNat, arrived := 0, owner := asid }))) ∧
          (count = 0 ∨ (b.on = true ∧ b.owner ≠ asid) → ends s1)) ∧
        (∀ asid, m = .inval asid →
          (b.on = true → b.owner = asid → ∃ t, ends t ∧ (t.barrier 5 0 index).on = false ∧
            (t.barrier 5 0 index).phase = b.phase + 1 ∧ (t.barrier 5 0 index).resetPh = some b.phase ∧
            (1 < s.podsize → (∃ q x y, .flit q x y (.podBarrier index (.state false asid (b.phase + 1))) ∈ t.sent) ∨
              ∃ q, (q, .podBarrier index (.state false asid (b.phase + 1))) ∈ t.waiting)) ∧
          (b.on = false ∨ b.owner ≠ asid → ends s1)) ∧
        (∀ asid phase, m = .waits asid phase →
          (b.on = true → b.owner = asid → b.phase = phase → ends (s1.setBarrier 5 0 index { b with away := b.away + 1 })) ∧
          (b.on = false ∨ b.owner ≠ asid ∨ b.phase ≠ phase → ends s1)) ∧
        (∀ phase status, m = .phaseEnd phase status → ends s1) ∧
        (∀ on asid phase, m = .state on asid phase → ends s1)) ∧
      (s.heldElsewhere 5 index = true →
        (∀ on asid phase, m = .state on asid phase → ends (s1.setBarrier 5 0 index { b with on := on, owner := asid, phase := phase })) ∧
        (∀ phase status, m = .phaseEnd phase status → (b.phase ≠ phase → ends s1) ∧
          (b.phase = phase → ∃ t, ends t ∧ (t.barrier 5 0 index).phase = b.phase + 1 ∧ (t.barrier 5 0 index).arrived = 0))))) ∧
  (∀ (s : State) (u l : Nat) (ln : Lane) (wt : Wait), s.input = some (.cxlTimeout u l) → s.lane u l = some ln → ln.wait = some wt →
    (wt.kind = .cxl → wt.status = none → ∃ t, exec .cxlTimeout s = .next t ∧ t = { s with waves := t.waves, time := t.time } ∧
      t.lane u l = some { ln with wait := some { wt with status := some 3 } } ∧ s.time ≤ t.time ∧ leNat (wt.bytes.take 8) + 4000000 ≤ t.time) ∧
    (wt.kind ≠ .cxl ∨ wt.status ≠ none → exec .cxlTimeout s = .next s))

/-- R25 to R48: the decoder reads every well-formed instruction back from its own word, with every operand; the steps of other
agents have none. -/
def Obligations.EncodingsReadBack : Prop :=
  (∀ i : Instr, Sys2Proof.Laws.RoundTrip.Statement i) ∧
  ∀ i : Instr, encode i = none ↔ ∃ e : Event, e.instr = i

/-- R25 to R48: whatever word the decoder accepts, the instruction it gives is well-formed, and that word is its encoding: no two
words share an instruction, and no reserved or must-be-zero field is ignored. -/
def Obligations.DecodingsAreEncodings : Prop :=
  ∀ (c : Code) (i : Instr), decode1 c = .ok i → WellFormed i = true ∧ encode i = some c

/-- The encodings that the spec's worked examples write out, bit by bit. -/
def Obligations.SampleWords : Prop :=
  decodeTableWord 32 0x20000219 = some (.movi (.b 4) 0x10000) ∧
  decodeTableWord 32 0x00A08327 = some (.ldo (.b 6) (.b 4) .w 2) ∧
  decodeTableWord 32 0x00A08329 = some (.sto (.b 6) (.b 4) .w 2) ∧
  decodeTableWord 32 0x1234421B = some (.movhi (.b 4) 0x91A2) ∧
  decodeTableWord 32 0xB3C08211 = some (.ori (.b 4) (.b 4) 0x1678) ∧
  decodeTableWord 32 0x0A5084B1 = some (.atoma (.b 9) (.b 4) (.b 10) .add .pkg) ∧
  decodeTableWord 32 0xFFFF414B = some (.bnz (.b 2) 0x7FFFA) ∧
  decodeTableWord 32 0x0010E4FF = some (.pfx (PfxFields.mk false false .rtz false (.b 7) (.b 9))) ∧
  decodeTableWord 32 0x06102305 = some (.ffma (.b 6) (.b 1) (.b 2)) ∧
  decodeTableWord 32 0x00080141 = some (.tld 2 1) ∧
  decodeTableWord 32 0x0C2641C5 = some (.kpost (.b 3) (.g 2) (.b 4)) ∧
  decodeTableWord 32 0x00286253 = some (.corerst (.b 4) (.b 3)) ∧
  decodeTableWord 16 0 = some .nop16

/-- R25, R26, R42, R416: a step of a state whose plan is the issue of a group runs the instruction that the bytes at its PC
decode to, on the state in which the group has been selected and its lane has met the instruction, a prefix first; a lane that waits in
an instruction runs that one again, without a fetch (log entry 111). A lane with a store that failed takes that trap instead, and one
that closes its region waits for the answers to its stores (R187). A step whose plan is an event runs that event. The first rounds of a
launch go before everything (R411), a LINK_DEGRADED trap before the agenda, that before all else, and the part's agents and the issue of
instructions take turns (log entry 7). -/
def Obligations.StepRunsDecoded : Prop :=
  (∀ (s : State) (w : Wave) (priv : Bool) (va : Nat) (tg : Target), (s.atDie (w.coreKey / 64)).translate (fetchAcc w.asid priv) va = .ok tg →
    tg.kind = .hbm → localOf tg.pa % 128 ≤ 126 → localOf tg.pa < hostBase → s.poisoned (localOf tg.pa) 2 = false →
    sget (s.core w.coreKey).icache (lineOf (localOf tg.pa)) = none → s.reach (w.coreKey / 64) (s.homeDie (localOf tg.pa)) = true →
    ∃ h t, s.fetchHalf w priv va = .ok (h, t) ∧ h = BitVec.ofNat 16 (leNat (zread s.mem (localOf tg.pa) 2)) ∧
      t = { s with cores := t.cores, tlb := t.tlb, tables := t.tables, dir := t.dir, sent := t.sent, corrected := t.corrected }) ∧
  (∀ (s t : State) (w : Wave) (priv : Bool) (va : Nat) (h : BitVec 16) (f : Fetched), s.fetchHalf w priv va = .ok (h, t) → h.getLsbD 0 = false →
    decode (Code.half h).bytes = .ok (f, []) → s.fetchUnit w priv va = .ok (.ok f, t)) ∧
  (∀ (s t u : State) (w : Wave) (priv : Bool) (va : Nat) (lo hi : BitVec 16) (f : Fetched), s.fetchHalf w priv va = .ok (lo, t) → lo.getLsbD 0 = true →
    t.fetchHalf w priv (va + 2) = .ok (hi, u) → decode (Code.word (hi ++ lo)).bytes = .ok (f, []) → s.fetchUnit w priv va = .ok (.ok f, u)) ∧
  (∀ (s t u : State) (w : Wave) (priv : Bool) (va : Nat) (p : BitVec 32) (c : Code) (f : Fetched), s.fetchCode w priv va = .ok (.word p, t) →
    t.fetchCode w priv (va + 4) = .ok (c, u) → f.pfx.isSome = true → p.getLsbD 0 = true → (∀ h, c = .half h → h.getLsbD 0 = false) →
    (∀ x, c = .word x → x.getLsbD 0 = true) → decode ((Code.word p).bytes ++ c.bytes) = .ok (f, []) → s.fetchUnit w priv va = .ok (.ok f, u)) ∧
  (∀ (s u v : State) (g : Group) (second : Option Nat) (l : Nat) (w : Wave) (ln : Lane) (f : Fetched), s.begin.plan = u.planGroup g second →
    g.lanes = [l] →
    let chosen := u.selectGroup g second
    let come := chosen.modLane g.wave l Lane.arriveAt
    chosen.wave g.wave = some w → w.lane l = some ln → ln.lateHere = none → chosen.fetchRefused w ln = none →
    (g.unit = none ∧ come.fetchUnit w ln.isPriv g.pc.toNat = .ok (.ok f, v)) ∨ (g.unit = some f ∧ v = come) →
    settles f.instr = false ∨ ln.arriveAt.wait ≠ none ∨ v.posted g.wave l none = false → meetTrap ln.bank (.ok f) ln.isPriv = none →
    let met := v.modLane g.wave l (fun x => x.take w f (closes f.instr) (isRegion f.instr))
    let at_ : State := { met.yielding g f [l] with focus := some (Focus.mk g.wave [l] g.pc f.len f.word none) }
    (f.instr ≠ .yield → met.yielding g f [l] = met) ∧
    (f.pfx = none → step s = exec f.instr at_) ∧
    (∀ p x, f.pfx = some (p, x) → step s = (match exec (.pfx p) at_ with
      | .next t => exec f.instr t
      | .fault e => .fault e
      | .refused e => .refused e))) ∧
  (∀ (s u : State) (g : Group) (second : Option Nat) (l : Nat) (w : Wave) (ln : Lane) (e : Late), s.begin.plan = u.planGroup g second →
    g.lanes = [l] → (u.selectGroup g second).wave g.wave = some w → w.lane l = some ln → ln.lateHere = some e →
    step s = .next ((u.selectGroup g second).takeLate g.wave w l ln e)) ∧
  (∀ (s u v : State) (g : Group) (second : Option Nat) (l : Nat) (w : Wave) (ln : Lane) (f : Fetched), s.begin.plan = u.planGroup g second →
    g.lanes = [l] →
    let chosen := u.selectGroup g second
    let come := chosen.modLane g.wave l Lane.arriveAt
    chosen.wave g.wave = some w → w.lane l = some ln → ln.lateHere = none → chosen.fetchRefused w ln = none →
    (g.unit = none ∧ come.fetchUnit w ln.isPriv g.pc.toNat = .ok (.ok f, v)) ∨ (g.unit = some f ∧ v = come) →
    settles f.instr = true → ln.arriveAt.wait = none → v.posted g.wave l none = true →
    step s = .next (v.waitWith g.wave l (.acks none) 2 [])) ∧
  (∀ (s u : State) (e : Event), s.begin.plan = .event e u → step s = exec e.instr { u with input := some e }) ∧
  (∀ (s : State),
    (s.dealing ≠ none → s.plan = .event .blockPlace s) ∧
    (s.dealing = none → s.degradedLane ≠ none → s.plan = .event .linkDegraded s) ∧
    (s.dealing = none → s.degradedLane = none →
      (∀ e rest, s.agenda = .step e :: rest → s.plan = .event e { s with agenda := rest }) ∧
      (∀ d c p rest g, s.agenda = .issue d c p :: rest → ({ s with agenda := rest, slot2 := none } : State).pickPart (12 * coreKey d c + p) = some g →
        s.plan = ({ s with agenda := rest, slot2 := none } : State).planGroup g none) ∧
      (∀ e, s.agenda = [] → s.nextEngine = some e → s.enginesTurn = true → s.plan = .event e s) ∧
      (∀ e, s.agenda = [] → s.enginesTurn = false ∨ s.nextEngine = none → s.due = some e → s.plan = .event e s) ∧
      (∀ e, s.agenda = [] → s.nextEngine = some e → s.due = none → s.pick = none → s.plan = .event e s) ∧
      (∀ g second, s.agenda = [] → (s.enginesTurn = false ∨ s.nextEngine = none) → s.due = none → s.pick = some (g, second) →
        ∃ x, s.plan = ({ s with slot2 := x } : State).planGroup g second)))

/-- Every instruction and step of the table has an effect in every state: the package never stops. -/
def Obligations.EveryStepAnswers : Prop :=
  (∀ (i : Instr) (s : State), ∃ t, exec i s = .next t) ∧ ∀ s : State, ∃ t, step s = .next t

/-- The memory's canonical form, addresses rising and no listed byte zero, is kept by every step, and by every instruction. -/
def Obligations.MemoryStaysCanonical : Prop :=
  (∀ (i : Instr) (s t : State), Memory.wf s.mem = true → exec i s = .next t → Memory.wf t.mem = true) ∧
  ∀ s t : State, Memory.wf s.mem = true → step s = .next t → Memory.wf t.mem = true

/-- R16, R97, R123, R166, R179, R197, R198, R217, R305, R398, R407, R440: what a package reset leaves, where the manual gives it:
nothing runs, translation is off, links and ports at their reset values; the memory of reset is in its canonical form. Names,
contexts, counters and memory contents are the model's choice (log entries 2 to 6, 102). -/
def Obligations.ResetValues : Prop :=
  let s := State.reset
  Sys2Proof.core.reset = s ∧ Memory.wf s.mem = true ∧ s.waves = [] ∧ s.blocks = [] ∧ s.tlb = [] ∧ s.objs = [] ∧ s.pool = [] ∧ s.names = [] ∧
  s.poison = [] ∧ s.dir = [] ∧ s.flows = [] ∧ s.bringup.refused = false ∧
  s.cfg = MemCfg.mk false 0 0 false ∧ s.linkTrapW = 0 ∧
  (∀ i, i < 12 → (s.link i).word 0x00 = 0x12020 ∧ (s.link i).word 0x04 = 0 ∧ (s.link i).word 0x18 = 16) ∧
  (∀ l i x, (2 ≤ l → (s.barrier l i x).on = false)) ∧
  (∀ c i, (s.slot c i).st = .empty) ∧
  s.fabric.word 0x08 = 0x76543210 ∧ s.fabric.word 0x10 = 2000 ∧ s.fabric.word 0x1C = 0 ∧
  s.ethMsgUdp = 19842 ∧ s.ptpLock = false ∧ s.gpReject = 0 ∧
  (∀ q, q < 64 → s.queue q = HostQueue.reset) ∧
  s.bringup.word = 0 ∧ s.bringup.drvaccept = 0 ∧ s.bringup.pwrLimit = 2800 ∧ s.pkgid = 0 ∧ s.podsize = 1 ∧ s.hostgib = 0 ∧ s.infoPage = none
end

