-- ==== Sys2Proof/Laws/Sparse.lean ====
section
/-! SUPPORT. Laws of sparse data: a key set reads as set and leaves every other key, and every operation keeps the canonical
form of a byte memory. -/

namespace Sys2Proof.Machine

variable {β : Type}

/-- A key that was set reads as set. -/
@[simp] theorem sget_sput_same (m : Sparse β) (k : Nat) (v : β) : sget (sput m k v) k = some v := by
  induction m with
  | nil => simp [sput, sget]
  | cons e r ih =>
    obtain ⟨j, w⟩ := e
    simp only [sput]
    split
    · simp [sget]
    · split
      · simp [sget]
      · simp [sget, *]

/-- Setting a key leaves every other one. -/
theorem sget_sput_other (m : Sparse β) {k j : Nat} (v : β) (h : j ≠ k) : sget (sput m k v) j = sget m j := by
  induction m with
  | nil => simp [sput, sget, h]
  | cons e r ih =>
    obtain ⟨i, w⟩ := e
    simp only [sput]
    split
    · simp [sget, h]
    · split
      · next hk => subst hk; simp [sget, h]
      · simp only [sget, ih]

/-- Reading after setting, both cases. -/
theorem sget_sput (m : Sparse β) (k j : Nat) (v : β) : sget (sput m k v) j = if j = k then some v else sget m j := by
  by_cases h : j = k
  · simp [h]
  · simp [h, sget_sput_other]

/-- A key that was removed reads as absent. -/
theorem sget_sdel (m : Sparse β) (k j : Nat) : sget (sdel m k) j = if j = k then none else sget m j := by
  induction m with
  | nil => simp [sdel, sget]
  | cons e r ih =>
    obtain ⟨i, w⟩ := e
    simp only [sdel] at ih
    by_cases hi : i = k
    · subst hi
      simp only [sdel, List.filter, bne_self_eq_false, ih]
      by_cases hj : j = i
      · simp [hj]
      · simp [sget, hj]
    · simp only [sdel, List.filter, bne_iff_ne.mpr hi, sget, ih]
      by_cases hj : j = i
      · subst hj; simp [hi]
      · simp [hj]

/-- Changing a key's value. -/
theorem sget_smod (m : Sparse β) (k j : Nat) (f : β → β) : sget (smod m k f) j = if j = k then (sget m k).map f else sget m j := by
  unfold smod
  split
  · next v h => by_cases hj : j = k <;> simp [hj, h, sget_sput_other]
  · next h => by_cases hj : j = k <;> simp [hj, h]

/-- The values of a list changed by key. -/
theorem sget_map (m : Sparse β) (f : Nat → β → β) (j : Nat) : sget (m.map (fun e => (e.1, f e.1 e.2))) j = (sget m j).map (f j) := by
  induction m with
  | nil => simp [sget]
  | cons e r ih =>
    obtain ⟨i, w⟩ := e
    by_cases hj : j = i
    · subst hj; simp [sget]
    · simp [sget, hj, ih]

/-- Every key of a list is above a bound. -/
def keysAbove (lo : Nat) (m : Sparse β) : Prop := ∀ e ∈ m, lo < e.1

/-- The rising form, one entry at a time. -/
theorem wf_cons (e : Nat × β) (m : Sparse β) : Sparse.wf (e :: m) = true ↔ keysAbove e.1 m ∧ Sparse.wf m = true := by
  induction m generalizing e with
  | nil => simp [Sparse.wf, skeys, rising, keysAbove]
  | cons d r ih =>
    simp only [Sparse.wf, skeys, List.map_cons, rising, Bool.and_eq_true, decide_eq_true_eq] at ih ⊢
    constructor
    · rintro ⟨h1, h2⟩
      refine ⟨?_, h2⟩
      intro x hx
      rcases List.mem_cons.mp hx with rfl | hx
      · exact h1
      · exact Nat.lt_trans h1 (((ih d).mp (by simpa [skeys] using h2)).1 x hx)
    · rintro ⟨h1, h2⟩
      exact ⟨h1 d (List.mem_cons_self ..), h2⟩

/-- Every entry of a set list is the one set or an old one. -/
theorem mem_sput {m : Sparse β} {k : Nat} {v : β} {e : Nat × β} (h : e ∈ sput m k v) : e = (k, v) ∨ e ∈ m := by
  induction m with
  | nil => simpa [sput] using h
  | cons d r ih =>
    obtain ⟨i, w⟩ := d
    simp only [sput] at h
    split at h
    · simpa using h
    · split at h
      · rcases List.mem_cons.mp h with h | h
        · exact .inl h
        · exact .inr (List.mem_cons_of_mem _ h)
      · rcases List.mem_cons.mp h with h | h
        · exact .inr (h ▸ List.mem_cons_self ..)
        · exact (ih h).imp id (List.mem_cons_of_mem _)

/-- Setting a key keeps the rising form. -/
theorem wf_sput {m : Sparse β} (h : m.wf = true) (k : Nat) (v : β) : (sput m k v).wf = true := by
  induction m with
  | nil => simp [sput, Sparse.wf, skeys, rising]
  | cons e r ih =>
    obtain ⟨i, w⟩ := e
    have hc := (wf_cons _ _).mp h
    simp only [sput]
    split
    · next hk =>
      refine (wf_cons _ _).mpr ⟨?_, h⟩
      intro x hx
      rcases List.mem_cons.mp hx with rfl | hx
      · exact hk
      · exact Nat.lt_trans hk (hc.1 x hx)
    · split
      · next hk => subst hk; exact (wf_cons _ _).mpr ⟨hc.1, hc.2⟩
      · next h1 h2 =>
        refine (wf_cons _ _).mpr ⟨?_, ih hc.2⟩
        intro x hx
        rcases mem_sput hx with rfl | hx
        · simp; omega
        · exact hc.1 x hx

/-- A filtered list keeps the rising form. -/
theorem wf_filter {m : Sparse β} (h : m.wf = true) (p : Nat × β → Bool) : Sparse.wf (m.filter p) = true := by
  induction m with
  | nil => simp [Sparse.wf, skeys, rising]
  | cons e r ih =>
    have hc := (wf_cons _ _).mp h
    simp only [List.filter]
    split
    · refine (wf_cons _ _).mpr ⟨?_, ih hc.2⟩
      intro x hx
      exact hc.1 x (List.mem_filter.mp hx).1
    · exact ih hc.2

/-- Removing a key keeps the rising form. -/
theorem wf_sdel {m : Sparse β} (h : m.wf = true) (k : Nat) : (sdel m k).wf = true := wf_filter h _

/-- A byte put keeps the canonical form. -/
theorem zwf_zput {m : Sparse Byte} (h : zwf m = true) (k : Nat) (v : Byte) : zwf (zput m k v) = true := by
  simp only [zwf, Bool.and_eq_true, List.all_eq_true] at h ⊢
  unfold zput
  split
  · exact ⟨wf_sdel h.1 k, fun e he => h.2 e (List.mem_filter.mp he).1⟩
  · next hv =>
    refine ⟨wf_sput h.1 k v, fun e he => ?_⟩
    rcases mem_sput he with rfl | he
    · simpa using hv
    · exact h.2 e he

/-- Bytes stored keep the canonical form. -/
theorem zwf_zwrite {m : Sparse Byte} (h : zwf m = true) (a : Nat) (bs : List Byte) : zwf (zwrite m a bs) = true := by
  induction bs generalizing m a with
  | nil => exact h
  | cons b r ih => exact ih (zwf_zput h a b) (a + 1)

/-- A filtered byte memory keeps the canonical form. -/
theorem zwf_filter {m : Sparse Byte} (h : zwf m = true) (p : Nat × Byte → Bool) : zwf (m.filter p) = true := by
  simp only [zwf, Bool.and_eq_true, List.all_eq_true] at h ⊢
  exact ⟨wf_filter h.1 p, fun e he => h.2 e (List.mem_filter.mp he).1⟩

/-- A byte read after a byte put. -/
theorem zget_zput (m : Sparse Byte) (k j : Nat) (v : Byte) : zget (zput m k v) j = if j = k then v else zget m j := by
  unfold zget sgetD zput
  split
  · next hv => rw [sget_sdel]; split <;> simp_all
  · rw [sget_sput]; split <;> simp_all

/-- A byte read after bytes stored: one of them, or what it was. -/
theorem zget_zwrite (m : Sparse Byte) (a : Nat) (bs : List Byte) (j : Nat) :
    zget (zwrite m a bs) j = if a ≤ j ∧ j < a + bs.length then bs.getD (j - a) 0 else zget m j := by
  induction bs generalizing m a with
  | nil =>
    have h : ¬(a ≤ j ∧ j < a + 0) := by omega
    rw [List.length_nil, if_neg h]
    rfl
  | cons b r ih =>
    simp only [zwrite, ih, zget_zput, List.length_cons]
    by_cases h1 : j = a
    · subst h1
      rw [if_neg (by omega), if_pos rfl, if_pos (by omega), Nat.sub_self]
      rfl
    · by_cases h2 : a + 1 ≤ j ∧ j < a + 1 + r.length
      · have h3 : j - a = (j - (a + 1)) + 1 := by omega
        rw [if_pos h2, if_pos (by omega), h3]
        rfl
      · rw [if_neg h2, if_neg h1, if_neg (by omega)]

/-- Bytes read where they were stored. -/
theorem zread_zwrite_same (m : Sparse Byte) (a : Nat) (bs : List Byte) : zread (zwrite m a bs) a bs.length = bs := by
  unfold zread
  apply List.ext_getElem
  · simp
  · intro i h1 h2
    simp only [List.length_map, List.length_range] at h1
    simp [zget_zwrite, h1]

/-- Bytes read outside what was stored. -/
theorem zread_zwrite_apart (m : Sparse Byte) (a : Nat) (bs : List Byte) (c n : Nat) (h : c + n ≤ a ∨ a + bs.length ≤ c) :
    zread (zwrite m a bs) c n = zread m c n := by
  unfold zread
  apply List.map_congr_left
  intro i hi
  have := List.mem_range.mp hi
  rw [zget_zwrite, if_neg (by omega)]

/-- The number of n bytes stays below 256^n. -/
theorem leNat_lt (bs : List Byte) : leNat bs < 256 ^ bs.length := by
  induction bs with
  | nil => simp [leNat]
  | cons b r ih =>
    have := b.isLt
    simp only [leNat, List.length_cons, Nat.pow_succ]
    omega

/-- The bytes of a number are as many as asked for. -/
@[simp] theorem natLe_length (n v : Nat) : (natLe n v).length = n := by
  induction n generalizing v with
  | zero => rfl
  | succ n ih => simp [natLe, ih]

/-- Bytes to number and back. -/
theorem leNat_natLe (n v : Nat) : leNat (natLe n v) = v % 256 ^ n := by
  induction n generalizing v with
  | zero => simp [natLe, leNat, Nat.mod_one]
  | succ n ih =>
    have h8 : (BitVec.ofNat 8 v).toNat = v % 256 := by simp
    rw [natLe, leNat, ih, h8, Nat.pow_succ, Nat.mul_comm (256 ^ n) 256, Nat.mod_mul]

/-- Number to bytes and back. -/
theorem natLe_leNat (bs : List Byte) : natLe bs.length (leNat bs) = bs := by
  induction bs with
  | nil => rfl
  | cons b r ih =>
    have hb := b.isLt
    simp only [List.length_cons, natLe, leNat]
    have h1 : (b.toNat + 256 * leNat r) / 256 = leNat r := by omega
    have h2 : BitVec.ofNat 8 (b.toNat + 256 * leNat r) = b := by
      apply BitVec.eq_of_toNat_eq
      simp; omega
    rw [h1, h2, ih]

end Sys2Proof.Machine
end

