-- ==== Sys2Proof/Laws/Cache.lean ====
section
/-! SUPPORT. What a lane's read gives where private sectors fill the core's L1, so that a miss keeps nothing (R114, R115): the home's
bytes, whichever block the predictor would fill. -/

namespace Sys2Proof.Machine

/-- Where a read leaves everything as it is: an L1 that its private sectors fill, a line that the step's agent has and that holds no
error, a page whose translation is cached. -/
structure State.Settled (s : State) (core : Nat) (a : Acc) (la : Nat) (t : Target) : Prop where
  full : l1Sectors ≤ s.privSectors core
  listed : ∃ c, s.cores = [(core, c)] ∧ c.l1 = []
  held : ∃ d, sget s.dir (lineOf la) = some d ∧ bitOf d.present s.agent = true
  known : ∀ p, t.page = some p → s.tlb.contains (TlbEntry.mk a.asid p) = true
  sound : s.poison = [] ∧ s.ecc = []

theorem zread_append (m : Sparse Byte) (a c n : Nat) : zread m a c ++ zread m (a + c) n = zread m a (c + n) := by
  simp [zread, List.range_add, List.map_append, Nat.add_assoc]

theorem zread_length (m : Sparse Byte) (a n : Nat) : (zread m a n).length = n := by simp [zread]

theorem sput_length_le {β : Type} (m : Sparse β) (k : Nat) (v : β) : (sput m k v).length ≤ m.length + 1 := by
  induction m with
  | nil => simp [sput]
  | cons e r ih => simp only [sput]; repeat' split
                   all_goals simp; try omega

/-- A block filled holds at most its own sectors more. -/
theorem fill_length (home : Nat → List Byte) (block : List Nat) : ∀ c : CoreState, (c.fill home block).length ≤ c.l1.length + block.length := by
  induction block with
  | nil => exact fun c => Nat.le_refl _
  | cons b r ih =>
    intro c
    have h := ih { c with l1 := if (sget c.l1 b).isSome then c.l1 else sput c.l1 b (home (16 * b)) }
    have h1 := sput_length_le c.l1 b (home (16 * b))
    simp only [CoreState.fill, List.foldl_cons, List.length_cons] at h ⊢
    split at h <;> simp_all <;> omega

/-- An L1 without room gives up as many copies as a block may have. -/
theorem fitL1_none (ctr k : Nat) : ∀ {xs : Sparse (List Byte)}, xs.length ≤ k → fitL1 ctr 0 xs k = [] := by
  induction k with
  | zero => intro xs h; simpa [fitL1] using h
  | succ k ih =>
    intro xs h
    unfold fitL1
    split
    · next h0 => simpa using h0
    · next h0 =>
      refine ih ?_
      rw [List.length_eraseIdx_of_lt (Nat.mod_lt _ (by omega))]
      omega

theorem blockOf_length (ctr la : Nat) : (blockOf ctr la).length ≤ 8 := by
  simp only [blockOf, List.length_map, List.length_range]
  exact Nat.pow_le_pow_right (by omega) (show _ ≤ 3 by omega)

/-- A miss leaves such a state as it is. -/
theorem loadSector_settled {s : State} {core la n : Nat} {a : Acc} {t : Target} (h : s.Settled core a la t) :
    s.loadSector core la n true = (some (zread s.mem la n), s) := by
  obtain ⟨full, ⟨c, hc, h0⟩, ⟨d, hd, hb⟩, -, hp, he⟩ := h
  have hcore : s.core core = c := by simp [State.core, sgetD, hc, sget]
  have hr : s.receive la = s := by simp [State.receive, State.receiveBy, hd, hb]
  have hs : s.l1Serves core la n = none := by simp [State.l1Serves, hcore, h0, sget]
  have hn : s.poisoned la n = false := by simp [State.poisoned, State.badLine, State.latent, hp, he]
  have hf : s.fillL1 core la = s := by
    unfold State.fillL1
    rw [hr]
    have hz : l1Sectors - s.privSectors core = 0 := by omega
    simp only [State.modCore, hcore, h0, hz, sdel, List.filter_nil]
    rw [fitL1_none]
    · rw [hc]
      simp only [sput, Nat.lt_irrefl, if_false, if_true]
      rw [show ({ c with l1 := [] } : CoreState) = c by rw [← h0], ← hc]
    · have h1 := fill_length (fun x => s.home x 16) (blockOf s.freeCtr la) { c with l1 := [] }
      have h2 := blockOf_length s.freeCtr la
      simp only [List.length_nil] at h1
      omega
  simp [State.loadSector, hs, hn, hf, State.home]

/-- The same of a read across the sectors of one line. -/
theorem loadSectors_settled {s : State} {core : Nat} {a : Acc} {t : Target} (k : Nat) : ∀ {la n : Nat}, s.Settled core a la t →
    la % 128 + n ≤ 128 → n ≤ 16 * k - la % 16 → s.loadSectors core la n true k = (some (zread s.mem la n), s) := by
  induction k with
  | zero =>
    intro la n _ _ hk
    obtain rfl : n = 0 := by omega
    simp [State.loadSectors, zread]
  | succ k ih =>
    intro la n h hl hk
    unfold State.loadSectors
    by_cases h0 : n = 0
    · subst h0; simp [zread]
    · simp only [h0, if_false, loadSector_settled h]
      by_cases h1 : n ≤ 16 - la % 16
      · rw [show min n (16 - la % 16) = n by omega, Nat.sub_self]
        cases k <;> simp [State.loadSectors]
      · rw [show min n (16 - la % 16) = 16 - la % 16 by omega]
        have h2 : s.Settled core a (la + (16 - la % 16)) t :=
          { h with held := by rw [show lineOf (la + (16 - la % 16)) = lineOf la by unfold lineOf; omega]; exact h.held }
        rw [ih h2 (by omega) (by omega)]
        simp only
        rw [zread_append, show 16 - la % 16 + (n - (16 - la % 16)) = n by omega]

/-- A lane's read within a line of HBM in such a state. -/
theorem laneRead_settled {s : State} {core va n la : Nat} {a : Acc} {t : Target} (h : s.Settled core a la t) (ht : s.translate a va = .ok t) (hk : t.kind = .hbm)
    (hr : s.reachable t = true) (hl : localOf t.pa = la) (hv : la % 128 = va % 128) (hm : la < hbmEnd) (hn : 0 < n) (hf : va % 128 + n ≤ 128) :
    s.laneRead core a va n [] = .ok (zread s.mem la n, [], s) := by
  have hh : s.hostFault la = none := by
    have : la < hostBase := Nat.lt_trans hm (by decide)
    simp [State.hostFault, this]
  have key : s.loadL1 core la n true = (some (zread s.mem la n), s) := by
    unfold State.loadL1
    split
    · exact loadSector_settled h
    · exact loadSectors_settled 9 h (by omega) (by omega)
  have ht1 : s.noteTlb a.asid t = s := by
    unfold State.noteTlb
    split
    · rfl
    · next p hp => exact if_pos (h.known p hp)
  have h1 : s.laneReadChunk core a va n [] = .ok (zread s.mem la n, [], s) := by
    unfold State.laneReadChunk
    simp only [ht, hk, hr, hl, Bool.not_true, Bool.and_false, Bool.false_eq_true, if_false, State.loadCached, hh, key, ht1]
  have h2 : chunkOf va n = n := by unfold chunkOf; omega
  unfold State.laneRead State.laneReadLines
  simp only [show ¬ n = 0 by omega, if_false, h2, h1, Nat.sub_self]
  have h3 : ∀ k, s.laneReadLines core a (va + n) 0 [] k = .ok ([], [], s) := by
    intro k; cases k <;> simp [State.laneReadLines]
  simp [h3]

end Sys2Proof.Machine
end

