-- ==== Sys2Proof/Laws/Engine.lean ====
section
/-! SUPPORT. What the step of an engine can do (R112, R186), and what the L2s do for an access to memory. -/

namespace Sys2Proof.Machine

/-- A quiet engine has no request of its own outstanding. -/
theorem quiet_any {s : State} {c : Client} (h : s.quiet c) : s.fabric.out.any (fun e => e.2.client == some c) = false := by
  simpa [State.quiet] using h

/-- A quiet engine whose step is through leaves its answers used up. -/
theorem engine_ok {s t : State} {c : Client} {wave asid agent : Nat} {f : State → List Byte → Except Trap State} (h : s.quiet c)
    (e : f (s.asEngine c agent) (s.fabric.answersOf c).bytes = .ok t) : s.engine c wave asid agent f = some (s.engineDone c t) := by
  unfold State.asEngine at e
  simp [State.engine, quiet_any h, e, State.engineDone]

/-- An agent that gives a line up changes the directory and what has been sent. -/
theorem evict_rest (s : State) (a l : Nat) : s.evict a l = { s with dir := (s.evict a l).dir, sent := (s.evict a l).sent } := by
  unfold State.evict
  repeat' split
  all_goals rfl

theorem makeRoom_rest (s : State) (a : Nat) : s.makeRoom a = { s with dir := (s.makeRoom a).dir, sent := (s.makeRoom a).sent } := by
  unfold State.makeRoom
  dsimp only
  repeat' split
  all_goals first | rfl | exact evict_rest ..

theorem listLine_rest (s : State) (a l : Nat) (d : DirLine) :
    s.listLine a l d = { s with dir := (s.listLine a l d).dir, sent := (s.listLine a l d).sent } := by
  unfold State.listLine
  dsimp only
  split
  · split
    · rfl
    · conv => lhs; rw [makeRoom_rest]
  · conv => lhs; rw [makeRoom_rest]
    rfl

/-- A line received to be written changes the directory and what has been sent. -/
theorem ownBy_rest (s : State) (a l : Nat) : s.ownBy a l = { s with dir := (s.ownBy a l).dir, sent := (s.ownBy a l).sent } :=
  listLine_rest ..

/-- A read of a line's cells changes the count of corrected errors alone. -/
theorem readCells_rest (s : State) (l : Nat) : ∃ c, s.readCells l = { s with corrected := c } := by
  unfold State.readCells
  split
  · exact ⟨_, rfl⟩
  · exact ⟨s.corrected, rfl⟩

/-- The directory's part of a line's change, with the count of corrected errors. -/
theorem listLine_counted (s : State) (c a l : Nat) (d : DirLine) : ({ s with corrected := c } : State).listLine a l d =
    { s with dir := (({ s with corrected := c } : State).listLine a l d).dir, sent := (({ s with corrected := c } : State).listLine a l d).sent,
             corrected := (({ s with corrected := c } : State).listLine a l d).corrected } := by
  have e := listLine_rest { s with corrected := c } a l d
  have h : (({ s with corrected := c } : State).listLine a l d).corrected = c := by rw [e]
  rw [h]
  exact e

/-- A line received to be read changes the directory, what has been sent, and the count of corrected errors. -/
theorem receiveBy_rest (s : State) (a l : Nat) : s.receiveBy a l =
    { s with dir := (s.receiveBy a l).dir, sent := (s.receiveBy a l).sent, corrected := (s.receiveBy a l).corrected } := by
  unfold State.receiveBy
  repeat' split
  · obtain ⟨c, h⟩ := readCells_rest s l
    rw [h]
    exact listLine_counted ..
  · rfl
  all_goals exact listLine_counted s s.corrected a l _

/-- A store at a home changes memory, the directory, what has been sent, and the count of corrected errors. -/
theorem storeAs_rest (s : State) (agent la : Nat) (bs : List Byte) : s.storeAs agent la bs =
    { s with mem := zwrite s.mem la bs, dir := (s.storeAs agent la bs).dir, sent := (s.storeAs agent la bs).sent,
             corrected := (s.storeAs agent la bs).corrected } := by
  have key (c : Nat) (t : State) (h : t = { s with corrected := c }) : { t.ownBy agent (lineOf la) with mem := zwrite s.mem la bs } =
      { s with mem := zwrite s.mem la bs, dir := (t.ownBy agent (lineOf la)).dir, sent := (t.ownBy agent (lineOf la)).sent,
               corrected := (t.ownBy agent (lineOf la)).corrected } := by
    subst h
    unfold State.ownBy
    conv => lhs; rw [listLine_counted]
  unfold State.storeAs
  dsimp only
  split
  · obtain ⟨c, h⟩ := readCells_rest s (lineOf la)
    exact key c _ h
  · exact key s.corrected s rfl

end Sys2Proof.Machine
end

