-- ==== Sys2Proof/Laws/Memory.lean ====
section
/-! SUPPORT. Every operation on the memory keeps its canonical form: stores at the home, engines' writes line by line, what a package
reset leaves, and the loading of code. -/

namespace Sys2Proof.Machine

theorem wf_zwrite {m : List Host.Cell} (h : Memory.wf m = true) (a : Nat) (bs : List Byte) : Memory.wf (zwrite m a bs) = true := zwf_zwrite h a bs

theorem wf_reset : Memory.wf State.reset.mem = true := rfl

/-- A store at the home changes, of the memory, the bytes stored alone. -/
@[simp] theorem mem_storeAs (s : State) (agent la : Nat) (bs : List Byte) : (s.storeAs agent la bs).mem = zwrite s.mem la bs := rfl

theorem mem_storeHome (s : State) (la : Nat) (bs : List Byte) : (s.storeHome la bs).mem = zwrite s.mem la bs := rfl

theorem wf_storeHome {s : State} (h : Memory.wf s.mem = true) (la : Nat) (bs : List Byte) : Memory.wf (s.storeHome la bs).mem = true := by
  rw [mem_storeHome]
  exact wf_zwrite h la bs

@[simp] theorem mem_receiveBy (s : State) (a l : Nat) : (s.receiveBy a l).mem = s.mem := by rw [receiveBy_rest]

/-- Lines received one after another leave the memory as it is. -/
theorem mem_receives (f : State → Nat) (ls : List Nat) : ∀ s : State, (ls.foldl (fun u n => u.receiveBy (f s) n) s).mem = s.mem := by
  intro s
  generalize f s = a
  induction ls generalizing s with
  | nil => rfl
  | cons n rest ih => rw [List.foldl_cons, ih, mem_receiveBy]

@[simp] theorem mem_noteTlb (s : State) (asid : Nat) (t : Target) : (s.noteTlb asid t).mem = s.mem := by
  unfold State.noteTlb
  repeat' split
  · rfl
  · rfl
  · exact mem_receives (fun _ => s.agent) _ _

@[simp] theorem mem_patchL1 (s : State) (core la : Nat) (bs : List Byte) : (s.patchL1 core la bs).mem = s.mem := rfl

@[simp] theorem mem_dropL1 (s : State) (core : Nat) : (s.dropL1 core).mem = s.mem := by
  unfold State.dropL1
  split <;> rfl

/-- A store of whoever runs changes, of the memory, the bytes stored alone. -/
theorem mem_storeRun (s : State) (la : Nat) (bs : List Byte) : (s.storeRun la bs).mem = zwrite s.mem la bs := by
  unfold State.storeRun
  split <;> rfl

/-- A write at its home keeps the form. -/
theorem wf_writeAt {s : State} {va la : Nat} {bs : List Byte} {r : Word × State} (h : Memory.wf s.mem = true) (e : s.writeAt va bs la = .ok r) :
    Memory.wf r.2.mem = true := by
  unfold State.writeAt at e
  split at e
  · cases e
    rw [mem_storeRun]
    exact wf_zwrite h la bs
  · split at e
    · cases e
    · cases e
      rw [mem_storeRun]
      exact wf_zwrite h la bs

/-- What an answer of another package leaves of the memory: all of it. -/
theorem mem_remoteOp {s : State} {a : Acc} {va n : Nat} {t : Target} {op : HomeOp} {data : List Byte} {x : Word} {r : Word × State}
    (e : s.remoteOp a va t n op data x = .ok r) : r.2.mem = s.mem := by
  unfold State.remoteOp State.takeAck at e
  revert e
  cases s.run.acks <;> intro e <;> cases e
  rfl

/-- An operation of the part keeps a property of the memory that what it does at its home keeps. -/
theorem engOp_mem {s : State} {a : Acc} {va n : Nat} {op : HomeOp} {data : List Byte} {f : State → Nat → Except Trap (Word × State)} {r : Word × State}
    (h : Memory.wf s.mem = true) (hf : ∀ {t : State} {la : Nat} {q : Word × State}, Memory.wf t.mem = true → f t la = .ok q → Memory.wf q.2.mem = true)
    (e : s.engOp a va n op data f = .ok r) : Memory.wf r.2.mem = true := by
  unfold State.engOp at e
  have note (t : Target) : Memory.wf (s.noteTlb a.asid t).mem = true := by rw [mem_noteTlb]; exact h
  split at e
  · cases e
  · rename_i t _
    split at e
    · split at e
      · cases e
      · split at e
        · cases e
        · exact hf (note t) e
    · split at e
      · cases e
      · split at e
        · cases e
        · exact hf (note t) e
    · rw [mem_remoteOp e]
      exact note t
    · cases e
    · split at e
      · cases e
      · split at e
        · cases e
        · split at e
          · cases e
          · cases e
            exact note t

theorem wf_engWriteChunk {s s1 : State} {a : Acc} {va : Nat} {bs : List Byte} (h : Memory.wf s.mem = true) (e : s.engWriteChunk a va bs = .ok s1) :
    Memory.wf s1.mem = true := by
  unfold State.engWriteChunk at e
  split at e
  · cases e
  · rename_i r hr
    cases e
    exact engOp_mem h (fun ht hq => wf_writeAt ht hq) hr

theorem wf_engWriteLines (a : Acc) (k : Nat) : ∀ {s : State} {va : Nat} {bs : List Byte}, Memory.wf s.mem = true → Memory.wf (s.engWriteLines a va bs k).1.mem = true := by
  induction k with
  | zero => intro s va bs h; exact h
  | succ k ih =>
    intro s va bs h
    unfold State.engWriteLines
    split
    · exact h
    · dsimp only
      split
      · exact h
      · rename_i s1 e
        exact ih (wf_engWriteChunk h e)

/-- An engine's write keeps the form, whatever it reaches before a fault. -/
theorem wf_engWrite {s : State} (h : Memory.wf s.mem = true) (a : Acc) (va : Nat) (bs : List Byte) : Memory.wf (s.engWrite a va bs).1.mem = true :=
  wf_engWriteLines a _ h

theorem wf_foldWrites (es : Sparse DirLine) : ∀ {m : List Host.Cell}, Memory.wf m = true → Memory.wf (es.foldl (fun m e => zwrite m (128 * e.1) e.2.back) m) = true := by
  induction es with
  | nil => intro m h; exact h
  | cons e r ih => intro m h; exact ih (wf_zwrite h _ _)

theorem wf_packageReset {s : State} (h : Memory.wf s.mem = true) : Memory.wf s.packageReset.mem = true :=
  wf_foldWrites _ (zwf_filter h _)

theorem wf_patchCode {s : State} (h : Memory.wf s.mem = true) (la : Nat) (bs : List Byte) : Memory.wf (s.patchCode la bs).mem = true := wf_zwrite h la bs

theorem wf_loadCode {s : State} (h : Memory.wf s.mem = true) (bs : List Byte) : Memory.wf (s.loadCode bs).mem = true :=
  by
  unfold State.loadCode
  dsimp only
  repeat apply wf_zwrite
  exact h

theorem wf_withFetchWord {s : State} (h : Memory.wf s.mem = true) (nbits w : Nat) : Memory.wf (s.withFetchWord nbits w).mem = true := by
  unfold State.withFetchWord
  split
  · split
    · exact wf_patchCode h _ _
    · exact wf_loadCode h _
  · exact wf_loadCode h _

end Sys2Proof.Machine
end

