-- ==== Sys2Proof/Laws/Run.lean ====
section
/-! SUPPORT. Laws of the operations over lanes: reading a wave or lane after one has changed, and what an issue group does
whose lanes change nothing but themselves and g registers. -/

namespace Sys2Proof.Machine

@[simp] theorem wave_setWave_same (s : State) (u : Nat) (w : Wave) : (s.setWave u w).wave u = some w := by
  simp [State.setWave, State.wave]

theorem wave_setWave_other (s : State) {u v : Nat} (w : Wave) (h : v ≠ u) : (s.setWave u w).wave v = s.wave v := by
  simp [State.setWave, State.wave, sget_sput_other, h]

theorem wave_modWave (s : State) (u v : Nat) (f : Wave → Wave) :
    (s.modWave u f).wave v = if v = u then (s.wave u).map f else s.wave v := by
  simp [State.modWave, State.wave, sget_smod]

theorem lane_setLane (w : Wave) (l j : Nat) (ln : Lane) : (w.setLane l ln).lane j = if j = l then some ln else w.lane j := by
  simp [Wave.setLane, Wave.lane, sget_sput]

theorem wave_modLane (s : State) (u v l : Nat) (f : Lane → Lane) :
    (s.modLane u l f).wave v =
      if v = u then (s.wave u).map (fun w => { w with lanes := smod w.lanes l f }) else s.wave v := by
  simp [State.modLane, wave_modWave]

/-- Only the waves change when a wave does. -/
theorem modWave_rest (s : State) (u : Nat) (f : Wave → Wave) : s.modWave u f = { s with waves := (s.modWave u f).waves } := rfl

theorem modLane_rest (s : State) (u l : Nat) (f : Lane → Lane) : s.modLane u l f = { s with waves := (s.modLane u l f).waves } := rfl

@[simp] theorem setG_lanes (w : Wave) (r : Nat) (ws : List Word) : (w.setG r ws).lanes = w.lanes := by
  induction ws generalizing w r with
  | nil => rfl
  | cons v rest ih => simp [Wave.setG, ih]

theorem setG_rest (w : Wave) (r : Nat) (ws : List Word) : w.setG r ws = { w with g := (w.setG r ws).g, gWait := (w.setG r ws).gWait } := by
  induction ws generalizing w r with
  | nil => rfl
  | cons v rest ih => rw [Wave.setG, ih]

/-- Nothing written overtakes nothing. -/
@[simp] theorem overBy_none (es : List GWait) : overBy (fun _ => false) es = es := by
  have h (e : GWait) : ({ e with beaten := e.beaten || e.regs.any (fun _ => false) } : GWait) = e := by
    rw [show e.regs.any (fun _ => false) = false by simp, Bool.or_false]
  simp only [overBy, h, List.map_id']

theorem greg_setG_one (w : Wave) (r j : Nat) (v : Word) : (w.setG r [v]).greg j = if j = r then v else w.greg j := by
  simp only [Wave.setG, Wave.greg, sgetD, sget_sput]
  split <;> simp_all

/-- A lane's end that concerns only itself and g registers: the lane it leaves, and what it writes to g. -/
inductive LocalOut (fo : Focus) (ln : Lane) : Out → Lane → Option (Nat × Word) → Prop where
  | none (fl : Flags) : LocalOut fo ln (.done none [] fl) ((ln.advance fo.next).raise fl) none
  | done (d : Opd) (v : Word) (fl : Flags) :
    LocalOut fo ln (.done (some d) [v] fl) (ln.wrote fo.next d [v] fl) (match d with | .g r => some (r.toNat, v) | _ => none)
  | masked (d : Opd) (v : Word) : LocalOut fo ln (.masked d v) (ln.wrote fo.next d [v] 0) none
  | jump (pc : VA) (expect : Nat) :
    LocalOut fo ln (.jump pc expect) ((ln.advance pc).setBank { (ln.advance pc).bank with expect := expect }) none
  | shared (idx : Nat) (v : Word) : LocalOut fo ln (.shared false idx v) (ln.advance fo.next) (some (idx, v))

/-- g registers with a write, if there is one. -/
def gWith (m : Sparse Word) (g : Option (Nat × Word)) : Sparse Word := match g with | some (r, v) => sput m r v | none => m

/-- What a write gives a g register, if it is of it. -/
def gTo (g : Option (Nat × Word)) (r : Nat) : Option Word := match g with | some (q, v) => if r = q then some v else none | none => none

theorem gTo_isSome (r : Nat) (v : Word) : (fun q => (gTo (some (r, v)) q).isSome) = fun q => q == r := by
  funext q
  by_cases h : q = r <;> simp [gTo, h]

/-- Where a group stands in its fold: the lanes done, the wave as it is now, and the first g write. -/
structure Midway (s : State) (fo : Focus) (w : Wave) (F : Nat → Lane → Lane) (acc : State × Bool) (done : List Nat)
    (g : Option (Nat × Word)) : Prop where
  rest : acc.1 = { s with waves := acc.1.waves }
  others : ∀ u, u ≠ fo.wave → acc.1.wave u = s.wave u
  flag : acc.2 = g.isSome
  wave : ∃ w', acc.1.wave fo.wave = some w' ∧ w' = { w with lanes := w'.lanes, g := w'.g, gWait := overBy (fun r => (gTo g r).isSome) w.gWait } ∧
    (∀ l, w'.lane l = if l ∈ done then (w.lane l).map (F l) else w.lane l) ∧
    w'.g = gWith w.g g

@[simp] theorem raise_zero (ln : Lane) : ln.raise 0 = ln := by simp [Lane.raise]

@[simp] theorem setG_one_g (w : Wave) (r : Nat) (v : Word) : (w.setG r [v]).g = sput w.g r v := rfl

/-- A lane changed by name, with g registers perhaps, keeps Midway. -/
theorem Midway.lane {s : State} {fo : Focus} {w : Wave} {F : Nat → Lane → Lane} {acc : State × Bool} {done : List Nat}
    {g : Option (Nat × Word)} (h : Midway s fo w F acc done g) (l : Nat) (ln : Lane) (hl : w.lane l = some ln) (hn : l ∉ done)
    (f : Lane → Lane) (hf : f ln = F l ln) (x : Option (Nat × Word)) :
    Midway s fo w F
      (match x with
        | none => (acc.1.modLane fo.wave l f, acc.2)
        | some (r, v) => (if acc.2 then acc.1.modLane fo.wave l f else (acc.1.modLane fo.wave l f).modWave fo.wave (fun w => w.setG r [v]), true))
      (done ++ [l]) (match g with | some y => some y | none => x) := by
  obtain ⟨w', hw, hr, hlan, hg⟩ := h.wave
  have hl' : w'.lane l = some ln := by rw [hlan, if_neg hn, hl]
  have key : ∀ j, Wave.lane { w' with lanes := smod w'.lanes l f } j = if j ∈ done ++ [l] then (w.lane j).map (F j) else w.lane j := by
    intro j
    have : Wave.lane { w' with lanes := smod w'.lanes l f } j = if j = l then (w'.lane l).map f else w'.lane j := by
      simp [Wave.lane, sget_smod]
    rw [this]
    by_cases hj : j = l
    · subst hj; simp [hl', hl, hf]
    · simp [hj, hlan]
  have hmod : (acc.1.modLane fo.wave l f).wave fo.wave = some { w' with lanes := smod w'.lanes l f } := by
    simp [wave_modLane, hw]
  cases x with
  | none =>
    refine ⟨?_, ?_, ?_, ?_⟩
    · simp only; rw [modLane_rest, h.rest]
    · intro u hu; simp [wave_modLane, hu, h.others u hu]
    · cases g <;> simp [h.flag]
    · refine ⟨_, hmod, ?_, key, ?_⟩
      · rw [hr]; cases g <;> rfl
      · cases g <;> exact hg
  | some p =>
    obtain ⟨r, v⟩ := p
    cases hga : acc.2 with
    | true =>
      have hs : g.isSome = true := by rw [← h.flag, hga]
      obtain ⟨y, rfl⟩ := Option.isSome_iff_exists.mp hs
      refine ⟨?_, ?_, ?_, ?_⟩
      · simp only [if_true]; rw [modLane_rest, h.rest]
      · intro u hu; simp [wave_modLane, hu, h.others u hu]
      · simp
      · exact ⟨_, by simpa using hmod, by rw [hr], key, hg⟩
    | false =>
      have hs : g = none := by
        have hf : false = g.isSome := hga.symm.trans h.flag
        cases g with
        | none => rfl
        | some y => exact absurd hf (by simp)
      subst hs
      refine ⟨?_, ?_, ?_, ?_⟩
      · simp only [Bool.false_eq_true, if_false]; rw [modWave_rest, modLane_rest, h.rest]
      · intro u hu
        simp only [Bool.false_eq_true, if_false]
        rw [wave_modWave, if_neg hu, wave_modLane, if_neg hu, h.others u hu]
      · simp
      · refine ⟨({ w' with lanes := smod w'.lanes l f } : Wave).setG r [v], by simp [wave_modWave, hmod], ?_, ?_, ?_⟩
        · rw [setG_rest]; rw [hr, gTo_isSome]; simp [Wave.setG, gTo]
        · intro j; rw [← key j]; simp [Wave.lane]
        · simp only [setG_one_g, hg]; rfl

/-- One lane with a local end keeps Midway. -/
theorem Midway.out {s : State} {fo : Focus} {w : Wave} {F : Nat → Lane → Lane} {acc : State × Bool} {done : List Nat}
    {g : Option (Nat × Word)} (h : Midway s fo w F acc done g) (l : Nat) (ln : Lane) (hl : w.lane l = some ln) (hn : l ∉ done)
    {o : Out} {x : Option (Nat × Word)} (ho : LocalOut fo ln o (F l ln) x) :
    Midway s fo w F (applyOut acc.1 fo l acc.2 o) (done ++ [l]) (match g with | some y => some y | none => x) := by
  generalize hF : F l ln = r at ho
  cases ho with
  | none fl => exact h.lane l ln hl hn _ hF.symm none
  | done d v fl =>
    cases d with
    | g q => exact h.lane l ln hl hn _ hF.symm (some (q.toNat, v))
    | _ => exact h.lane l ln hl hn _ hF.symm none
  | masked d v =>
    refine h.lane l ln hl hn _ ?_ none
    rw [hF]; exact (raise_zero _).symm
  | jump pc e => exact h.lane l ln hl hn _ hF.symm none
  | shared idx v => exact h.lane l ln hl hn _ hF.symm (some (idx, v))

/-- The first g write among lanes. -/
def firstWrite (gs : Nat → Option (Nat × Word)) (ls : List Nat) : Option (Nat × Word) := ls.findSome? gs

/-- The fold of a group over lanes with local ends. -/
theorem midway_fold {s : State} {fo : Focus} {w : Wave} (f : State → Wave → Nat → Lane → State × Out) (F : Nat → Lane → Lane)
    (gs : Nat → Option (Nat × Word)) (ls : List Nat)
    (hf : ∀ l ∈ ls, ∃ ln, w.lane l = some ln ∧ ∃ o, (∀ s', f s' w l ln = (s', o)) ∧ LocalOut fo ln o (F l ln) (gs l)) :
    ∀ (acc : State × Bool) (done : List Nat) (g : Option (Nat × Word)), Midway s fo w F acc done g → (∀ l ∈ ls, l ∉ done) → ls.Pairwise (· < ·) →
      Midway s fo w F (ls.foldl (runLane f fo w) acc) (done ++ ls) (match g with | some y => some y | none => firstWrite gs ls) := by
  induction ls with
  | nil => intro acc done g h _ _; cases g <;> simpa [firstWrite] using h
  | cons l rest ih =>
    intro acc done g h hd hp
    obtain ⟨ln, hl, o, hfo, ho⟩ := hf l (List.mem_cons_self ..)
    have h1 := h.out l ln hl (hd l (List.mem_cons_self ..)) ho
    have hrun : runLane f fo w acc l = applyOut acc.1 fo l acc.2 o := by simp [runLane, hl, hfo]
    have hp' := List.pairwise_cons.mp hp
    have h2 := ih (fun j hj => hf j (List.mem_cons_of_mem _ hj)) (applyOut acc.1 fo l acc.2 o) (done ++ [l]) _ h1
      (by
        intro j hj hmem
        rcases List.mem_append.mp hmem with hm | hm
        · exact hd j (List.mem_cons_of_mem _ hj) hm
        · have := hp'.1 j hj
          simp at hm; omega)
      hp'.2
    rw [List.foldl_cons, hrun]
    have hcat : done ++ [l] ++ rest = done ++ (l :: rest) := by simp
    rw [hcat] at h2
    cases g with
    | some y => simpa using h2
    | none =>
      cases hx : gs l with
      | some y => simpa [firstWrite, List.findSome?, hx] using h2
      | none => simpa [firstWrite, List.findSome?, hx] using h2

/-- A group all of whose lanes end locally (R137, R247): what runLanes does. -/
theorem runLanes_ends {s : State} {fo : Focus} {w : Wave} (h : GroupRuns s fo w) (f : State → Wave → Nat → Lane → State × Out)
    (F : Nat → Lane → Lane) (gs : Nat → Option (Nat × Word))
    (hf : ∀ l ∈ fo.lanes, ∀ ln, w.lane l = some ln → ∃ o, (∀ s', f s' w l ln = (s', o)) ∧ LocalOut fo ln o (F l ln) (gs l)) :
    GroupEnds s (runLanes s f) fo w F (gTo (fo.lanes.findSome? gs)) := by
  have h0 : Midway s fo w F (s, false) [] none := ⟨rfl, fun _ _ => rfl, rfl, w, h.wave, by simp [gTo], by simp, rfl⟩
  have hf' : ∀ l ∈ fo.lanes, ∃ ln, w.lane l = some ln ∧ ∃ o, (∀ s', f s' w l ln = (s', o)) ∧ LocalOut fo ln o (F l ln) (gs l) := by
    intro l hl
    obtain ⟨ln, hln⟩ := Option.isSome_iff_exists.mp (h.live l hl)
    exact ⟨ln, hln, hf l hl ln hln⟩
  have hm := midway_fold f F gs fo.lanes hf' (s, false) [] none h0 (by simp) h.sorted
  have hrun : runLanes s f = (fo.lanes.foldl (runLane f fo w) (s, false)).1 := by simp [runLanes, h.focus, h.wave]
  obtain ⟨w', hw, hr, hlan, hg⟩ := hm.wave
  rw [hrun]
  refine ⟨hm.rest, hm.others, w', hw, hr, ?_, ?_⟩
  · intro l; simpa using hlan l
  · intro r
    have hg' : w'.g = gWith w.g (fo.lanes.findSome? gs) := hg
    simp only [Wave.greg, sgetD, hg']
    cases fo.lanes.findSome? gs with
    | none => rfl
    | some p =>
      obtain ⟨q, v⟩ := p
      simp only [gWith, gTo, sget_sput]
      by_cases hq : r = q
      · subst hq; simp
      · rw [if_neg hq, if_neg hq]; rfl

/-- What a group of one lane does: its part on the state as it stands, and the end of that part. -/
theorem runLanes_solo {s : State} {fo : Focus} {w : Wave} {l : Nat} {ln : Lane} (h : Solo s fo w l ln)
    (f : State → Wave → Nat → Lane → State × Out) : runLanes s f = (applyOut (f s w l ln).1 fo l false (f s w l ln).2).1 := by
  simp [runLanes, runLane, h.focus, h.wave, h.lanes, h.lane]

/-- The same for an instruction over registers only. -/
theorem runPure_solo {s : State} {fo : Focus} {w : Wave} {l : Nat} {ln : Lane} (h : Solo s fo w l ln) (f : Wave → Nat → Lane → Out) :
    runPure s f = (applyOut s fo l false (f w l ln)).1 :=
  runLanes_solo h _

/-- The end of a part that takes a trap. -/
theorem applyOut_trap (s : State) (fo : Focus) (l : Nat) (g : Bool) (t : Trap) (next : Bool) :
    (applyOut s fo l g (.trap t next)).1 = takeTrap s fo.wave l t next fo.len := rfl

/-- The end of a part that completes with a result. -/
theorem applyOut_done (s : State) (fo : Focus) (l : Nat) (d : Opd) (ws : List Word) (fl : Flags) :
    (applyOut s fo l false (.done (some d) ws fl)).1 = s.completes fo l d ws fl := by
  cases d <;> rfl

/-- The end of a part that completes without a result. -/
theorem applyOut_pass (s : State) (fo : Focus) (l : Nat) (g : Bool) : (applyOut s fo l g (.done none [] 0)).1 = s.passes fo l := by
  simp [applyOut, State.passes, Focus.next, Lane.raise]

end Sys2Proof.Machine
end

