-- ==== Sys2Proof/Laws/Result.lean ====
section
/-! SUPPORT. The law of the result-writing register instructions: what a group does whose lanes write one word each, with the
masks of a prefix. -/

namespace Sys2Proof.Machine

/-- What a lane writes to g. -/
def gOf (fo : Focus) (w : Wave) (d : Opd) (v : Nat → Lane → Word) (l : Nat) : Option (Nat × Word) :=
  match d, w.lane l with
  | .g q, some ln => if maskedOff fo.pfx w l ln then none else some (q.toNat, v l ln)
  | _, _ => none

/-- A lane's part of a result-writing instruction ends locally. -/
theorem resultOut_local {fo : Focus} {w : Wave} {d : Opd} {v : Nat → Lane → Word} {fl : Nat → Lane → Flags} {l : Nat} {ln : Lane}
    (f : Option PfxFields → Wave → Nat → Lane → Except Trap (Word × Flags)) (hl : w.lane l = some ln)
    (hv : maskedOff fo.pfx w l ln = false → f fo.pfx w l ln = .ok (v l ln, fl l ln)) :
    LocalOut fo ln (resultOut d fo.pfx f w l ln) (resultEnd fo w d v fl l ln) (gOf fo w d v l) := by
  unfold resultOut resultEnd gOf
  cases hm : maskedOff fo.pfx w l ln with
  | true => cases d <;> simpa [hl, hm] using LocalOut.masked (fo := fo) (ln := ln) _ _
  | false =>
    rw [hv hm]
    cases d <;> simpa [hl, hm] using LocalOut.done (fo := fo) (ln := ln) _ (v l ln) (fl l ln)

/-- The first lane that writes g is the lowest unmasked one. -/
theorem findSome_gOf (fo : Focus) (w : Wave) (d : Opd) (v : Nat → Lane → Word) (ls : List Nat) :
    ls.findSome? (gOf fo w d v) =
      match d with
      | .g q => (ls.find? (unmasked fo w)).bind (fun l => (w.lane l).map (fun ln => (q.toNat, v l ln)))
      | _ => none := by
  induction ls with
  | nil => cases d <;> rfl
  | cons l rest ih =>
    cases d with
    | g q =>
      cases hl : w.lane l with
      | none => simp [List.findSome?, List.find?, gOf, unmasked, hl, ih]
      | some ln =>
        cases hm : maskedOff fo.pfx w l ln with
        | true => simp [List.findSome?, List.find?, gOf, unmasked, hl, hm, ih]
        | false => simp [List.findSome?, List.find?, gOf, unmasked, hl, hm]
    | _ => simp_all [List.findSome?, gOf]

/-- No lane is unmasked. -/
theorem all_masked {fo : Focus} {w : Wave} {ls : List Nat}
    (h : ls.all (laneMasked fo.pfx w) = true) :
    ls.find? (unmasked fo w) = none := by
  rw [List.find?_eq_none]
  intro l hl
  have := List.all_eq_true.mp h l hl
  unfold laneMasked at this
  unfold unmasked
  cases hw : w.lane l with
  | none => simp
  | some ln => simp_all

/-- Some lane is unmasked. -/
theorem some_unmasked {fo : Focus} {w : Wave} {ls : List Nat}
    (h : ls.all (laneMasked fo.pfx w) = false) :
    ∃ l, ls.find? (unmasked fo w) = some l := by
  cases hf : ls.find? (unmasked fo w) with
  | some l => exact ⟨l, rfl⟩
  | none =>
    exfalso
    rw [List.find?_eq_none] at hf
    have : ls.all (laneMasked fo.pfx w) = true := by
      rw [List.all_eq_true]
      intro l hl
      have := hf l hl
      unfold unmasked at this
      unfold laneMasked
      cases hw : w.lane l with
      | none => rfl
      | some ln => simpa [hw] using this
    rw [this] at h
    exact Bool.noConfusion h

@[simp] theorem lane_setG (w : Wave) (r : Nat) (ws : List Word) (l : Nat) : (w.setG r ws).lane l = w.lane l := by
  simp [Wave.lane]

/-- A lane that its mask turns off stays so when a g register becomes 0. -/
theorem maskedOff_setG {p : Option PfxFields} {w : Wave} {l : Nat} {ln : Lane} (r : Nat) (h : maskedOff p w l ln = true) :
    maskedOff p (w.setG r [0]) l ln = true := by
  unfold maskedOff at h ⊢
  cases p with
  | none => simp at h
  | some q =>
    simp only at h ⊢
    cases hq : q.mask with
    | g k =>
      rw [hq] at h
      simp only [greg_setG_one] at h ⊢
      split
      · simp
      · exact h
    | b k => rw [hq] at h; exact h
    | _ => rw [hq] at h; exact h

/-- The law of result-writing register instructions (R44, R246, R247, R261): every lane that is not masked off gets its word
and flags, a masked-off one keeps or clears, a g register takes the lowest unmasked lane's word. -/
theorem resultInstr_ends {s : State} {fo : Focus} {w : Wave} (h : GroupRuns s fo w) (d : Opd)
    (f : Option PfxFields → Wave → Nat → Lane → Except Trap (Word × Flags)) (v : Nat → Lane → Word) (fl : Nat → Lane → Flags)
    (hv : ∀ l ∈ fo.lanes, ∀ ln, w.lane l = some ln → maskedOff fo.pfx w l ln = false → f fo.pfx w l ln = .ok (v l ln, fl l ln)) :
    GroupEnds s (resultInstr s d f) fo w (resultEnd fo w d v fl) (gWritten fo w d v) := by
  have hfocus : resultInstr s d f = runPure (clearMaskedG s d) (resultOut d fo.pfx f) := by simp [resultInstr, h.focus]
  -- where nothing is cleared beforehand
  have plain : ∀ (hG : ∀ r, gWritten fo w d v r = gTo (fo.lanes.findSome? (gOf fo w d v)) r), GroupEnds s (runPure s (resultOut d fo.pfx f)) fo w (resultEnd fo w d v fl) (gWritten fo w d v) := by
    intro hG
    rw [funext hG]
    exact runLanes_ends h _ _ _ (fun l hl ln hln => ⟨_, fun _ => rfl, resultOut_local f hln (hv l hl ln hln)⟩)
  have gFound : ∀ q, d = .g q → ∀ l, fo.lanes.find? (unmasked fo w) = some l → ∃ ln, w.lane l = some ln := by
    intro q _ l hl
    exact Option.isSome_iff_exists.mp (h.live l (List.mem_of_find?_eq_some hl))
  rw [hfocus]
  cases d with
  | g q =>
    cases hall : fo.lanes.all (laneMasked fo.pfx w) with
    | false =>
      have hc : clearMaskedG s (.g q) = s := by
        simp only [clearMaskedG, h.focus, h.wave, hall, Bool.and_false, Bool.false_eq_true, if_false]
      rw [hc]
      apply plain
      intro r
      obtain ⟨l, hl⟩ := some_unmasked hall
      obtain ⟨ln, hln⟩ := gFound q rfl l hl
      rw [findSome_gOf]
      simp only [gWritten, gTo, isG, hl, hln, Option.bind_some, Option.map_some, beq_iff_eq]
      by_cases hr : r = q.toNat
      · subst hr; simp
      · rw [if_neg hr, if_neg (fun hh => hr hh.symm)]
    | true =>
      cases hz : zeroing fo.pfx with
      | false =>
        have hc : clearMaskedG s (.g q) = s := by
          simp only [clearMaskedG, h.focus, h.wave, hz, Bool.false_and, Bool.false_eq_true, if_false]
        rw [hc]
        apply plain
        intro r
        rw [findSome_gOf]
        simp [gWritten, gTo, isG, all_masked hall, hz]
      | true =>
        have hc : clearMaskedG s (.g q) = s.modWave fo.wave (fun w => w.setG q.toNat [0]) := by
          simp only [clearMaskedG, h.focus, h.wave, hz, hall, Bool.and_self, if_true]
        rw [hc]
        have h2 : GroupRuns (s.modWave fo.wave (fun w => w.setG q.toNat [0])) fo (w.setG q.toNat [0]) :=
          ⟨h.focus, by simp [wave_modWave, h.wave], h.sorted, by simpa using h.live⟩
        have hmask : ∀ l ∈ fo.lanes, ∀ ln, w.lane l = some ln → maskedOff fo.pfx w l ln = true := by
          intro l hl ln hln
          have := List.all_eq_true.mp hall l hl
          simpa [laneMasked, hln] using this
        have hends := runLanes_ends h2 (fun s w l ln => (s, resultOut (.g q) fo.pfx f w l ln)) (resultEnd fo w (.g q) v fl) (fun _ => none)
          (by
            intro l hl ln hln
            have hln' : w.lane l = some ln := by simpa using hln
            have hm := hmask l hl ln hln'
            refine ⟨_, fun _ => rfl, ?_⟩
            simp only [resultOut, maskedOff_setG q.toNat hm, if_true, resultEnd, hm, keptWord, hz]
            exact LocalOut.masked _ _)
        obtain ⟨w', hw, hr, hlan, hg⟩ := hends.wave
        refine ⟨?_, ?_, w', hw, ?_, ?_, ?_⟩
        · exact hends.rest
        · intro u hu
          exact (hends.others u hu).trans (by rw [wave_modWave, if_neg hu])
        · rw [hr, setG_rest]
          have hG : (fun r => (gWritten fo w (.g q) v r).isSome) = fun r => r == q.toNat := by
            funext r
            by_cases h : q.toNat = r
            · simp [gWritten, isG, all_masked hall, hz, h]
            · simpa [gWritten, isG, h] using fun e => h (Eq.symm e)
          rw [hG, show (fun r => (gTo (fo.lanes.findSome? (fun _ => (none : Option (Nat × Word)))) r).isSome) = fun _ => false by
            rw [show fo.lanes.findSome? (fun _ => (none : Option (Nat × Word))) = none by simp]; rfl]
          simp [Wave.setG]
        · intro l; simpa using hlan l
        · intro r
          have hnone : fo.lanes.findSome? (fun _ => (none : Option (Nat × Word))) = none := by
            rw [List.findSome?_eq_none_iff]; intros; rfl
          rw [hg r, hnone]
          simp only [greg_setG_one, gWritten, gTo, isG, all_masked hall, hz, if_true, beq_iff_eq]
          by_cases hq : r = q.toNat
          · subst hq; simp
          · rw [if_neg hq, if_neg (fun hh => hq hh.symm)]
  | b k =>
    rw [show clearMaskedG s (.b k) = s by simp [clearMaskedG, h.focus]]
    exact plain (by intro r; rw [findSome_gOf]; simp [gWritten, gTo, isG])
  | e0 =>
    rw [show clearMaskedG s .e0 = s by simp [clearMaskedG, h.focus]]
    exact plain (by intro r; rw [findSome_gOf]; simp [gWritten, gTo, isG])
  | e1 =>
    rw [show clearMaskedG s .e1 = s by simp [clearMaskedG, h.focus]]
    exact plain (by intro r; rw [findSome_gOf]; simp [gWritten, gTo, isG])
  | z =>
    rw [show clearMaskedG s .z = s by simp [clearMaskedG, h.focus]]
    exact plain (by intro r; rw [findSome_gOf]; simp [gWritten, gTo, isG])
  | ln =>
    rw [show clearMaskedG s .ln = s by simp [clearMaskedG, h.focus]]
    exact plain (by intro r; rw [findSome_gOf]; simp [gWritten, gTo, isG])
  | wv =>
    rw [show clearMaskedG s .wv = s by simp [clearMaskedG, h.focus]]
    exact plain (by intro r; rw [findSome_gOf]; simp [gWritten, gTo, isG])

end Sys2Proof.Machine
end

