-- ==== Sys2Proof/Laws/State.lean ====
section
/-! SUPPORT. What each plain update of State, Wave, Lane and Bank does to each field, by rfl. -/

set_option Elab.async false

namespace Sys2Proof.Machine

/-! The fields after State.setWave. -/

@[simp] theorem setWave_waves (s : State) (u : Nat) (w : Wave) : (s.setWave u w).waves = sput s.waves u w := rfl
@[simp] theorem setWave_blocks (s : State) (u : Nat) (w : Wave) : (s.setWave u w).blocks = s.blocks := rfl
@[simp] theorem setWave_cores (s : State) (u : Nat) (w : Wave) : (s.setWave u w).cores = s.cores := rfl
@[simp] theorem setWave_mem (s : State) (u : Nat) (w : Wave) : (s.setWave u w).mem = s.mem := rfl
@[simp] theorem setWave_poison (s : State) (u : Nat) (w : Wave) : (s.setWave u w).poison = s.poison := rfl
@[simp] theorem setWave_ecc (s : State) (u : Nat) (w : Wave) : (s.setWave u w).ecc = s.ecc := rfl
@[simp] theorem setWave_dir (s : State) (u : Nat) (w : Wave) : (s.setWave u w).dir = s.dir := rfl
@[simp] theorem setWave_flows (s : State) (u : Nat) (w : Wave) : (s.setWave u w).flows = s.flows := rfl
@[simp] theorem setWave_softEcc (s : State) (u : Nat) (w : Wave) : (s.setWave u w).softEcc = s.softEcc := rfl
@[simp] theorem setWave_corrected (s : State) (u : Nat) (w : Wave) : (s.setWave u w).corrected = s.corrected := rfl
@[simp] theorem setWave_controller (s : State) (u : Nat) (w : Wave) : (s.setWave u w).controller = s.controller := rfl
@[simp] theorem setWave_kmsgHeld (s : State) (u : Nat) (w : Wave) : (s.setWave u w).kmsgHeld = s.kmsgHeld := rfl
@[simp] theorem setWave_arriving (s : State) (u : Nat) (w : Wave) : (s.setWave u w).arriving = s.arriving := rfl
@[simp] theorem setWave_run (s : State) (u : Nat) (w : Wave) : (s.setWave u w).run = s.run := rfl
@[simp] theorem setWave_bars (s : State) (u : Nat) (w : Wave) : (s.setWave u w).bars = s.bars := rfl
@[simp] theorem setWave_tlb (s : State) (u : Nat) (w : Wave) : (s.setWave u w).tlb = s.tlb := rfl
@[simp] theorem setWave_tables (s : State) (u : Nat) (w : Wave) : (s.setWave u w).tables = s.tables := rfl
@[simp] theorem setWave_ctxs (s : State) (u : Nat) (w : Wave) : (s.setWave u w).ctxs = s.ctxs := rfl
@[simp] theorem setWave_cfg (s : State) (u : Nat) (w : Wave) : (s.setWave u w).cfg = s.cfg := rfl
@[simp] theorem setWave_harvest (s : State) (u : Nat) (w : Wave) : (s.setWave u w).harvest = s.harvest := rfl
@[simp] theorem setWave_linkTrapW (s : State) (u : Nat) (w : Wave) : (s.setWave u w).linkTrapW = s.linkTrapW := rfl
@[simp] theorem setWave_links (s : State) (u : Nat) (w : Wave) : (s.setWave u w).links = s.links := rfl
@[simp] theorem setWave_linkCtl (s : State) (u : Nat) (w : Wave) : (s.setWave u w).linkCtl = s.linkCtl := rfl
@[simp] theorem setWave_fabric (s : State) (u : Nat) (w : Wave) : (s.setWave u w).fabric = s.fabric := rfl
@[simp] theorem setWave_bringup (s : State) (u : Nat) (w : Wave) : (s.setWave u w).bringup = s.bringup := rfl
@[simp] theorem setWave_host (s : State) (u : Nat) (w : Wave) : (s.setWave u w).host = s.host := rfl
@[simp] theorem setWave_infoPage (s : State) (u : Nat) (w : Wave) : (s.setWave u w).infoPage = s.infoPage := rfl
@[simp] theorem setWave_rxDrop (s : State) (u : Nat) (w : Wave) : (s.setWave u w).rxDrop = s.rxDrop := rfl
@[simp] theorem setWave_ethMsgUdp (s : State) (u : Nat) (w : Wave) : (s.setWave u w).ethMsgUdp = s.ethMsgUdp := rfl
@[simp] theorem setWave_ptpLock (s : State) (u : Nat) (w : Wave) : (s.setWave u w).ptpLock = s.ptpLock := rfl
@[simp] theorem setWave_ptpEver (s : State) (u : Nat) (w : Wave) : (s.setWave u w).ptpEver = s.ptpEver := rfl
@[simp] theorem setWave_unexpected (s : State) (u : Nat) (w : Wave) : (s.setWave u w).unexpected = s.unexpected := rfl
@[simp] theorem setWave_objs (s : State) (u : Nat) (w : Wave) : (s.setWave u w).objs = s.objs := rfl
@[simp] theorem setWave_names (s : State) (u : Nat) (w : Wave) : (s.setWave u w).names = s.names := rfl
@[simp] theorem setWave_kmsgs (s : State) (u : Nat) (w : Wave) : (s.setWave u w).kmsgs = s.kmsgs := rfl
@[simp] theorem setWave_kmsgNext (s : State) (u : Nat) (w : Wave) : (s.setWave u w).kmsgNext = s.kmsgNext := rfl
@[simp] theorem setWave_kmsgSeen (s : State) (u : Nat) (w : Wave) : (s.setWave u w).kmsgSeen = s.kmsgSeen := rfl
@[simp] theorem setWave_pool (s : State) (u : Nat) (w : Wave) : (s.setWave u w).pool = s.pool := rfl
@[simp] theorem setWave_gpReject (s : State) (u : Nat) (w : Wave) : (s.setWave u w).gpReject = s.gpReject := rfl
@[simp] theorem setWave_allocs (s : State) (u : Nat) (w : Wave) : (s.setWave u w).allocs = s.allocs := rfl
@[simp] theorem setWave_exchanges (s : State) (u : Nat) (w : Wave) : (s.setWave u w).exchanges = s.exchanges := rfl
@[simp] theorem setWave_parted (s : State) (u : Nat) (w : Wave) : (s.setWave u w).parted = s.parted := rfl
@[simp] theorem setWave_setters (s : State) (u : Nat) (w : Wave) : (s.setWave u w).setters = s.setters := rfl
@[simp] theorem setWave_queues (s : State) (u : Nat) (w : Wave) : (s.setWave u w).queues = s.queues := rfl
@[simp] theorem setWave_launches (s : State) (u : Nat) (w : Wave) : (s.setWave u w).launches = s.launches := rfl
@[simp] theorem setWave_handles (s : State) (u : Nat) (w : Wave) : (s.setWave u w).handles = s.handles := rfl
@[simp] theorem setWave_runQueue (s : State) (u : Nat) (w : Wave) : (s.setWave u w).runQueue = s.runQueue := rfl
@[simp] theorem setWave_spawned (s : State) (u : Nat) (w : Wave) : (s.setWave u w).spawned = s.spawned := rfl
@[simp] theorem setWave_kilnChecks (s : State) (u : Nat) (w : Wave) : (s.setWave u w).kilnChecks = s.kilnChecks := rfl
@[simp] theorem setWave_clkStretch (s : State) (u : Nat) (w : Wave) : (s.setWave u w).clkStretch = s.clkStretch := rfl
@[simp] theorem setWave_pkgid (s : State) (u : Nat) (w : Wave) : (s.setWave u w).pkgid = s.pkgid := rfl
@[simp] theorem setWave_podsize (s : State) (u : Nat) (w : Wave) : (s.setWave u w).podsize = s.podsize := rfl
@[simp] theorem setWave_hostgib (s : State) (u : Nat) (w : Wave) : (s.setWave u w).hostgib = s.hostgib := rfl
@[simp] theorem setWave_fatalTraps (s : State) (u : Nat) (w : Wave) : (s.setWave u w).fatalTraps = s.fatalTraps := rfl
@[simp] theorem setWave_time (s : State) (u : Nat) (w : Wave) : (s.setWave u w).time = s.time := rfl
@[simp] theorem setWave_exited (s : State) (u : Nat) (w : Wave) : (s.setWave u w).exited = s.exited := rfl
@[simp] theorem setWave_waiting (s : State) (u : Nat) (w : Wave) : (s.setWave u w).waiting = s.waiting := rfl
@[simp] theorem setWave_sent (s : State) (u : Nat) (w : Wave) : (s.setWave u w).sent = s.sent := rfl
@[simp] theorem setWave_focus (s : State) (u : Nat) (w : Wave) : (s.setWave u w).focus = s.focus := rfl
@[simp] theorem setWave_input (s : State) (u : Nat) (w : Wave) : (s.setWave u w).input = s.input := rfl
@[simp] theorem setWave_agenda (s : State) (u : Nat) (w : Wave) : (s.setWave u w).agenda = s.agenda := rfl
@[simp] theorem setWave_slot2 (s : State) (u : Nat) (w : Wave) : (s.setWave u w).slot2 = s.slot2 := rfl
@[simp] theorem setWave_freeCtr (s : State) (u : Nat) (w : Wave) : (s.setWave u w).freeCtr = s.freeCtr := rfl
@[simp] theorem setWave_ticket (s : State) (u : Nat) (w : Wave) : (s.setWave u w).ticket = s.ticket := rfl

/-! The fields after State.modWave. -/

@[simp] theorem modWave_waves (s : State) (u : Nat) (f : Wave → Wave) : (s.modWave u f).waves = smod s.waves u f := rfl
@[simp] theorem modWave_blocks (s : State) (u : Nat) (f : Wave → Wave) : (s.modWave u f).blocks = s.blocks := rfl
@[simp] theorem modWave_cores (s : State) (u : Nat) (f : Wave → Wave) : (s.modWave u f).cores = s.cores := rfl
@[simp] theorem modWave_mem (s : State) (u : Nat) (f : Wave → Wave) : (s.modWave u f).mem = s.mem := rfl
@[simp] theorem modWave_poison (s : State) (u : Nat) (f : Wave → Wave) : (s.modWave u f).poison = s.poison := rfl
@[simp] theorem modWave_ecc (s : State) (u : Nat) (f : Wave → Wave) : (s.modWave u f).ecc = s.ecc := rfl
@[simp] theorem modWave_dir (s : State) (u : Nat) (f : Wave → Wave) : (s.modWave u f).dir = s.dir := rfl
@[simp] theorem modWave_flows (s : State) (u : Nat) (f : Wave → Wave) : (s.modWave u f).flows = s.flows := rfl
@[simp] theorem modWave_softEcc (s : State) (u : Nat) (f : Wave → Wave) : (s.modWave u f).softEcc = s.softEcc := rfl
@[simp] theorem modWave_corrected (s : State) (u : Nat) (f : Wave → Wave) : (s.modWave u f).corrected = s.corrected := rfl
@[simp] theorem modWave_controller (s : State) (u : Nat) (f : Wave → Wave) : (s.modWave u f).controller = s.controller := rfl
@[simp] theorem modWave_kmsgHeld (s : State) (u : Nat) (f : Wave → Wave) : (s.modWave u f).kmsgHeld = s.kmsgHeld := rfl
@[simp] theorem modWave_arriving (s : State) (u : Nat) (f : Wave → Wave) : (s.modWave u f).arriving = s.arriving := rfl
@[simp] theorem modWave_run (s : State) (u : Nat) (f : Wave → Wave) : (s.modWave u f).run = s.run := rfl
@[simp] theorem modWave_bars (s : State) (u : Nat) (f : Wave → Wave) : (s.modWave u f).bars = s.bars := rfl
@[simp] theorem modWave_tlb (s : State) (u : Nat) (f : Wave → Wave) : (s.modWave u f).tlb = s.tlb := rfl
@[simp] theorem modWave_tables (s : State) (u : Nat) (f : Wave → Wave) : (s.modWave u f).tables = s.tables := rfl
@[simp] theorem modWave_ctxs (s : State) (u : Nat) (f : Wave → Wave) : (s.modWave u f).ctxs = s.ctxs := rfl
@[simp] theorem modWave_cfg (s : State) (u : Nat) (f : Wave → Wave) : (s.modWave u f).cfg = s.cfg := rfl
@[simp] theorem modWave_harvest (s : State) (u : Nat) (f : Wave → Wave) : (s.modWave u f).harvest = s.harvest := rfl
@[simp] theorem modWave_linkTrapW (s : State) (u : Nat) (f : Wave → Wave) : (s.modWave u f).linkTrapW = s.linkTrapW := rfl
@[simp] theorem modWave_links (s : State) (u : Nat) (f : Wave → Wave) : (s.modWave u f).links = s.links := rfl
@[simp] theorem modWave_linkCtl (s : State) (u : Nat) (f : Wave → Wave) : (s.modWave u f).linkCtl = s.linkCtl := rfl
@[simp] theorem modWave_fabric (s : State) (u : Nat) (f : Wave → Wave) : (s.modWave u f).fabric = s.fabric := rfl
@[simp] theorem modWave_bringup (s : State) (u : Nat) (f : Wave → Wave) : (s.modWave u f).bringup = s.bringup := rfl
@[simp] theorem modWave_host (s : State) (u : Nat) (f : Wave → Wave) : (s.modWave u f).host = s.host := rfl
@[simp] theorem modWave_infoPage (s : State) (u : Nat) (f : Wave → Wave) : (s.modWave u f).infoPage = s.infoPage := rfl
@[simp] theorem modWave_rxDrop (s : State) (u : Nat) (f : Wave → Wave) : (s.modWave u f).rxDrop = s.rxDrop := rfl
@[simp] theorem modWave_ethMsgUdp (s : State) (u : Nat) (f : Wave → Wave) : (s.modWave u f).ethMsgUdp = s.ethMsgUdp := rfl
@[simp] theorem modWave_ptpLock (s : State) (u : Nat) (f : Wave → Wave) : (s.modWave u f).ptpLock = s.ptpLock := rfl
@[simp] theorem modWave_ptpEver (s : State) (u : Nat) (f : Wave → Wave) : (s.modWave u f).ptpEver = s.ptpEver := rfl
@[simp] theorem modWave_unexpected (s : State) (u : Nat) (f : Wave → Wave) : (s.modWave u f).unexpected = s.unexpected := rfl
@[simp] theorem modWave_objs (s : State) (u : Nat) (f : Wave → Wave) : (s.modWave u f).objs = s.objs := rfl
@[simp] theorem modWave_names (s : State) (u : Nat) (f : Wave → Wave) : (s.modWave u f).names = s.names := rfl
@[simp] theorem modWave_kmsgs (s : State) (u : Nat) (f : Wave → Wave) : (s.modWave u f).kmsgs = s.kmsgs := rfl
@[simp] theorem modWave_kmsgNext (s : State) (u : Nat) (f : Wave → Wave) : (s.modWave u f).kmsgNext = s.kmsgNext := rfl
@[simp] theorem modWave_kmsgSeen (s : State) (u : Nat) (f : Wave → Wave) : (s.modWave u f).kmsgSeen = s.kmsgSeen := rfl
@[simp] theorem modWave_pool (s : State) (u : Nat) (f : Wave → Wave) : (s.modWave u f).pool = s.pool := rfl
@[simp] theorem modWave_gpReject (s : State) (u : Nat) (f : Wave → Wave) : (s.modWave u f).gpReject = s.gpReject := rfl
@[simp] theorem modWave_allocs (s : State) (u : Nat) (f : Wave → Wave) : (s.modWave u f).allocs = s.allocs := rfl
@[simp] theorem modWave_exchanges (s : State) (u : Nat) (f : Wave → Wave) : (s.modWave u f).exchanges = s.exchanges := rfl
@[simp] theorem modWave_parted (s : State) (u : Nat) (f : Wave → Wave) : (s.modWave u f).parted = s.parted := rfl
@[simp] theorem modWave_setters (s : State) (u : Nat) (f : Wave → Wave) : (s.modWave u f).setters = s.setters := rfl
@[simp] theorem modWave_queues (s : State) (u : Nat) (f : Wave → Wave) : (s.modWave u f).queues = s.queues := rfl
@[simp] theorem modWave_launches (s : State) (u : Nat) (f : Wave → Wave) : (s.modWave u f).launches = s.launches := rfl
@[simp] theorem modWave_handles (s : State) (u : Nat) (f : Wave → Wave) : (s.modWave u f).handles = s.handles := rfl
@[simp] theorem modWave_runQueue (s : State) (u : Nat) (f : Wave → Wave) : (s.modWave u f).runQueue = s.runQueue := rfl
@[simp] theorem modWave_spawned (s : State) (u : Nat) (f : Wave → Wave) : (s.modWave u f).spawned = s.spawned := rfl
@[simp] theorem modWave_kilnChecks (s : State) (u : Nat) (f : Wave → Wave) : (s.modWave u f).kilnChecks = s.kilnChecks := rfl
@[simp] theorem modWave_clkStretch (s : State) (u : Nat) (f : Wave → Wave) : (s.modWave u f).clkStretch = s.clkStretch := rfl
@[simp] theorem modWave_pkgid (s : State) (u : Nat) (f : Wave → Wave) : (s.modWave u f).pkgid = s.pkgid := rfl
@[simp] theorem modWave_podsize (s : State) (u : Nat) (f : Wave → Wave) : (s.modWave u f).podsize = s.podsize := rfl
@[simp] theorem modWave_hostgib (s : State) (u : Nat) (f : Wave → Wave) : (s.modWave u f).hostgib = s.hostgib := rfl
@[simp] theorem modWave_fatalTraps (s : State) (u : Nat) (f : Wave → Wave) : (s.modWave u f).fatalTraps = s.fatalTraps := rfl
@[simp] theorem modWave_time (s : State) (u : Nat) (f : Wave → Wave) : (s.modWave u f).time = s.time := rfl
@[simp] theorem modWave_exited (s : State) (u : Nat) (f : Wave → Wave) : (s.modWave u f).exited = s.exited := rfl
@[simp] theorem modWave_waiting (s : State) (u : Nat) (f : Wave → Wave) : (s.modWave u f).waiting = s.waiting := rfl
@[simp] theorem modWave_sent (s : State) (u : Nat) (f : Wave → Wave) : (s.modWave u f).sent = s.sent := rfl
@[simp] theorem modWave_focus (s : State) (u : Nat) (f : Wave → Wave) : (s.modWave u f).focus = s.focus := rfl
@[simp] theorem modWave_input (s : State) (u : Nat) (f : Wave → Wave) : (s.modWave u f).input = s.input := rfl
@[simp] theorem modWave_agenda (s : State) (u : Nat) (f : Wave → Wave) : (s.modWave u f).agenda = s.agenda := rfl
@[simp] theorem modWave_slot2 (s : State) (u : Nat) (f : Wave → Wave) : (s.modWave u f).slot2 = s.slot2 := rfl
@[simp] theorem modWave_freeCtr (s : State) (u : Nat) (f : Wave → Wave) : (s.modWave u f).freeCtr = s.freeCtr := rfl
@[simp] theorem modWave_ticket (s : State) (u : Nat) (f : Wave → Wave) : (s.modWave u f).ticket = s.ticket := rfl

/-! The fields after State.modLane. -/

@[simp] theorem modLane_blocks (s : State) (u l : Nat) (f : Lane → Lane) : (s.modLane u l f).blocks = s.blocks := rfl
@[simp] theorem modLane_cores (s : State) (u l : Nat) (f : Lane → Lane) : (s.modLane u l f).cores = s.cores := rfl
@[simp] theorem modLane_mem (s : State) (u l : Nat) (f : Lane → Lane) : (s.modLane u l f).mem = s.mem := rfl
@[simp] theorem modLane_poison (s : State) (u l : Nat) (f : Lane → Lane) : (s.modLane u l f).poison = s.poison := rfl
@[simp] theorem modLane_ecc (s : State) (u l : Nat) (f : Lane → Lane) : (s.modLane u l f).ecc = s.ecc := rfl
@[simp] theorem modLane_dir (s : State) (u l : Nat) (f : Lane → Lane) : (s.modLane u l f).dir = s.dir := rfl
@[simp] theorem modLane_flows (s : State) (u l : Nat) (f : Lane → Lane) : (s.modLane u l f).flows = s.flows := rfl
@[simp] theorem modLane_softEcc (s : State) (u l : Nat) (f : Lane → Lane) : (s.modLane u l f).softEcc = s.softEcc := rfl
@[simp] theorem modLane_corrected (s : State) (u l : Nat) (f : Lane → Lane) : (s.modLane u l f).corrected = s.corrected := rfl
@[simp] theorem modLane_controller (s : State) (u l : Nat) (f : Lane → Lane) : (s.modLane u l f).controller = s.controller := rfl
@[simp] theorem modLane_kmsgHeld (s : State) (u l : Nat) (f : Lane → Lane) : (s.modLane u l f).kmsgHeld = s.kmsgHeld := rfl
@[simp] theorem modLane_arriving (s : State) (u l : Nat) (f : Lane → Lane) : (s.modLane u l f).arriving = s.arriving := rfl
@[simp] theorem modLane_run (s : State) (u l : Nat) (f : Lane → Lane) : (s.modLane u l f).run = s.run := rfl
@[simp] theorem modLane_bars (s : State) (u l : Nat) (f : Lane → Lane) : (s.modLane u l f).bars = s.bars := rfl
@[simp] theorem modLane_tlb (s : State) (u l : Nat) (f : Lane → Lane) : (s.modLane u l f).tlb = s.tlb := rfl
@[simp] theorem modLane_tables (s : State) (u l : Nat) (f : Lane → Lane) : (s.modLane u l f).tables = s.tables := rfl
@[simp] theorem modLane_ctxs (s : State) (u l : Nat) (f : Lane → Lane) : (s.modLane u l f).ctxs = s.ctxs := rfl
@[simp] theorem modLane_cfg (s : State) (u l : Nat) (f : Lane → Lane) : (s.modLane u l f).cfg = s.cfg := rfl
@[simp] theorem modLane_harvest (s : State) (u l : Nat) (f : Lane → Lane) : (s.modLane u l f).harvest = s.harvest := rfl
@[simp] theorem modLane_linkTrapW (s : State) (u l : Nat) (f : Lane → Lane) : (s.modLane u l f).linkTrapW = s.linkTrapW := rfl
@[simp] theorem modLane_links (s : State) (u l : Nat) (f : Lane → Lane) : (s.modLane u l f).links = s.links := rfl
@[simp] theorem modLane_linkCtl (s : State) (u l : Nat) (f : Lane → Lane) : (s.modLane u l f).linkCtl = s.linkCtl := rfl
@[simp] theorem modLane_fabric (s : State) (u l : Nat) (f : Lane → Lane) : (s.modLane u l f).fabric = s.fabric := rfl
@[simp] theorem modLane_bringup (s : State) (u l : Nat) (f : Lane → Lane) : (s.modLane u l f).bringup = s.bringup := rfl
@[simp] theorem modLane_host (s : State) (u l : Nat) (f : Lane → Lane) : (s.modLane u l f).host = s.host := rfl
@[simp] theorem modLane_infoPage (s : State) (u l : Nat) (f : Lane → Lane) : (s.modLane u l f).infoPage = s.infoPage := rfl
@[simp] theorem modLane_rxDrop (s : State) (u l : Nat) (f : Lane → Lane) : (s.modLane u l f).rxDrop = s.rxDrop := rfl
@[simp] theorem modLane_ethMsgUdp (s : State) (u l : Nat) (f : Lane → Lane) : (s.modLane u l f).ethMsgUdp = s.ethMsgUdp := rfl
@[simp] theorem modLane_ptpLock (s : State) (u l : Nat) (f : Lane → Lane) : (s.modLane u l f).ptpLock = s.ptpLock := rfl
@[simp] theorem modLane_ptpEver (s : State) (u l : Nat) (f : Lane → Lane) : (s.modLane u l f).ptpEver = s.ptpEver := rfl
@[simp] theorem modLane_unexpected (s : State) (u l : Nat) (f : Lane → Lane) : (s.modLane u l f).unexpected = s.unexpected := rfl
@[simp] theorem modLane_objs (s : State) (u l : Nat) (f : Lane → Lane) : (s.modLane u l f).objs = s.objs := rfl
@[simp] theorem modLane_names (s : State) (u l : Nat) (f : Lane → Lane) : (s.modLane u l f).names = s.names := rfl
@[simp] theorem modLane_kmsgs (s : State) (u l : Nat) (f : Lane → Lane) : (s.modLane u l f).kmsgs = s.kmsgs := rfl
@[simp] theorem modLane_kmsgNext (s : State) (u l : Nat) (f : Lane → Lane) : (s.modLane u l f).kmsgNext = s.kmsgNext := rfl
@[simp] theorem modLane_kmsgSeen (s : State) (u l : Nat) (f : Lane → Lane) : (s.modLane u l f).kmsgSeen = s.kmsgSeen := rfl
@[simp] theorem modLane_pool (s : State) (u l : Nat) (f : Lane → Lane) : (s.modLane u l f).pool = s.pool := rfl
@[simp] theorem modLane_gpReject (s : State) (u l : Nat) (f : Lane → Lane) : (s.modLane u l f).gpReject = s.gpReject := rfl
@[simp] theorem modLane_allocs (s : State) (u l : Nat) (f : Lane → Lane) : (s.modLane u l f).allocs = s.allocs := rfl
@[simp] theorem modLane_exchanges (s : State) (u l : Nat) (f : Lane → Lane) : (s.modLane u l f).exchanges = s.exchanges := rfl
@[simp] theorem modLane_parted (s : State) (u l : Nat) (f : Lane → Lane) : (s.modLane u l f).parted = s.parted := rfl
@[simp] theorem modLane_setters (s : State) (u l : Nat) (f : Lane → Lane) : (s.modLane u l f).setters = s.setters := rfl
@[simp] theorem modLane_queues (s : State) (u l : Nat) (f : Lane → Lane) : (s.modLane u l f).queues = s.queues := rfl
@[simp] theorem modLane_launches (s : State) (u l : Nat) (f : Lane → Lane) : (s.modLane u l f).launches = s.launches := rfl
@[simp] theorem modLane_handles (s : State) (u l : Nat) (f : Lane → Lane) : (s.modLane u l f).handles = s.handles := rfl
@[simp] theorem modLane_runQueue (s : State) (u l : Nat) (f : Lane → Lane) : (s.modLane u l f).runQueue = s.runQueue := rfl
@[simp] theorem modLane_spawned (s : State) (u l : Nat) (f : Lane → Lane) : (s.modLane u l f).spawned = s.spawned := rfl
@[simp] theorem modLane_kilnChecks (s : State) (u l : Nat) (f : Lane → Lane) : (s.modLane u l f).kilnChecks = s.kilnChecks := rfl
@[simp] theorem modLane_clkStretch (s : State) (u l : Nat) (f : Lane → Lane) : (s.modLane u l f).clkStretch = s.clkStretch := rfl
@[simp] theorem modLane_pkgid (s : State) (u l : Nat) (f : Lane → Lane) : (s.modLane u l f).pkgid = s.pkgid := rfl
@[simp] theorem modLane_podsize (s : State) (u l : Nat) (f : Lane → Lane) : (s.modLane u l f).podsize = s.podsize := rfl
@[simp] theorem modLane_hostgib (s : State) (u l : Nat) (f : Lane → Lane) : (s.modLane u l f).hostgib = s.hostgib := rfl
@[simp] theorem modLane_fatalTraps (s : State) (u l : Nat) (f : Lane → Lane) : (s.modLane u l f).fatalTraps = s.fatalTraps := rfl
@[simp] theorem modLane_time (s : State) (u l : Nat) (f : Lane → Lane) : (s.modLane u l f).time = s.time := rfl
@[simp] theorem modLane_exited (s : State) (u l : Nat) (f : Lane → Lane) : (s.modLane u l f).exited = s.exited := rfl
@[simp] theorem modLane_waiting (s : State) (u l : Nat) (f : Lane → Lane) : (s.modLane u l f).waiting = s.waiting := rfl
@[simp] theorem modLane_sent (s : State) (u l : Nat) (f : Lane → Lane) : (s.modLane u l f).sent = s.sent := rfl
@[simp] theorem modLane_focus (s : State) (u l : Nat) (f : Lane → Lane) : (s.modLane u l f).focus = s.focus := rfl
@[simp] theorem modLane_input (s : State) (u l : Nat) (f : Lane → Lane) : (s.modLane u l f).input = s.input := rfl
@[simp] theorem modLane_agenda (s : State) (u l : Nat) (f : Lane → Lane) : (s.modLane u l f).agenda = s.agenda := rfl
@[simp] theorem modLane_slot2 (s : State) (u l : Nat) (f : Lane → Lane) : (s.modLane u l f).slot2 = s.slot2 := rfl
@[simp] theorem modLane_freeCtr (s : State) (u l : Nat) (f : Lane → Lane) : (s.modLane u l f).freeCtr = s.freeCtr := rfl
@[simp] theorem modLane_ticket (s : State) (u l : Nat) (f : Lane → Lane) : (s.modLane u l f).ticket = s.ticket := rfl

/-! The fields after State.modBlock. -/

@[simp] theorem modBlock_waves (s : State) (k : Nat) (f : Block → Block) : (s.modBlock k f).waves = s.waves := rfl
@[simp] theorem modBlock_blocks (s : State) (k : Nat) (f : Block → Block) : (s.modBlock k f).blocks = smod s.blocks k f := rfl
@[simp] theorem modBlock_cores (s : State) (k : Nat) (f : Block → Block) : (s.modBlock k f).cores = s.cores := rfl
@[simp] theorem modBlock_mem (s : State) (k : Nat) (f : Block → Block) : (s.modBlock k f).mem = s.mem := rfl
@[simp] theorem modBlock_poison (s : State) (k : Nat) (f : Block → Block) : (s.modBlock k f).poison = s.poison := rfl
@[simp] theorem modBlock_ecc (s : State) (k : Nat) (f : Block → Block) : (s.modBlock k f).ecc = s.ecc := rfl
@[simp] theorem modBlock_dir (s : State) (k : Nat) (f : Block → Block) : (s.modBlock k f).dir = s.dir := rfl
@[simp] theorem modBlock_flows (s : State) (k : Nat) (f : Block → Block) : (s.modBlock k f).flows = s.flows := rfl
@[simp] theorem modBlock_softEcc (s : State) (k : Nat) (f : Block → Block) : (s.modBlock k f).softEcc = s.softEcc := rfl
@[simp] theorem modBlock_corrected (s : State) (k : Nat) (f : Block → Block) : (s.modBlock k f).corrected = s.corrected := rfl
@[simp] theorem modBlock_controller (s : State) (k : Nat) (f : Block → Block) : (s.modBlock k f).controller = s.controller := rfl
@[simp] theorem modBlock_kmsgHeld (s : State) (k : Nat) (f : Block → Block) : (s.modBlock k f).kmsgHeld = s.kmsgHeld := rfl
@[simp] theorem modBlock_arriving (s : State) (k : Nat) (f : Block → Block) : (s.modBlock k f).arriving = s.arriving := rfl
@[simp] theorem modBlock_run (s : State) (k : Nat) (f : Block → Block) : (s.modBlock k f).run = s.run := rfl
@[simp] theorem modBlock_bars (s : State) (k : Nat) (f : Block → Block) : (s.modBlock k f).bars = s.bars := rfl
@[simp] theorem modBlock_tlb (s : State) (k : Nat) (f : Block → Block) : (s.modBlock k f).tlb = s.tlb := rfl
@[simp] theorem modBlock_tables (s : State) (k : Nat) (f : Block → Block) : (s.modBlock k f).tables = s.tables := rfl
@[simp] theorem modBlock_ctxs (s : State) (k : Nat) (f : Block → Block) : (s.modBlock k f).ctxs = s.ctxs := rfl
@[simp] theorem modBlock_cfg (s : State) (k : Nat) (f : Block → Block) : (s.modBlock k f).cfg = s.cfg := rfl
@[simp] theorem modBlock_harvest (s : State) (k : Nat) (f : Block → Block) : (s.modBlock k f).harvest = s.harvest := rfl
@[simp] theorem modBlock_linkTrapW (s : State) (k : Nat) (f : Block → Block) : (s.modBlock k f).linkTrapW = s.linkTrapW := rfl
@[simp] theorem modBlock_links (s : State) (k : Nat) (f : Block → Block) : (s.modBlock k f).links = s.links := rfl
@[simp] theorem modBlock_linkCtl (s : State) (k : Nat) (f : Block → Block) : (s.modBlock k f).linkCtl = s.linkCtl := rfl
@[simp] theorem modBlock_fabric (s : State) (k : Nat) (f : Block → Block) : (s.modBlock k f).fabric = s.fabric := rfl
@[simp] theorem modBlock_bringup (s : State) (k : Nat) (f : Block → Block) : (s.modBlock k f).bringup = s.bringup := rfl
@[simp] theorem modBlock_host (s : State) (k : Nat) (f : Block → Block) : (s.modBlock k f).host = s.host := rfl
@[simp] theorem modBlock_infoPage (s : State) (k : Nat) (f : Block → Block) : (s.modBlock k f).infoPage = s.infoPage := rfl
@[simp] theorem modBlock_rxDrop (s : State) (k : Nat) (f : Block → Block) : (s.modBlock k f).rxDrop = s.rxDrop := rfl
@[simp] theorem modBlock_ethMsgUdp (s : State) (k : Nat) (f : Block → Block) : (s.modBlock k f).ethMsgUdp = s.ethMsgUdp := rfl
@[simp] theorem modBlock_ptpLock (s : State) (k : Nat) (f : Block → Block) : (s.modBlock k f).ptpLock = s.ptpLock := rfl
@[simp] theorem modBlock_ptpEver (s : State) (k : Nat) (f : Block → Block) : (s.modBlock k f).ptpEver = s.ptpEver := rfl
@[simp] theorem modBlock_unexpected (s : State) (k : Nat) (f : Block → Block) : (s.modBlock k f).unexpected = s.unexpected := rfl
@[simp] theorem modBlock_objs (s : State) (k : Nat) (f : Block → Block) : (s.modBlock k f).objs = s.objs := rfl
@[simp] theorem modBlock_names (s : State) (k : Nat) (f : Block → Block) : (s.modBlock k f).names = s.names := rfl
@[simp] theorem modBlock_kmsgs (s : State) (k : Nat) (f : Block → Block) : (s.modBlock k f).kmsgs = s.kmsgs := rfl
@[simp] theorem modBlock_kmsgNext (s : State) (k : Nat) (f : Block → Block) : (s.modBlock k f).kmsgNext = s.kmsgNext := rfl
@[simp] theorem modBlock_kmsgSeen (s : State) (k : Nat) (f : Block → Block) : (s.modBlock k f).kmsgSeen = s.kmsgSeen := rfl
@[simp] theorem modBlock_pool (s : State) (k : Nat) (f : Block → Block) : (s.modBlock k f).pool = s.pool := rfl
@[simp] theorem modBlock_gpReject (s : State) (k : Nat) (f : Block → Block) : (s.modBlock k f).gpReject = s.gpReject := rfl
@[simp] theorem modBlock_allocs (s : State) (k : Nat) (f : Block → Block) : (s.modBlock k f).allocs = s.allocs := rfl
@[simp] theorem modBlock_exchanges (s : State) (k : Nat) (f : Block → Block) : (s.modBlock k f).exchanges = s.exchanges := rfl
@[simp] theorem modBlock_parted (s : State) (k : Nat) (f : Block → Block) : (s.modBlock k f).parted = s.parted := rfl
@[simp] theorem modBlock_setters (s : State) (k : Nat) (f : Block → Block) : (s.modBlock k f).setters = s.setters := rfl
@[simp] theorem modBlock_queues (s : State) (k : Nat) (f : Block → Block) : (s.modBlock k f).queues = s.queues := rfl
@[simp] theorem modBlock_launches (s : State) (k : Nat) (f : Block → Block) : (s.modBlock k f).launches = s.launches := rfl
@[simp] theorem modBlock_handles (s : State) (k : Nat) (f : Block → Block) : (s.modBlock k f).handles = s.handles := rfl
@[simp] theorem modBlock_runQueue (s : State) (k : Nat) (f : Block → Block) : (s.modBlock k f).runQueue = s.runQueue := rfl
@[simp] theorem modBlock_spawned (s : State) (k : Nat) (f : Block → Block) : (s.modBlock k f).spawned = s.spawned := rfl
@[simp] theorem modBlock_kilnChecks (s : State) (k : Nat) (f : Block → Block) : (s.modBlock k f).kilnChecks = s.kilnChecks := rfl
@[simp] theorem modBlock_clkStretch (s : State) (k : Nat) (f : Block → Block) : (s.modBlock k f).clkStretch = s.clkStretch := rfl
@[simp] theorem modBlock_pkgid (s : State) (k : Nat) (f : Block → Block) : (s.modBlock k f).pkgid = s.pkgid := rfl
@[simp] theorem modBlock_podsize (s : State) (k : Nat) (f : Block → Block) : (s.modBlock k f).podsize = s.podsize := rfl
@[simp] theorem modBlock_hostgib (s : State) (k : Nat) (f : Block → Block) : (s.modBlock k f).hostgib = s.hostgib := rfl
@[simp] theorem modBlock_fatalTraps (s : State) (k : Nat) (f : Block → Block) : (s.modBlock k f).fatalTraps = s.fatalTraps := rfl
@[simp] theorem modBlock_time (s : State) (k : Nat) (f : Block → Block) : (s.modBlock k f).time = s.time := rfl
@[simp] theorem modBlock_exited (s : State) (k : Nat) (f : Block → Block) : (s.modBlock k f).exited = s.exited := rfl
@[simp] theorem modBlock_waiting (s : State) (k : Nat) (f : Block → Block) : (s.modBlock k f).waiting = s.waiting := rfl
@[simp] theorem modBlock_sent (s : State) (k : Nat) (f : Block → Block) : (s.modBlock k f).sent = s.sent := rfl
@[simp] theorem modBlock_focus (s : State) (k : Nat) (f : Block → Block) : (s.modBlock k f).focus = s.focus := rfl
@[simp] theorem modBlock_input (s : State) (k : Nat) (f : Block → Block) : (s.modBlock k f).input = s.input := rfl
@[simp] theorem modBlock_agenda (s : State) (k : Nat) (f : Block → Block) : (s.modBlock k f).agenda = s.agenda := rfl
@[simp] theorem modBlock_slot2 (s : State) (k : Nat) (f : Block → Block) : (s.modBlock k f).slot2 = s.slot2 := rfl
@[simp] theorem modBlock_freeCtr (s : State) (k : Nat) (f : Block → Block) : (s.modBlock k f).freeCtr = s.freeCtr := rfl
@[simp] theorem modBlock_ticket (s : State) (k : Nat) (f : Block → Block) : (s.modBlock k f).ticket = s.ticket := rfl

/-! The fields after State.modCore. -/

@[simp] theorem modCore_waves (s : State) (k : Nat) (f : CoreState → CoreState) : (s.modCore k f).waves = s.waves := rfl
@[simp] theorem modCore_blocks (s : State) (k : Nat) (f : CoreState → CoreState) : (s.modCore k f).blocks = s.blocks := rfl
@[simp] theorem modCore_cores (s : State) (k : Nat) (f : CoreState → CoreState) : (s.modCore k f).cores = sput s.cores k (f (s.core k)) := rfl
@[simp] theorem modCore_mem (s : State) (k : Nat) (f : CoreState → CoreState) : (s.modCore k f).mem = s.mem := rfl
@[simp] theorem modCore_poison (s : State) (k : Nat) (f : CoreState → CoreState) : (s.modCore k f).poison = s.poison := rfl
@[simp] theorem modCore_ecc (s : State) (k : Nat) (f : CoreState → CoreState) : (s.modCore k f).ecc = s.ecc := rfl
@[simp] theorem modCore_dir (s : State) (k : Nat) (f : CoreState → CoreState) : (s.modCore k f).dir = s.dir := rfl
@[simp] theorem modCore_flows (s : State) (k : Nat) (f : CoreState → CoreState) : (s.modCore k f).flows = s.flows := rfl
@[simp] theorem modCore_softEcc (s : State) (k : Nat) (f : CoreState → CoreState) : (s.modCore k f).softEcc = s.softEcc := rfl
@[simp] theorem modCore_corrected (s : State) (k : Nat) (f : CoreState → CoreState) : (s.modCore k f).corrected = s.corrected := rfl
@[simp] theorem modCore_controller (s : State) (k : Nat) (f : CoreState → CoreState) : (s.modCore k f).controller = s.controller := rfl
@[simp] theorem modCore_kmsgHeld (s : State) (k : Nat) (f : CoreState → CoreState) : (s.modCore k f).kmsgHeld = s.kmsgHeld := rfl
@[simp] theorem modCore_arriving (s : State) (k : Nat) (f : CoreState → CoreState) : (s.modCore k f).arriving = s.arriving := rfl
@[simp] theorem modCore_run (s : State) (k : Nat) (f : CoreState → CoreState) : (s.modCore k f).run = s.run := rfl
@[simp] theorem modCore_bars (s : State) (k : Nat) (f : CoreState → CoreState) : (s.modCore k f).bars = s.bars := rfl
@[simp] theorem modCore_tlb (s : State) (k : Nat) (f : CoreState → CoreState) : (s.modCore k f).tlb = s.tlb := rfl
@[simp] theorem modCore_tables (s : State) (k : Nat) (f : CoreState → CoreState) : (s.modCore k f).tables = s.tables := rfl
@[simp] theorem modCore_ctxs (s : State) (k : Nat) (f : CoreState → CoreState) : (s.modCore k f).ctxs = s.ctxs := rfl
@[simp] theorem modCore_cfg (s : State) (k : Nat) (f : CoreState → CoreState) : (s.modCore k f).cfg = s.cfg := rfl
@[simp] theorem modCore_harvest (s : State) (k : Nat) (f : CoreState → CoreState) : (s.modCore k f).harvest = s.harvest := rfl
@[simp] theorem modCore_linkTrapW (s : State) (k : Nat) (f : CoreState → CoreState) : (s.modCore k f).linkTrapW = s.linkTrapW := rfl
@[simp] theorem modCore_links (s : State) (k : Nat) (f : CoreState → CoreState) : (s.modCore k f).links = s.links := rfl
@[simp] theorem modCore_linkCtl (s : State) (k : Nat) (f : CoreState → CoreState) : (s.modCore k f).linkCtl = s.linkCtl := rfl
@[simp] theorem modCore_fabric (s : State) (k : Nat) (f : CoreState → CoreState) : (s.modCore k f).fabric = s.fabric := rfl
@[simp] theorem modCore_bringup (s : State) (k : Nat) (f : CoreState → CoreState) : (s.modCore k f).bringup = s.bringup := rfl
@[simp] theorem modCore_host (s : State) (k : Nat) (f : CoreState → CoreState) : (s.modCore k f).host = s.host := rfl
@[simp] theorem modCore_infoPage (s : State) (k : Nat) (f : CoreState → CoreState) : (s.modCore k f).infoPage = s.infoPage := rfl
@[simp] theorem modCore_rxDrop (s : State) (k : Nat) (f : CoreState → CoreState) : (s.modCore k f).rxDrop = s.rxDrop := rfl
@[simp] theorem modCore_ethMsgUdp (s : State) (k : Nat) (f : CoreState → CoreState) : (s.modCore k f).ethMsgUdp = s.ethMsgUdp := rfl
@[simp] theorem modCore_ptpLock (s : State) (k : Nat) (f : CoreState → CoreState) : (s.modCore k f).ptpLock = s.ptpLock := rfl
@[simp] theorem modCore_ptpEver (s : State) (k : Nat) (f : CoreState → CoreState) : (s.modCore k f).ptpEver = s.ptpEver := rfl
@[simp] theorem modCore_unexpected (s : State) (k : Nat) (f : CoreState → CoreState) : (s.modCore k f).unexpected = s.unexpected := rfl
@[simp] theorem modCore_objs (s : State) (k : Nat) (f : CoreState → CoreState) : (s.modCore k f).objs = s.objs := rfl
@[simp] theorem modCore_names (s : State) (k : Nat) (f : CoreState → CoreState) : (s.modCore k f).names = s.names := rfl
@[simp] theorem modCore_kmsgs (s : State) (k : Nat) (f : CoreState → CoreState) : (s.modCore k f).kmsgs = s.kmsgs := rfl
@[simp] theorem modCore_kmsgNext (s : State) (k : Nat) (f : CoreState → CoreState) : (s.modCore k f).kmsgNext = s.kmsgNext := rfl
@[simp] theorem modCore_kmsgSeen (s : State) (k : Nat) (f : CoreState → CoreState) : (s.modCore k f).kmsgSeen = s.kmsgSeen := rfl
@[simp] theorem modCore_pool (s : State) (k : Nat) (f : CoreState → CoreState) : (s.modCore k f).pool = s.pool := rfl
@[simp] theorem modCore_gpReject (s : State) (k : Nat) (f : CoreState → CoreState) : (s.modCore k f).gpReject = s.gpReject := rfl
@[simp] theorem modCore_allocs (s : State) (k : Nat) (f : CoreState → CoreState) : (s.modCore k f).allocs = s.allocs := rfl
@[simp] theorem modCore_exchanges (s : State) (k : Nat) (f : CoreState → CoreState) : (s.modCore k f).exchanges = s.exchanges := rfl
@[simp] theorem modCore_parted (s : State) (k : Nat) (f : CoreState → CoreState) : (s.modCore k f).parted = s.parted := rfl
@[simp] theorem modCore_setters (s : State) (k : Nat) (f : CoreState → CoreState) : (s.modCore k f).setters = s.setters := rfl
@[simp] theorem modCore_queues (s : State) (k : Nat) (f : CoreState → CoreState) : (s.modCore k f).queues = s.queues := rfl
@[simp] theorem modCore_launches (s : State) (k : Nat) (f : CoreState → CoreState) : (s.modCore k f).launches = s.launches := rfl
@[simp] theorem modCore_handles (s : State) (k : Nat) (f : CoreState → CoreState) : (s.modCore k f).handles = s.handles := rfl
@[simp] theorem modCore_runQueue (s : State) (k : Nat) (f : CoreState → CoreState) : (s.modCore k f).runQueue = s.runQueue := rfl
@[simp] theorem modCore_spawned (s : State) (k : Nat) (f : CoreState → CoreState) : (s.modCore k f).spawned = s.spawned := rfl
@[simp] theorem modCore_kilnChecks (s : State) (k : Nat) (f : CoreState → CoreState) : (s.modCore k f).kilnChecks = s.kilnChecks := rfl
@[simp] theorem modCore_clkStretch (s : State) (k : Nat) (f : CoreState → CoreState) : (s.modCore k f).clkStretch = s.clkStretch := rfl
@[simp] theorem modCore_pkgid (s : State) (k : Nat) (f : CoreState → CoreState) : (s.modCore k f).pkgid = s.pkgid := rfl
@[simp] theorem modCore_podsize (s : State) (k : Nat) (f : CoreState → CoreState) : (s.modCore k f).podsize = s.podsize := rfl
@[simp] theorem modCore_hostgib (s : State) (k : Nat) (f : CoreState → CoreState) : (s.modCore k f).hostgib = s.hostgib := rfl
@[simp] theorem modCore_fatalTraps (s : State) (k : Nat) (f : CoreState → CoreState) : (s.modCore k f).fatalTraps = s.fatalTraps := rfl
@[simp] theorem modCore_time (s : State) (k : Nat) (f : CoreState → CoreState) : (s.modCore k f).time = s.time := rfl
@[simp] theorem modCore_exited (s : State) (k : Nat) (f : CoreState → CoreState) : (s.modCore k f).exited = s.exited := rfl
@[simp] theorem modCore_waiting (s : State) (k : Nat) (f : CoreState → CoreState) : (s.modCore k f).waiting = s.waiting := rfl
@[simp] theorem modCore_sent (s : State) (k : Nat) (f : CoreState → CoreState) : (s.modCore k f).sent = s.sent := rfl
@[simp] theorem modCore_focus (s : State) (k : Nat) (f : CoreState → CoreState) : (s.modCore k f).focus = s.focus := rfl
@[simp] theorem modCore_input (s : State) (k : Nat) (f : CoreState → CoreState) : (s.modCore k f).input = s.input := rfl
@[simp] theorem modCore_agenda (s : State) (k : Nat) (f : CoreState → CoreState) : (s.modCore k f).agenda = s.agenda := rfl
@[simp] theorem modCore_slot2 (s : State) (k : Nat) (f : CoreState → CoreState) : (s.modCore k f).slot2 = s.slot2 := rfl
@[simp] theorem modCore_freeCtr (s : State) (k : Nat) (f : CoreState → CoreState) : (s.modCore k f).freeCtr = s.freeCtr := rfl
@[simp] theorem modCore_ticket (s : State) (k : Nat) (f : CoreState → CoreState) : (s.modCore k f).ticket = s.ticket := rfl

/-! The fields after State.modCtx. -/

@[simp] theorem modCtx_waves (s : State) (asid : Nat) (f : Ctx → Ctx) : (s.modCtx asid f).waves = s.waves := rfl
@[simp] theorem modCtx_blocks (s : State) (asid : Nat) (f : Ctx → Ctx) : (s.modCtx asid f).blocks = s.blocks := rfl
@[simp] theorem modCtx_cores (s : State) (asid : Nat) (f : Ctx → Ctx) : (s.modCtx asid f).cores = s.cores := rfl
@[simp] theorem modCtx_mem (s : State) (asid : Nat) (f : Ctx → Ctx) : (s.modCtx asid f).mem = s.mem := rfl
@[simp] theorem modCtx_poison (s : State) (asid : Nat) (f : Ctx → Ctx) : (s.modCtx asid f).poison = s.poison := rfl
@[simp] theorem modCtx_ecc (s : State) (asid : Nat) (f : Ctx → Ctx) : (s.modCtx asid f).ecc = s.ecc := rfl
@[simp] theorem modCtx_dir (s : State) (asid : Nat) (f : Ctx → Ctx) : (s.modCtx asid f).dir = s.dir := rfl
@[simp] theorem modCtx_flows (s : State) (asid : Nat) (f : Ctx → Ctx) : (s.modCtx asid f).flows = s.flows := rfl
@[simp] theorem modCtx_softEcc (s : State) (asid : Nat) (f : Ctx → Ctx) : (s.modCtx asid f).softEcc = s.softEcc := rfl
@[simp] theorem modCtx_corrected (s : State) (asid : Nat) (f : Ctx → Ctx) : (s.modCtx asid f).corrected = s.corrected := rfl
@[simp] theorem modCtx_controller (s : State) (asid : Nat) (f : Ctx → Ctx) : (s.modCtx asid f).controller = s.controller := rfl
@[simp] theorem modCtx_kmsgHeld (s : State) (asid : Nat) (f : Ctx → Ctx) : (s.modCtx asid f).kmsgHeld = s.kmsgHeld := rfl
@[simp] theorem modCtx_arriving (s : State) (asid : Nat) (f : Ctx → Ctx) : (s.modCtx asid f).arriving = s.arriving := rfl
@[simp] theorem modCtx_run (s : State) (asid : Nat) (f : Ctx → Ctx) : (s.modCtx asid f).run = s.run := rfl
@[simp] theorem modCtx_bars (s : State) (asid : Nat) (f : Ctx → Ctx) : (s.modCtx asid f).bars = s.bars := rfl
@[simp] theorem modCtx_tlb (s : State) (asid : Nat) (f : Ctx → Ctx) : (s.modCtx asid f).tlb = s.tlb := rfl
@[simp] theorem modCtx_tables (s : State) (asid : Nat) (f : Ctx → Ctx) : (s.modCtx asid f).tables = s.tables := rfl
@[simp] theorem modCtx_ctxs (s : State) (asid : Nat) (f : Ctx → Ctx) : (s.modCtx asid f).ctxs = sput s.ctxs asid (f (s.ctx asid)) := rfl
@[simp] theorem modCtx_cfg (s : State) (asid : Nat) (f : Ctx → Ctx) : (s.modCtx asid f).cfg = s.cfg := rfl
@[simp] theorem modCtx_harvest (s : State) (asid : Nat) (f : Ctx → Ctx) : (s.modCtx asid f).harvest = s.harvest := rfl
@[simp] theorem modCtx_linkTrapW (s : State) (asid : Nat) (f : Ctx → Ctx) : (s.modCtx asid f).linkTrapW = s.linkTrapW := rfl
@[simp] theorem modCtx_links (s : State) (asid : Nat) (f : Ctx → Ctx) : (s.modCtx asid f).links = s.links := rfl
@[simp] theorem modCtx_linkCtl (s : State) (asid : Nat) (f : Ctx → Ctx) : (s.modCtx asid f).linkCtl = s.linkCtl := rfl
@[simp] theorem modCtx_fabric (s : State) (asid : Nat) (f : Ctx → Ctx) : (s.modCtx asid f).fabric = s.fabric := rfl
@[simp] theorem modCtx_bringup (s : State) (asid : Nat) (f : Ctx → Ctx) : (s.modCtx asid f).bringup = s.bringup := rfl
@[simp] theorem modCtx_host (s : State) (asid : Nat) (f : Ctx → Ctx) : (s.modCtx asid f).host = s.host := rfl
@[simp] theorem modCtx_infoPage (s : State) (asid : Nat) (f : Ctx → Ctx) : (s.modCtx asid f).infoPage = s.infoPage := rfl
@[simp] theorem modCtx_rxDrop (s : State) (asid : Nat) (f : Ctx → Ctx) : (s.modCtx asid f).rxDrop = s.rxDrop := rfl
@[simp] theorem modCtx_ethMsgUdp (s : State) (asid : Nat) (f : Ctx → Ctx) : (s.modCtx asid f).ethMsgUdp = s.ethMsgUdp := rfl
@[simp] theorem modCtx_ptpLock (s : State) (asid : Nat) (f : Ctx → Ctx) : (s.modCtx asid f).ptpLock = s.ptpLock := rfl
@[simp] theorem modCtx_ptpEver (s : State) (asid : Nat) (f : Ctx → Ctx) : (s.modCtx asid f).ptpEver = s.ptpEver := rfl
@[simp] theorem modCtx_unexpected (s : State) (asid : Nat) (f : Ctx → Ctx) : (s.modCtx asid f).unexpected = s.unexpected := rfl
@[simp] theorem modCtx_objs (s : State) (asid : Nat) (f : Ctx → Ctx) : (s.modCtx asid f).objs = s.objs := rfl
@[simp] theorem modCtx_names (s : State) (asid : Nat) (f : Ctx → Ctx) : (s.modCtx asid f).names = s.names := rfl
@[simp] theorem modCtx_kmsgs (s : State) (asid : Nat) (f : Ctx → Ctx) : (s.modCtx asid f).kmsgs = s.kmsgs := rfl
@[simp] theorem modCtx_kmsgNext (s : State) (asid : Nat) (f : Ctx → Ctx) : (s.modCtx asid f).kmsgNext = s.kmsgNext := rfl
@[simp] theorem modCtx_kmsgSeen (s : State) (asid : Nat) (f : Ctx → Ctx) : (s.modCtx asid f).kmsgSeen = s.kmsgSeen := rfl
@[simp] theorem modCtx_pool (s : State) (asid : Nat) (f : Ctx → Ctx) : (s.modCtx asid f).pool = s.pool := rfl
@[simp] theorem modCtx_gpReject (s : State) (asid : Nat) (f : Ctx → Ctx) : (s.modCtx asid f).gpReject = s.gpReject := rfl
@[simp] theorem modCtx_allocs (s : State) (asid : Nat) (f : Ctx → Ctx) : (s.modCtx asid f).allocs = s.allocs := rfl
@[simp] theorem modCtx_exchanges (s : State) (asid : Nat) (f : Ctx → Ctx) : (s.modCtx asid f).exchanges = s.exchanges := rfl
@[simp] theorem modCtx_parted (s : State) (asid : Nat) (f : Ctx → Ctx) : (s.modCtx asid f).parted = s.parted := rfl
@[simp] theorem modCtx_setters (s : State) (asid : Nat) (f : Ctx → Ctx) : (s.modCtx asid f).setters = s.setters := rfl
@[simp] theorem modCtx_queues (s : State) (asid : Nat) (f : Ctx → Ctx) : (s.modCtx asid f).queues = s.queues := rfl
@[simp] theorem modCtx_launches (s : State) (asid : Nat) (f : Ctx → Ctx) : (s.modCtx asid f).launches = s.launches := rfl
@[simp] theorem modCtx_handles (s : State) (asid : Nat) (f : Ctx → Ctx) : (s.modCtx asid f).handles = s.handles := rfl
@[simp] theorem modCtx_runQueue (s : State) (asid : Nat) (f : Ctx → Ctx) : (s.modCtx asid f).runQueue = s.runQueue := rfl
@[simp] theorem modCtx_spawned (s : State) (asid : Nat) (f : Ctx → Ctx) : (s.modCtx asid f).spawned = s.spawned := rfl
@[simp] theorem modCtx_kilnChecks (s : State) (asid : Nat) (f : Ctx → Ctx) : (s.modCtx asid f).kilnChecks = s.kilnChecks := rfl
@[simp] theorem modCtx_clkStretch (s : State) (asid : Nat) (f : Ctx → Ctx) : (s.modCtx asid f).clkStretch = s.clkStretch := rfl
@[simp] theorem modCtx_pkgid (s : State) (asid : Nat) (f : Ctx → Ctx) : (s.modCtx asid f).pkgid = s.pkgid := rfl
@[simp] theorem modCtx_podsize (s : State) (asid : Nat) (f : Ctx → Ctx) : (s.modCtx asid f).podsize = s.podsize := rfl
@[simp] theorem modCtx_hostgib (s : State) (asid : Nat) (f : Ctx → Ctx) : (s.modCtx asid f).hostgib = s.hostgib := rfl
@[simp] theorem modCtx_fatalTraps (s : State) (asid : Nat) (f : Ctx → Ctx) : (s.modCtx asid f).fatalTraps = s.fatalTraps := rfl
@[simp] theorem modCtx_time (s : State) (asid : Nat) (f : Ctx → Ctx) : (s.modCtx asid f).time = s.time := rfl
@[simp] theorem modCtx_exited (s : State) (asid : Nat) (f : Ctx → Ctx) : (s.modCtx asid f).exited = s.exited := rfl
@[simp] theorem modCtx_waiting (s : State) (asid : Nat) (f : Ctx → Ctx) : (s.modCtx asid f).waiting = s.waiting := rfl
@[simp] theorem modCtx_sent (s : State) (asid : Nat) (f : Ctx → Ctx) : (s.modCtx asid f).sent = s.sent := rfl
@[simp] theorem modCtx_focus (s : State) (asid : Nat) (f : Ctx → Ctx) : (s.modCtx asid f).focus = s.focus := rfl
@[simp] theorem modCtx_input (s : State) (asid : Nat) (f : Ctx → Ctx) : (s.modCtx asid f).input = s.input := rfl
@[simp] theorem modCtx_agenda (s : State) (asid : Nat) (f : Ctx → Ctx) : (s.modCtx asid f).agenda = s.agenda := rfl
@[simp] theorem modCtx_slot2 (s : State) (asid : Nat) (f : Ctx → Ctx) : (s.modCtx asid f).slot2 = s.slot2 := rfl
@[simp] theorem modCtx_freeCtr (s : State) (asid : Nat) (f : Ctx → Ctx) : (s.modCtx asid f).freeCtr = s.freeCtr := rfl
@[simp] theorem modCtx_ticket (s : State) (asid : Nat) (f : Ctx → Ctx) : (s.modCtx asid f).ticket = s.ticket := rfl

/-! The fields after State.tick. -/

@[simp] theorem tick_waves (s : State)  : (s.tick).waves = s.waves := rfl
@[simp] theorem tick_blocks (s : State)  : (s.tick).blocks = s.blocks := rfl
@[simp] theorem tick_cores (s : State)  : (s.tick).cores = s.cores := rfl
@[simp] theorem tick_mem (s : State)  : (s.tick).mem = s.mem := rfl
@[simp] theorem tick_poison (s : State)  : (s.tick).poison = s.poison := rfl
@[simp] theorem tick_ecc (s : State)  : (s.tick).ecc = s.ecc := rfl
@[simp] theorem tick_dir (s : State)  : (s.tick).dir = s.dir := rfl
@[simp] theorem tick_flows (s : State)  : (s.tick).flows = s.flows := rfl
@[simp] theorem tick_softEcc (s : State)  : (s.tick).softEcc = s.softEcc := rfl
@[simp] theorem tick_corrected (s : State)  : (s.tick).corrected = s.corrected := rfl
@[simp] theorem tick_controller (s : State)  : (s.tick).controller = s.controller := rfl
@[simp] theorem tick_kmsgHeld (s : State)  : (s.tick).kmsgHeld = s.kmsgHeld := rfl
@[simp] theorem tick_arriving (s : State)  : (s.tick).arriving = s.arriving := rfl
@[simp] theorem tick_run (s : State)  : (s.tick).run = s.run := rfl
@[simp] theorem tick_bars (s : State)  : (s.tick).bars = s.bars := rfl
@[simp] theorem tick_tlb (s : State)  : (s.tick).tlb = s.tlb := rfl
@[simp] theorem tick_tables (s : State)  : (s.tick).tables = s.tables := rfl
@[simp] theorem tick_ctxs (s : State)  : (s.tick).ctxs = s.ctxs := rfl
@[simp] theorem tick_cfg (s : State)  : (s.tick).cfg = s.cfg := rfl
@[simp] theorem tick_harvest (s : State)  : (s.tick).harvest = s.harvest := rfl
@[simp] theorem tick_linkTrapW (s : State)  : (s.tick).linkTrapW = s.linkTrapW := rfl
@[simp] theorem tick_links (s : State)  : (s.tick).links = s.links := rfl
@[simp] theorem tick_linkCtl (s : State)  : (s.tick).linkCtl = s.linkCtl := rfl
@[simp] theorem tick_fabric (s : State)  : (s.tick).fabric = s.fabric := rfl
@[simp] theorem tick_bringup (s : State)  : (s.tick).bringup = s.bringup := rfl
@[simp] theorem tick_host (s : State)  : (s.tick).host = s.host := rfl
@[simp] theorem tick_infoPage (s : State)  : (s.tick).infoPage = s.infoPage := rfl
@[simp] theorem tick_rxDrop (s : State)  : (s.tick).rxDrop = s.rxDrop := rfl
@[simp] theorem tick_ethMsgUdp (s : State)  : (s.tick).ethMsgUdp = s.ethMsgUdp := rfl
@[simp] theorem tick_ptpLock (s : State)  : (s.tick).ptpLock = s.ptpLock := rfl
@[simp] theorem tick_ptpEver (s : State)  : (s.tick).ptpEver = s.ptpEver := rfl
@[simp] theorem tick_unexpected (s : State)  : (s.tick).unexpected = s.unexpected := rfl
@[simp] theorem tick_objs (s : State)  : (s.tick).objs = s.objs := rfl
@[simp] theorem tick_names (s : State)  : (s.tick).names = s.names := rfl
@[simp] theorem tick_kmsgs (s : State)  : (s.tick).kmsgs = s.kmsgs := rfl
@[simp] theorem tick_kmsgNext (s : State)  : (s.tick).kmsgNext = s.kmsgNext := rfl
@[simp] theorem tick_kmsgSeen (s : State)  : (s.tick).kmsgSeen = s.kmsgSeen := rfl
@[simp] theorem tick_pool (s : State)  : (s.tick).pool = s.pool := rfl
@[simp] theorem tick_gpReject (s : State)  : (s.tick).gpReject = s.gpReject := rfl
@[simp] theorem tick_allocs (s : State)  : (s.tick).allocs = s.allocs := rfl
@[simp] theorem tick_exchanges (s : State)  : (s.tick).exchanges = s.exchanges := rfl
@[simp] theorem tick_parted (s : State)  : (s.tick).parted = s.parted := rfl
@[simp] theorem tick_setters (s : State)  : (s.tick).setters = s.setters := rfl
@[simp] theorem tick_queues (s : State)  : (s.tick).queues = s.queues := rfl
@[simp] theorem tick_launches (s : State)  : (s.tick).launches = s.launches := rfl
@[simp] theorem tick_handles (s : State)  : (s.tick).handles = s.handles := rfl
@[simp] theorem tick_runQueue (s : State)  : (s.tick).runQueue = s.runQueue := rfl
@[simp] theorem tick_spawned (s : State)  : (s.tick).spawned = s.spawned := rfl
@[simp] theorem tick_kilnChecks (s : State)  : (s.tick).kilnChecks = s.kilnChecks := rfl
@[simp] theorem tick_clkStretch (s : State)  : (s.tick).clkStretch = s.clkStretch := rfl
@[simp] theorem tick_pkgid (s : State)  : (s.tick).pkgid = s.pkgid := rfl
@[simp] theorem tick_podsize (s : State)  : (s.tick).podsize = s.podsize := rfl
@[simp] theorem tick_hostgib (s : State)  : (s.tick).hostgib = s.hostgib := rfl
@[simp] theorem tick_fatalTraps (s : State)  : (s.tick).fatalTraps = s.fatalTraps := rfl
@[simp] theorem tick_time (s : State)  : (s.tick).time = s.time := rfl
@[simp] theorem tick_exited (s : State)  : (s.tick).exited = s.exited := rfl
@[simp] theorem tick_waiting (s : State)  : (s.tick).waiting = s.waiting := rfl
@[simp] theorem tick_sent (s : State)  : (s.tick).sent = s.sent := rfl
@[simp] theorem tick_focus (s : State)  : (s.tick).focus = s.focus := rfl
@[simp] theorem tick_input (s : State)  : (s.tick).input = s.input := rfl
@[simp] theorem tick_agenda (s : State)  : (s.tick).agenda = s.agenda := rfl
@[simp] theorem tick_slot2 (s : State)  : (s.tick).slot2 = s.slot2 := rfl
@[simp] theorem tick_freeCtr (s : State)  : (s.tick).freeCtr = s.freeCtr := rfl
@[simp] theorem tick_ticket (s : State)  : (s.tick).ticket = s.ticket + 1 := rfl

/-! The fields after State.setObj. -/

@[simp] theorem setObj_waves (s : State) (idx : Nat) (o : Obj) : (s.setObj idx o).waves = s.waves := rfl
@[simp] theorem setObj_blocks (s : State) (idx : Nat) (o : Obj) : (s.setObj idx o).blocks = s.blocks := rfl
@[simp] theorem setObj_cores (s : State) (idx : Nat) (o : Obj) : (s.setObj idx o).cores = s.cores := rfl
@[simp] theorem setObj_mem (s : State) (idx : Nat) (o : Obj) : (s.setObj idx o).mem = s.mem := rfl
@[simp] theorem setObj_poison (s : State) (idx : Nat) (o : Obj) : (s.setObj idx o).poison = s.poison := rfl
@[simp] theorem setObj_ecc (s : State) (idx : Nat) (o : Obj) : (s.setObj idx o).ecc = s.ecc := rfl
@[simp] theorem setObj_dir (s : State) (idx : Nat) (o : Obj) : (s.setObj idx o).dir = s.dir := rfl
@[simp] theorem setObj_flows (s : State) (idx : Nat) (o : Obj) : (s.setObj idx o).flows = s.flows := rfl
@[simp] theorem setObj_softEcc (s : State) (idx : Nat) (o : Obj) : (s.setObj idx o).softEcc = s.softEcc := rfl
@[simp] theorem setObj_corrected (s : State) (idx : Nat) (o : Obj) : (s.setObj idx o).corrected = s.corrected := rfl
@[simp] theorem setObj_controller (s : State) (idx : Nat) (o : Obj) : (s.setObj idx o).controller = s.controller := rfl
@[simp] theorem setObj_kmsgHeld (s : State) (idx : Nat) (o : Obj) : (s.setObj idx o).kmsgHeld = s.kmsgHeld := rfl
@[simp] theorem setObj_arriving (s : State) (idx : Nat) (o : Obj) : (s.setObj idx o).arriving = s.arriving := rfl
@[simp] theorem setObj_run (s : State) (idx : Nat) (o : Obj) : (s.setObj idx o).run = s.run := rfl
@[simp] theorem setObj_bars (s : State) (idx : Nat) (o : Obj) : (s.setObj idx o).bars = s.bars := rfl
@[simp] theorem setObj_tlb (s : State) (idx : Nat) (o : Obj) : (s.setObj idx o).tlb = s.tlb := rfl
@[simp] theorem setObj_tables (s : State) (idx : Nat) (o : Obj) : (s.setObj idx o).tables = s.tables := rfl
@[simp] theorem setObj_ctxs (s : State) (idx : Nat) (o : Obj) : (s.setObj idx o).ctxs = s.ctxs := rfl
@[simp] theorem setObj_cfg (s : State) (idx : Nat) (o : Obj) : (s.setObj idx o).cfg = s.cfg := rfl
@[simp] theorem setObj_harvest (s : State) (idx : Nat) (o : Obj) : (s.setObj idx o).harvest = s.harvest := rfl
@[simp] theorem setObj_linkTrapW (s : State) (idx : Nat) (o : Obj) : (s.setObj idx o).linkTrapW = s.linkTrapW := rfl
@[simp] theorem setObj_links (s : State) (idx : Nat) (o : Obj) : (s.setObj idx o).links = s.links := rfl
@[simp] theorem setObj_linkCtl (s : State) (idx : Nat) (o : Obj) : (s.setObj idx o).linkCtl = s.linkCtl := rfl
@[simp] theorem setObj_fabric (s : State) (idx : Nat) (o : Obj) : (s.setObj idx o).fabric = s.fabric := rfl
@[simp] theorem setObj_bringup (s : State) (idx : Nat) (o : Obj) : (s.setObj idx o).bringup = s.bringup := rfl
@[simp] theorem setObj_host (s : State) (idx : Nat) (o : Obj) : (s.setObj idx o).host = s.host := rfl
@[simp] theorem setObj_infoPage (s : State) (idx : Nat) (o : Obj) : (s.setObj idx o).infoPage = s.infoPage := rfl
@[simp] theorem setObj_rxDrop (s : State) (idx : Nat) (o : Obj) : (s.setObj idx o).rxDrop = s.rxDrop := rfl
@[simp] theorem setObj_ethMsgUdp (s : State) (idx : Nat) (o : Obj) : (s.setObj idx o).ethMsgUdp = s.ethMsgUdp := rfl
@[simp] theorem setObj_ptpLock (s : State) (idx : Nat) (o : Obj) : (s.setObj idx o).ptpLock = s.ptpLock := rfl
@[simp] theorem setObj_ptpEver (s : State) (idx : Nat) (o : Obj) : (s.setObj idx o).ptpEver = s.ptpEver := rfl
@[simp] theorem setObj_unexpected (s : State) (idx : Nat) (o : Obj) : (s.setObj idx o).unexpected = s.unexpected := rfl
@[simp] theorem setObj_objs (s : State) (idx : Nat) (o : Obj) : (s.setObj idx o).objs = sput s.objs idx o := rfl
@[simp] theorem setObj_names (s : State) (idx : Nat) (o : Obj) : (s.setObj idx o).names = s.names := rfl
@[simp] theorem setObj_kmsgs (s : State) (idx : Nat) (o : Obj) : (s.setObj idx o).kmsgs = s.kmsgs := rfl
@[simp] theorem setObj_kmsgNext (s : State) (idx : Nat) (o : Obj) : (s.setObj idx o).kmsgNext = s.kmsgNext := rfl
@[simp] theorem setObj_kmsgSeen (s : State) (idx : Nat) (o : Obj) : (s.setObj idx o).kmsgSeen = s.kmsgSeen := rfl
@[simp] theorem setObj_pool (s : State) (idx : Nat) (o : Obj) : (s.setObj idx o).pool = s.pool := rfl
@[simp] theorem setObj_gpReject (s : State) (idx : Nat) (o : Obj) : (s.setObj idx o).gpReject = s.gpReject := rfl
@[simp] theorem setObj_allocs (s : State) (idx : Nat) (o : Obj) : (s.setObj idx o).allocs = s.allocs := rfl
@[simp] theorem setObj_exchanges (s : State) (idx : Nat) (o : Obj) : (s.setObj idx o).exchanges = s.exchanges := rfl
@[simp] theorem setObj_parted (s : State) (idx : Nat) (o : Obj) : (s.setObj idx o).parted = s.parted := rfl
@[simp] theorem setObj_setters (s : State) (idx : Nat) (o : Obj) : (s.setObj idx o).setters = s.setters := rfl
@[simp] theorem setObj_queues (s : State) (idx : Nat) (o : Obj) : (s.setObj idx o).queues = s.queues := rfl
@[simp] theorem setObj_launches (s : State) (idx : Nat) (o : Obj) : (s.setObj idx o).launches = s.launches := rfl
@[simp] theorem setObj_handles (s : State) (idx : Nat) (o : Obj) : (s.setObj idx o).handles = s.handles := rfl
@[simp] theorem setObj_runQueue (s : State) (idx : Nat) (o : Obj) : (s.setObj idx o).runQueue = s.runQueue := rfl
@[simp] theorem setObj_spawned (s : State) (idx : Nat) (o : Obj) : (s.setObj idx o).spawned = s.spawned := rfl
@[simp] theorem setObj_kilnChecks (s : State) (idx : Nat) (o : Obj) : (s.setObj idx o).kilnChecks = s.kilnChecks := rfl
@[simp] theorem setObj_clkStretch (s : State) (idx : Nat) (o : Obj) : (s.setObj idx o).clkStretch = s.clkStretch := rfl
@[simp] theorem setObj_pkgid (s : State) (idx : Nat) (o : Obj) : (s.setObj idx o).pkgid = s.pkgid := rfl
@[simp] theorem setObj_podsize (s : State) (idx : Nat) (o : Obj) : (s.setObj idx o).podsize = s.podsize := rfl
@[simp] theorem setObj_hostgib (s : State) (idx : Nat) (o : Obj) : (s.setObj idx o).hostgib = s.hostgib := rfl
@[simp] theorem setObj_fatalTraps (s : State) (idx : Nat) (o : Obj) : (s.setObj idx o).fatalTraps = s.fatalTraps := rfl
@[simp] theorem setObj_time (s : State) (idx : Nat) (o : Obj) : (s.setObj idx o).time = s.time := rfl
@[simp] theorem setObj_exited (s : State) (idx : Nat) (o : Obj) : (s.setObj idx o).exited = s.exited := rfl
@[simp] theorem setObj_waiting (s : State) (idx : Nat) (o : Obj) : (s.setObj idx o).waiting = s.waiting := rfl
@[simp] theorem setObj_sent (s : State) (idx : Nat) (o : Obj) : (s.setObj idx o).sent = s.sent := rfl
@[simp] theorem setObj_focus (s : State) (idx : Nat) (o : Obj) : (s.setObj idx o).focus = s.focus := rfl
@[simp] theorem setObj_input (s : State) (idx : Nat) (o : Obj) : (s.setObj idx o).input = s.input := rfl
@[simp] theorem setObj_agenda (s : State) (idx : Nat) (o : Obj) : (s.setObj idx o).agenda = s.agenda := rfl
@[simp] theorem setObj_slot2 (s : State) (idx : Nat) (o : Obj) : (s.setObj idx o).slot2 = s.slot2 := rfl
@[simp] theorem setObj_freeCtr (s : State) (idx : Nat) (o : Obj) : (s.setObj idx o).freeCtr = s.freeCtr := rfl
@[simp] theorem setObj_ticket (s : State) (idx : Nat) (o : Obj) : (s.setObj idx o).ticket = s.ticket := rfl

/-! The fields after State.setBody. -/

@[simp] theorem setBody_waves (s : State) (idx : Nat) (b : Body) : (s.setBody idx b).waves = s.waves := rfl
@[simp] theorem setBody_blocks (s : State) (idx : Nat) (b : Body) : (s.setBody idx b).blocks = s.blocks := rfl
@[simp] theorem setBody_cores (s : State) (idx : Nat) (b : Body) : (s.setBody idx b).cores = s.cores := rfl
@[simp] theorem setBody_mem (s : State) (idx : Nat) (b : Body) : (s.setBody idx b).mem = s.mem := rfl
@[simp] theorem setBody_poison (s : State) (idx : Nat) (b : Body) : (s.setBody idx b).poison = s.poison := rfl
@[simp] theorem setBody_ecc (s : State) (idx : Nat) (b : Body) : (s.setBody idx b).ecc = s.ecc := rfl
@[simp] theorem setBody_dir (s : State) (idx : Nat) (b : Body) : (s.setBody idx b).dir = s.dir := rfl
@[simp] theorem setBody_flows (s : State) (idx : Nat) (b : Body) : (s.setBody idx b).flows = s.flows := rfl
@[simp] theorem setBody_softEcc (s : State) (idx : Nat) (b : Body) : (s.setBody idx b).softEcc = s.softEcc := rfl
@[simp] theorem setBody_corrected (s : State) (idx : Nat) (b : Body) : (s.setBody idx b).corrected = s.corrected := rfl
@[simp] theorem setBody_controller (s : State) (idx : Nat) (b : Body) : (s.setBody idx b).controller = s.controller := rfl
@[simp] theorem setBody_kmsgHeld (s : State) (idx : Nat) (b : Body) : (s.setBody idx b).kmsgHeld = s.kmsgHeld := rfl
@[simp] theorem setBody_arriving (s : State) (idx : Nat) (b : Body) : (s.setBody idx b).arriving = s.arriving := rfl
@[simp] theorem setBody_run (s : State) (idx : Nat) (b : Body) : (s.setBody idx b).run = s.run := rfl
@[simp] theorem setBody_bars (s : State) (idx : Nat) (b : Body) : (s.setBody idx b).bars = s.bars := rfl
@[simp] theorem setBody_tlb (s : State) (idx : Nat) (b : Body) : (s.setBody idx b).tlb = s.tlb := rfl
@[simp] theorem setBody_tables (s : State) (idx : Nat) (b : Body) : (s.setBody idx b).tables = s.tables := rfl
@[simp] theorem setBody_ctxs (s : State) (idx : Nat) (b : Body) : (s.setBody idx b).ctxs = s.ctxs := rfl
@[simp] theorem setBody_cfg (s : State) (idx : Nat) (b : Body) : (s.setBody idx b).cfg = s.cfg := rfl
@[simp] theorem setBody_harvest (s : State) (idx : Nat) (b : Body) : (s.setBody idx b).harvest = s.harvest := rfl
@[simp] theorem setBody_linkTrapW (s : State) (idx : Nat) (b : Body) : (s.setBody idx b).linkTrapW = s.linkTrapW := rfl
@[simp] theorem setBody_links (s : State) (idx : Nat) (b : Body) : (s.setBody idx b).links = s.links := rfl
@[simp] theorem setBody_linkCtl (s : State) (idx : Nat) (b : Body) : (s.setBody idx b).linkCtl = s.linkCtl := rfl
@[simp] theorem setBody_fabric (s : State) (idx : Nat) (b : Body) : (s.setBody idx b).fabric = s.fabric := rfl
@[simp] theorem setBody_bringup (s : State) (idx : Nat) (b : Body) : (s.setBody idx b).bringup = s.bringup := rfl
@[simp] theorem setBody_host (s : State) (idx : Nat) (b : Body) : (s.setBody idx b).host = s.host := rfl
@[simp] theorem setBody_infoPage (s : State) (idx : Nat) (b : Body) : (s.setBody idx b).infoPage = s.infoPage := rfl
@[simp] theorem setBody_rxDrop (s : State) (idx : Nat) (b : Body) : (s.setBody idx b).rxDrop = s.rxDrop := rfl
@[simp] theorem setBody_ethMsgUdp (s : State) (idx : Nat) (b : Body) : (s.setBody idx b).ethMsgUdp = s.ethMsgUdp := rfl
@[simp] theorem setBody_ptpLock (s : State) (idx : Nat) (b : Body) : (s.setBody idx b).ptpLock = s.ptpLock := rfl
@[simp] theorem setBody_ptpEver (s : State) (idx : Nat) (b : Body) : (s.setBody idx b).ptpEver = s.ptpEver := rfl
@[simp] theorem setBody_unexpected (s : State) (idx : Nat) (b : Body) : (s.setBody idx b).unexpected = s.unexpected := rfl
@[simp] theorem setBody_names (s : State) (idx : Nat) (b : Body) : (s.setBody idx b).names = s.names := rfl
@[simp] theorem setBody_kmsgs (s : State) (idx : Nat) (b : Body) : (s.setBody idx b).kmsgs = s.kmsgs := rfl
@[simp] theorem setBody_kmsgNext (s : State) (idx : Nat) (b : Body) : (s.setBody idx b).kmsgNext = s.kmsgNext := rfl
@[simp] theorem setBody_kmsgSeen (s : State) (idx : Nat) (b : Body) : (s.setBody idx b).kmsgSeen = s.kmsgSeen := rfl
@[simp] theorem setBody_pool (s : State) (idx : Nat) (b : Body) : (s.setBody idx b).pool = s.pool := rfl
@[simp] theorem setBody_gpReject (s : State) (idx : Nat) (b : Body) : (s.setBody idx b).gpReject = s.gpReject := rfl
@[simp] theorem setBody_allocs (s : State) (idx : Nat) (b : Body) : (s.setBody idx b).allocs = s.allocs := rfl
@[simp] theorem setBody_exchanges (s : State) (idx : Nat) (b : Body) : (s.setBody idx b).exchanges = s.exchanges := rfl
@[simp] theorem setBody_parted (s : State) (idx : Nat) (b : Body) : (s.setBody idx b).parted = s.parted := rfl
@[simp] theorem setBody_setters (s : State) (idx : Nat) (b : Body) : (s.setBody idx b).setters = s.setters := rfl
@[simp] theorem setBody_queues (s : State) (idx : Nat) (b : Body) : (s.setBody idx b).queues = s.queues := rfl
@[simp] theorem setBody_launches (s : State) (idx : Nat) (b : Body) : (s.setBody idx b).launches = s.launches := rfl
@[simp] theorem setBody_handles (s : State) (idx : Nat) (b : Body) : (s.setBody idx b).handles = s.handles := rfl
@[simp] theorem setBody_runQueue (s : State) (idx : Nat) (b : Body) : (s.setBody idx b).runQueue = s.runQueue := rfl
@[simp] theorem setBody_spawned (s : State) (idx : Nat) (b : Body) : (s.setBody idx b).spawned = s.spawned := rfl
@[simp] theorem setBody_kilnChecks (s : State) (idx : Nat) (b : Body) : (s.setBody idx b).kilnChecks = s.kilnChecks := rfl
@[simp] theorem setBody_clkStretch (s : State) (idx : Nat) (b : Body) : (s.setBody idx b).clkStretch = s.clkStretch := rfl
@[simp] theorem setBody_pkgid (s : State) (idx : Nat) (b : Body) : (s.setBody idx b).pkgid = s.pkgid := rfl
@[simp] theorem setBody_podsize (s : State) (idx : Nat) (b : Body) : (s.setBody idx b).podsize = s.podsize := rfl
@[simp] theorem setBody_hostgib (s : State) (idx : Nat) (b : Body) : (s.setBody idx b).hostgib = s.hostgib := rfl
@[simp] theorem setBody_fatalTraps (s : State) (idx : Nat) (b : Body) : (s.setBody idx b).fatalTraps = s.fatalTraps := rfl
@[simp] theorem setBody_time (s : State) (idx : Nat) (b : Body) : (s.setBody idx b).time = s.time := rfl
@[simp] theorem setBody_exited (s : State) (idx : Nat) (b : Body) : (s.setBody idx b).exited = s.exited := rfl
@[simp] theorem setBody_waiting (s : State) (idx : Nat) (b : Body) : (s.setBody idx b).waiting = s.waiting := rfl
@[simp] theorem setBody_sent (s : State) (idx : Nat) (b : Body) : (s.setBody idx b).sent = s.sent := rfl
@[simp] theorem setBody_focus (s : State) (idx : Nat) (b : Body) : (s.setBody idx b).focus = s.focus := rfl
@[simp] theorem setBody_input (s : State) (idx : Nat) (b : Body) : (s.setBody idx b).input = s.input := rfl
@[simp] theorem setBody_agenda (s : State) (idx : Nat) (b : Body) : (s.setBody idx b).agenda = s.agenda := rfl
@[simp] theorem setBody_slot2 (s : State) (idx : Nat) (b : Body) : (s.setBody idx b).slot2 = s.slot2 := rfl
@[simp] theorem setBody_freeCtr (s : State) (idx : Nat) (b : Body) : (s.setBody idx b).freeCtr = s.freeCtr := rfl
@[simp] theorem setBody_ticket (s : State) (idx : Nat) (b : Body) : (s.setBody idx b).ticket = s.ticket := rfl

/-! The fields after State.setLink. -/

@[simp] theorem setLink_waves (s : State) (i : Nat) (k : LinkRegs) : (s.setLink i k).waves = s.waves := rfl
@[simp] theorem setLink_blocks (s : State) (i : Nat) (k : LinkRegs) : (s.setLink i k).blocks = s.blocks := rfl
@[simp] theorem setLink_cores (s : State) (i : Nat) (k : LinkRegs) : (s.setLink i k).cores = s.cores := rfl
@[simp] theorem setLink_mem (s : State) (i : Nat) (k : LinkRegs) : (s.setLink i k).mem = s.mem := rfl
@[simp] theorem setLink_poison (s : State) (i : Nat) (k : LinkRegs) : (s.setLink i k).poison = s.poison := rfl
@[simp] theorem setLink_ecc (s : State) (i : Nat) (k : LinkRegs) : (s.setLink i k).ecc = s.ecc := rfl
@[simp] theorem setLink_dir (s : State) (i : Nat) (k : LinkRegs) : (s.setLink i k).dir = s.dir := rfl
@[simp] theorem setLink_flows (s : State) (i : Nat) (k : LinkRegs) : (s.setLink i k).flows = s.flows := rfl
@[simp] theorem setLink_softEcc (s : State) (i : Nat) (k : LinkRegs) : (s.setLink i k).softEcc = s.softEcc := rfl
@[simp] theorem setLink_corrected (s : State) (i : Nat) (k : LinkRegs) : (s.setLink i k).corrected = s.corrected := rfl
@[simp] theorem setLink_controller (s : State) (i : Nat) (k : LinkRegs) : (s.setLink i k).controller = s.controller := rfl
@[simp] theorem setLink_kmsgHeld (s : State) (i : Nat) (k : LinkRegs) : (s.setLink i k).kmsgHeld = s.kmsgHeld := rfl
@[simp] theorem setLink_arriving (s : State) (i : Nat) (k : LinkRegs) : (s.setLink i k).arriving = s.arriving := rfl
@[simp] theorem setLink_run (s : State) (i : Nat) (k : LinkRegs) : (s.setLink i k).run = s.run := rfl
@[simp] theorem setLink_bars (s : State) (i : Nat) (k : LinkRegs) : (s.setLink i k).bars = s.bars := rfl
@[simp] theorem setLink_tlb (s : State) (i : Nat) (k : LinkRegs) : (s.setLink i k).tlb = s.tlb := rfl
@[simp] theorem setLink_tables (s : State) (i : Nat) (k : LinkRegs) : (s.setLink i k).tables = s.tables := rfl
@[simp] theorem setLink_ctxs (s : State) (i : Nat) (k : LinkRegs) : (s.setLink i k).ctxs = s.ctxs := rfl
@[simp] theorem setLink_cfg (s : State) (i : Nat) (k : LinkRegs) : (s.setLink i k).cfg = s.cfg := rfl
@[simp] theorem setLink_harvest (s : State) (i : Nat) (k : LinkRegs) : (s.setLink i k).harvest = s.harvest := rfl
@[simp] theorem setLink_linkTrapW (s : State) (i : Nat) (k : LinkRegs) : (s.setLink i k).linkTrapW = s.linkTrapW := rfl
@[simp] theorem setLink_links (s : State) (i : Nat) (k : LinkRegs) : (s.setLink i k).links = s.links.set i k := rfl
@[simp] theorem setLink_linkCtl (s : State) (i : Nat) (k : LinkRegs) : (s.setLink i k).linkCtl = s.linkCtl := rfl
@[simp] theorem setLink_fabric (s : State) (i : Nat) (k : LinkRegs) : (s.setLink i k).fabric = s.fabric := rfl
@[simp] theorem setLink_bringup (s : State) (i : Nat) (k : LinkRegs) : (s.setLink i k).bringup = s.bringup := rfl
@[simp] theorem setLink_host (s : State) (i : Nat) (k : LinkRegs) : (s.setLink i k).host = s.host := rfl
@[simp] theorem setLink_infoPage (s : State) (i : Nat) (k : LinkRegs) : (s.setLink i k).infoPage = s.infoPage := rfl
@[simp] theorem setLink_rxDrop (s : State) (i : Nat) (k : LinkRegs) : (s.setLink i k).rxDrop = s.rxDrop := rfl
@[simp] theorem setLink_ethMsgUdp (s : State) (i : Nat) (k : LinkRegs) : (s.setLink i k).ethMsgUdp = s.ethMsgUdp := rfl
@[simp] theorem setLink_ptpLock (s : State) (i : Nat) (k : LinkRegs) : (s.setLink i k).ptpLock = s.ptpLock := rfl
@[simp] theorem setLink_ptpEver (s : State) (i : Nat) (k : LinkRegs) : (s.setLink i k).ptpEver = s.ptpEver := rfl
@[simp] theorem setLink_unexpected (s : State) (i : Nat) (k : LinkRegs) : (s.setLink i k).unexpected = s.unexpected := rfl
@[simp] theorem setLink_objs (s : State) (i : Nat) (k : LinkRegs) : (s.setLink i k).objs = s.objs := rfl
@[simp] theorem setLink_names (s : State) (i : Nat) (k : LinkRegs) : (s.setLink i k).names = s.names := rfl
@[simp] theorem setLink_kmsgs (s : State) (i : Nat) (k : LinkRegs) : (s.setLink i k).kmsgs = s.kmsgs := rfl
@[simp] theorem setLink_kmsgNext (s : State) (i : Nat) (k : LinkRegs) : (s.setLink i k).kmsgNext = s.kmsgNext := rfl
@[simp] theorem setLink_kmsgSeen (s : State) (i : Nat) (k : LinkRegs) : (s.setLink i k).kmsgSeen = s.kmsgSeen := rfl
@[simp] theorem setLink_pool (s : State) (i : Nat) (k : LinkRegs) : (s.setLink i k).pool = s.pool := rfl
@[simp] theorem setLink_gpReject (s : State) (i : Nat) (k : LinkRegs) : (s.setLink i k).gpReject = s.gpReject := rfl
@[simp] theorem setLink_allocs (s : State) (i : Nat) (k : LinkRegs) : (s.setLink i k).allocs = s.allocs := rfl
@[simp] theorem setLink_exchanges (s : State) (i : Nat) (k : LinkRegs) : (s.setLink i k).exchanges = s.exchanges := rfl
@[simp] theorem setLink_parted (s : State) (i : Nat) (k : LinkRegs) : (s.setLink i k).parted = s.parted := rfl
@[simp] theorem setLink_setters (s : State) (i : Nat) (k : LinkRegs) : (s.setLink i k).setters = s.setters := rfl
@[simp] theorem setLink_queues (s : State) (i : Nat) (k : LinkRegs) : (s.setLink i k).queues = s.queues := rfl
@[simp] theorem setLink_launches (s : State) (i : Nat) (k : LinkRegs) : (s.setLink i k).launches = s.launches := rfl
@[simp] theorem setLink_handles (s : State) (i : Nat) (k : LinkRegs) : (s.setLink i k).handles = s.handles := rfl
@[simp] theorem setLink_runQueue (s : State) (i : Nat) (k : LinkRegs) : (s.setLink i k).runQueue = s.runQueue := rfl
@[simp] theorem setLink_spawned (s : State) (i : Nat) (k : LinkRegs) : (s.setLink i k).spawned = s.spawned := rfl
@[simp] theorem setLink_kilnChecks (s : State) (i : Nat) (k : LinkRegs) : (s.setLink i k).kilnChecks = s.kilnChecks := rfl
@[simp] theorem setLink_clkStretch (s : State) (i : Nat) (k : LinkRegs) : (s.setLink i k).clkStretch = s.clkStretch := rfl
@[simp] theorem setLink_pkgid (s : State) (i : Nat) (k : LinkRegs) : (s.setLink i k).pkgid = s.pkgid := rfl
@[simp] theorem setLink_podsize (s : State) (i : Nat) (k : LinkRegs) : (s.setLink i k).podsize = s.podsize := rfl
@[simp] theorem setLink_hostgib (s : State) (i : Nat) (k : LinkRegs) : (s.setLink i k).hostgib = s.hostgib := rfl
@[simp] theorem setLink_fatalTraps (s : State) (i : Nat) (k : LinkRegs) : (s.setLink i k).fatalTraps = s.fatalTraps := rfl
@[simp] theorem setLink_time (s : State) (i : Nat) (k : LinkRegs) : (s.setLink i k).time = s.time := rfl
@[simp] theorem setLink_exited (s : State) (i : Nat) (k : LinkRegs) : (s.setLink i k).exited = s.exited := rfl
@[simp] theorem setLink_waiting (s : State) (i : Nat) (k : LinkRegs) : (s.setLink i k).waiting = s.waiting := rfl
@[simp] theorem setLink_sent (s : State) (i : Nat) (k : LinkRegs) : (s.setLink i k).sent = s.sent := rfl
@[simp] theorem setLink_focus (s : State) (i : Nat) (k : LinkRegs) : (s.setLink i k).focus = s.focus := rfl
@[simp] theorem setLink_input (s : State) (i : Nat) (k : LinkRegs) : (s.setLink i k).input = s.input := rfl
@[simp] theorem setLink_agenda (s : State) (i : Nat) (k : LinkRegs) : (s.setLink i k).agenda = s.agenda := rfl
@[simp] theorem setLink_slot2 (s : State) (i : Nat) (k : LinkRegs) : (s.setLink i k).slot2 = s.slot2 := rfl
@[simp] theorem setLink_freeCtr (s : State) (i : Nat) (k : LinkRegs) : (s.setLink i k).freeCtr = s.freeCtr := rfl
@[simp] theorem setLink_ticket (s : State) (i : Nat) (k : LinkRegs) : (s.setLink i k).ticket = s.ticket := rfl

/-! The fields after State.setQueue. -/

@[simp] theorem setQueue_waves (s : State) (q : Nat) (x : HostQueue) : (s.setQueue q x).waves = s.waves := rfl
@[simp] theorem setQueue_blocks (s : State) (q : Nat) (x : HostQueue) : (s.setQueue q x).blocks = s.blocks := rfl
@[simp] theorem setQueue_cores (s : State) (q : Nat) (x : HostQueue) : (s.setQueue q x).cores = s.cores := rfl
@[simp] theorem setQueue_mem (s : State) (q : Nat) (x : HostQueue) : (s.setQueue q x).mem = s.mem := rfl
@[simp] theorem setQueue_poison (s : State) (q : Nat) (x : HostQueue) : (s.setQueue q x).poison = s.poison := rfl
@[simp] theorem setQueue_ecc (s : State) (q : Nat) (x : HostQueue) : (s.setQueue q x).ecc = s.ecc := rfl
@[simp] theorem setQueue_dir (s : State) (q : Nat) (x : HostQueue) : (s.setQueue q x).dir = s.dir := rfl
@[simp] theorem setQueue_flows (s : State) (q : Nat) (x : HostQueue) : (s.setQueue q x).flows = s.flows := rfl
@[simp] theorem setQueue_softEcc (s : State) (q : Nat) (x : HostQueue) : (s.setQueue q x).softEcc = s.softEcc := rfl
@[simp] theorem setQueue_corrected (s : State) (q : Nat) (x : HostQueue) : (s.setQueue q x).corrected = s.corrected := rfl
@[simp] theorem setQueue_controller (s : State) (q : Nat) (x : HostQueue) : (s.setQueue q x).controller = s.controller := rfl
@[simp] theorem setQueue_kmsgHeld (s : State) (q : Nat) (x : HostQueue) : (s.setQueue q x).kmsgHeld = s.kmsgHeld := rfl
@[simp] theorem setQueue_arriving (s : State) (q : Nat) (x : HostQueue) : (s.setQueue q x).arriving = s.arriving := rfl
@[simp] theorem setQueue_run (s : State) (q : Nat) (x : HostQueue) : (s.setQueue q x).run = s.run := rfl
@[simp] theorem setQueue_bars (s : State) (q : Nat) (x : HostQueue) : (s.setQueue q x).bars = s.bars := rfl
@[simp] theorem setQueue_tlb (s : State) (q : Nat) (x : HostQueue) : (s.setQueue q x).tlb = s.tlb := rfl
@[simp] theorem setQueue_tables (s : State) (q : Nat) (x : HostQueue) : (s.setQueue q x).tables = s.tables := rfl
@[simp] theorem setQueue_ctxs (s : State) (q : Nat) (x : HostQueue) : (s.setQueue q x).ctxs = s.ctxs := rfl
@[simp] theorem setQueue_cfg (s : State) (q : Nat) (x : HostQueue) : (s.setQueue q x).cfg = s.cfg := rfl
@[simp] theorem setQueue_harvest (s : State) (q : Nat) (x : HostQueue) : (s.setQueue q x).harvest = s.harvest := rfl
@[simp] theorem setQueue_linkTrapW (s : State) (q : Nat) (x : HostQueue) : (s.setQueue q x).linkTrapW = s.linkTrapW := rfl
@[simp] theorem setQueue_links (s : State) (q : Nat) (x : HostQueue) : (s.setQueue q x).links = s.links := rfl
@[simp] theorem setQueue_linkCtl (s : State) (q : Nat) (x : HostQueue) : (s.setQueue q x).linkCtl = s.linkCtl := rfl
@[simp] theorem setQueue_fabric (s : State) (q : Nat) (x : HostQueue) : (s.setQueue q x).fabric = s.fabric := rfl
@[simp] theorem setQueue_bringup (s : State) (q : Nat) (x : HostQueue) : (s.setQueue q x).bringup = s.bringup := rfl
@[simp] theorem setQueue_host (s : State) (q : Nat) (x : HostQueue) : (s.setQueue q x).host = s.host := rfl
@[simp] theorem setQueue_infoPage (s : State) (q : Nat) (x : HostQueue) : (s.setQueue q x).infoPage = s.infoPage := rfl
@[simp] theorem setQueue_rxDrop (s : State) (q : Nat) (x : HostQueue) : (s.setQueue q x).rxDrop = s.rxDrop := rfl
@[simp] theorem setQueue_ethMsgUdp (s : State) (q : Nat) (x : HostQueue) : (s.setQueue q x).ethMsgUdp = s.ethMsgUdp := rfl
@[simp] theorem setQueue_ptpLock (s : State) (q : Nat) (x : HostQueue) : (s.setQueue q x).ptpLock = s.ptpLock := rfl
@[simp] theorem setQueue_ptpEver (s : State) (q : Nat) (x : HostQueue) : (s.setQueue q x).ptpEver = s.ptpEver := rfl
@[simp] theorem setQueue_unexpected (s : State) (q : Nat) (x : HostQueue) : (s.setQueue q x).unexpected = s.unexpected := rfl
@[simp] theorem setQueue_objs (s : State) (q : Nat) (x : HostQueue) : (s.setQueue q x).objs = s.objs := rfl
@[simp] theorem setQueue_names (s : State) (q : Nat) (x : HostQueue) : (s.setQueue q x).names = s.names := rfl
@[simp] theorem setQueue_kmsgs (s : State) (q : Nat) (x : HostQueue) : (s.setQueue q x).kmsgs = s.kmsgs := rfl
@[simp] theorem setQueue_kmsgNext (s : State) (q : Nat) (x : HostQueue) : (s.setQueue q x).kmsgNext = s.kmsgNext := rfl
@[simp] theorem setQueue_kmsgSeen (s : State) (q : Nat) (x : HostQueue) : (s.setQueue q x).kmsgSeen = s.kmsgSeen := rfl
@[simp] theorem setQueue_pool (s : State) (q : Nat) (x : HostQueue) : (s.setQueue q x).pool = s.pool := rfl
@[simp] theorem setQueue_gpReject (s : State) (q : Nat) (x : HostQueue) : (s.setQueue q x).gpReject = s.gpReject := rfl
@[simp] theorem setQueue_allocs (s : State) (q : Nat) (x : HostQueue) : (s.setQueue q x).allocs = s.allocs := rfl
@[simp] theorem setQueue_exchanges (s : State) (q : Nat) (x : HostQueue) : (s.setQueue q x).exchanges = s.exchanges := rfl
@[simp] theorem setQueue_parted (s : State) (q : Nat) (x : HostQueue) : (s.setQueue q x).parted = s.parted := rfl
@[simp] theorem setQueue_setters (s : State) (q : Nat) (x : HostQueue) : (s.setQueue q x).setters = s.setters := rfl
@[simp] theorem setQueue_queues (s : State) (q : Nat) (x : HostQueue) : (s.setQueue q x).queues = s.queues.set q x := rfl
@[simp] theorem setQueue_launches (s : State) (q : Nat) (x : HostQueue) : (s.setQueue q x).launches = s.launches := rfl
@[simp] theorem setQueue_handles (s : State) (q : Nat) (x : HostQueue) : (s.setQueue q x).handles = s.handles := rfl
@[simp] theorem setQueue_runQueue (s : State) (q : Nat) (x : HostQueue) : (s.setQueue q x).runQueue = s.runQueue := rfl
@[simp] theorem setQueue_spawned (s : State) (q : Nat) (x : HostQueue) : (s.setQueue q x).spawned = s.spawned := rfl
@[simp] theorem setQueue_kilnChecks (s : State) (q : Nat) (x : HostQueue) : (s.setQueue q x).kilnChecks = s.kilnChecks := rfl
@[simp] theorem setQueue_clkStretch (s : State) (q : Nat) (x : HostQueue) : (s.setQueue q x).clkStretch = s.clkStretch := rfl
@[simp] theorem setQueue_pkgid (s : State) (q : Nat) (x : HostQueue) : (s.setQueue q x).pkgid = s.pkgid := rfl
@[simp] theorem setQueue_podsize (s : State) (q : Nat) (x : HostQueue) : (s.setQueue q x).podsize = s.podsize := rfl
@[simp] theorem setQueue_hostgib (s : State) (q : Nat) (x : HostQueue) : (s.setQueue q x).hostgib = s.hostgib := rfl
@[simp] theorem setQueue_fatalTraps (s : State) (q : Nat) (x : HostQueue) : (s.setQueue q x).fatalTraps = s.fatalTraps := rfl
@[simp] theorem setQueue_time (s : State) (q : Nat) (x : HostQueue) : (s.setQueue q x).time = s.time := rfl
@[simp] theorem setQueue_exited (s : State) (q : Nat) (x : HostQueue) : (s.setQueue q x).exited = s.exited := rfl
@[simp] theorem setQueue_waiting (s : State) (q : Nat) (x : HostQueue) : (s.setQueue q x).waiting = s.waiting := rfl
@[simp] theorem setQueue_sent (s : State) (q : Nat) (x : HostQueue) : (s.setQueue q x).sent = s.sent := rfl
@[simp] theorem setQueue_focus (s : State) (q : Nat) (x : HostQueue) : (s.setQueue q x).focus = s.focus := rfl
@[simp] theorem setQueue_input (s : State) (q : Nat) (x : HostQueue) : (s.setQueue q x).input = s.input := rfl
@[simp] theorem setQueue_agenda (s : State) (q : Nat) (x : HostQueue) : (s.setQueue q x).agenda = s.agenda := rfl
@[simp] theorem setQueue_slot2 (s : State) (q : Nat) (x : HostQueue) : (s.setQueue q x).slot2 = s.slot2 := rfl
@[simp] theorem setQueue_freeCtr (s : State) (q : Nat) (x : HostQueue) : (s.setQueue q x).freeCtr = s.freeCtr := rfl
@[simp] theorem setQueue_ticket (s : State) (q : Nat) (x : HostQueue) : (s.setQueue q x).ticket = s.ticket := rfl

/-! The fields after State.setSlot. -/

@[simp] theorem setSlot_waves (s : State) (core i : Nat) (x : Slot) : (s.setSlot core i x).waves = s.waves := rfl
@[simp] theorem setSlot_blocks (s : State) (core i : Nat) (x : Slot) : (s.setSlot core i x).blocks = s.blocks := rfl
@[simp] theorem setSlot_mem (s : State) (core i : Nat) (x : Slot) : (s.setSlot core i x).mem = s.mem := rfl
@[simp] theorem setSlot_poison (s : State) (core i : Nat) (x : Slot) : (s.setSlot core i x).poison = s.poison := rfl
@[simp] theorem setSlot_ecc (s : State) (core i : Nat) (x : Slot) : (s.setSlot core i x).ecc = s.ecc := rfl
@[simp] theorem setSlot_dir (s : State) (core i : Nat) (x : Slot) : (s.setSlot core i x).dir = s.dir := rfl
@[simp] theorem setSlot_flows (s : State) (core i : Nat) (x : Slot) : (s.setSlot core i x).flows = s.flows := rfl
@[simp] theorem setSlot_softEcc (s : State) (core i : Nat) (x : Slot) : (s.setSlot core i x).softEcc = s.softEcc := rfl
@[simp] theorem setSlot_corrected (s : State) (core i : Nat) (x : Slot) : (s.setSlot core i x).corrected = s.corrected := rfl
@[simp] theorem setSlot_controller (s : State) (core i : Nat) (x : Slot) : (s.setSlot core i x).controller = s.controller := rfl
@[simp] theorem setSlot_kmsgHeld (s : State) (core i : Nat) (x : Slot) : (s.setSlot core i x).kmsgHeld = s.kmsgHeld := rfl
@[simp] theorem setSlot_arriving (s : State) (core i : Nat) (x : Slot) : (s.setSlot core i x).arriving = s.arriving := rfl
@[simp] theorem setSlot_run (s : State) (core i : Nat) (x : Slot) : (s.setSlot core i x).run = s.run := rfl
@[simp] theorem setSlot_bars (s : State) (core i : Nat) (x : Slot) : (s.setSlot core i x).bars = s.bars := rfl
@[simp] theorem setSlot_tlb (s : State) (core i : Nat) (x : Slot) : (s.setSlot core i x).tlb = s.tlb := rfl
@[simp] theorem setSlot_tables (s : State) (core i : Nat) (x : Slot) : (s.setSlot core i x).tables = s.tables := rfl
@[simp] theorem setSlot_ctxs (s : State) (core i : Nat) (x : Slot) : (s.setSlot core i x).ctxs = s.ctxs := rfl
@[simp] theorem setSlot_cfg (s : State) (core i : Nat) (x : Slot) : (s.setSlot core i x).cfg = s.cfg := rfl
@[simp] theorem setSlot_harvest (s : State) (core i : Nat) (x : Slot) : (s.setSlot core i x).harvest = s.harvest := rfl
@[simp] theorem setSlot_linkTrapW (s : State) (core i : Nat) (x : Slot) : (s.setSlot core i x).linkTrapW = s.linkTrapW := rfl
@[simp] theorem setSlot_links (s : State) (core i : Nat) (x : Slot) : (s.setSlot core i x).links = s.links := rfl
@[simp] theorem setSlot_linkCtl (s : State) (core i : Nat) (x : Slot) : (s.setSlot core i x).linkCtl = s.linkCtl := rfl
@[simp] theorem setSlot_fabric (s : State) (core i : Nat) (x : Slot) : (s.setSlot core i x).fabric = s.fabric := rfl
@[simp] theorem setSlot_bringup (s : State) (core i : Nat) (x : Slot) : (s.setSlot core i x).bringup = s.bringup := rfl
@[simp] theorem setSlot_host (s : State) (core i : Nat) (x : Slot) : (s.setSlot core i x).host = s.host := rfl
@[simp] theorem setSlot_infoPage (s : State) (core i : Nat) (x : Slot) : (s.setSlot core i x).infoPage = s.infoPage := rfl
@[simp] theorem setSlot_rxDrop (s : State) (core i : Nat) (x : Slot) : (s.setSlot core i x).rxDrop = s.rxDrop := rfl
@[simp] theorem setSlot_ethMsgUdp (s : State) (core i : Nat) (x : Slot) : (s.setSlot core i x).ethMsgUdp = s.ethMsgUdp := rfl
@[simp] theorem setSlot_ptpLock (s : State) (core i : Nat) (x : Slot) : (s.setSlot core i x).ptpLock = s.ptpLock := rfl
@[simp] theorem setSlot_ptpEver (s : State) (core i : Nat) (x : Slot) : (s.setSlot core i x).ptpEver = s.ptpEver := rfl
@[simp] theorem setSlot_unexpected (s : State) (core i : Nat) (x : Slot) : (s.setSlot core i x).unexpected = s.unexpected := rfl
@[simp] theorem setSlot_objs (s : State) (core i : Nat) (x : Slot) : (s.setSlot core i x).objs = s.objs := rfl
@[simp] theorem setSlot_names (s : State) (core i : Nat) (x : Slot) : (s.setSlot core i x).names = s.names := rfl
@[simp] theorem setSlot_kmsgs (s : State) (core i : Nat) (x : Slot) : (s.setSlot core i x).kmsgs = s.kmsgs := rfl
@[simp] theorem setSlot_kmsgNext (s : State) (core i : Nat) (x : Slot) : (s.setSlot core i x).kmsgNext = s.kmsgNext := rfl
@[simp] theorem setSlot_kmsgSeen (s : State) (core i : Nat) (x : Slot) : (s.setSlot core i x).kmsgSeen = s.kmsgSeen := rfl
@[simp] theorem setSlot_pool (s : State) (core i : Nat) (x : Slot) : (s.setSlot core i x).pool = s.pool := rfl
@[simp] theorem setSlot_gpReject (s : State) (core i : Nat) (x : Slot) : (s.setSlot core i x).gpReject = s.gpReject := rfl
@[simp] theorem setSlot_allocs (s : State) (core i : Nat) (x : Slot) : (s.setSlot core i x).allocs = s.allocs := rfl
@[simp] theorem setSlot_exchanges (s : State) (core i : Nat) (x : Slot) : (s.setSlot core i x).exchanges = s.exchanges := rfl
@[simp] theorem setSlot_parted (s : State) (core i : Nat) (x : Slot) : (s.setSlot core i x).parted = s.parted := rfl
@[simp] theorem setSlot_setters (s : State) (core i : Nat) (x : Slot) : (s.setSlot core i x).setters = s.setters := rfl
@[simp] theorem setSlot_queues (s : State) (core i : Nat) (x : Slot) : (s.setSlot core i x).queues = s.queues := rfl
@[simp] theorem setSlot_launches (s : State) (core i : Nat) (x : Slot) : (s.setSlot core i x).launches = s.launches := rfl
@[simp] theorem setSlot_handles (s : State) (core i : Nat) (x : Slot) : (s.setSlot core i x).handles = s.handles := rfl
@[simp] theorem setSlot_runQueue (s : State) (core i : Nat) (x : Slot) : (s.setSlot core i x).runQueue = s.runQueue := rfl
@[simp] theorem setSlot_spawned (s : State) (core i : Nat) (x : Slot) : (s.setSlot core i x).spawned = s.spawned := rfl
@[simp] theorem setSlot_kilnChecks (s : State) (core i : Nat) (x : Slot) : (s.setSlot core i x).kilnChecks = s.kilnChecks := rfl
@[simp] theorem setSlot_clkStretch (s : State) (core i : Nat) (x : Slot) : (s.setSlot core i x).clkStretch = s.clkStretch := rfl
@[simp] theorem setSlot_pkgid (s : State) (core i : Nat) (x : Slot) : (s.setSlot core i x).pkgid = s.pkgid := rfl
@[simp] theorem setSlot_podsize (s : State) (core i : Nat) (x : Slot) : (s.setSlot core i x).podsize = s.podsize := rfl
@[simp] theorem setSlot_hostgib (s : State) (core i : Nat) (x : Slot) : (s.setSlot core i x).hostgib = s.hostgib := rfl
@[simp] theorem setSlot_fatalTraps (s : State) (core i : Nat) (x : Slot) : (s.setSlot core i x).fatalTraps = s.fatalTraps := rfl
@[simp] theorem setSlot_time (s : State) (core i : Nat) (x : Slot) : (s.setSlot core i x).time = s.time := rfl
@[simp] theorem setSlot_exited (s : State) (core i : Nat) (x : Slot) : (s.setSlot core i x).exited = s.exited := rfl
@[simp] theorem setSlot_waiting (s : State) (core i : Nat) (x : Slot) : (s.setSlot core i x).waiting = s.waiting := rfl
@[simp] theorem setSlot_sent (s : State) (core i : Nat) (x : Slot) : (s.setSlot core i x).sent = s.sent := rfl
@[simp] theorem setSlot_focus (s : State) (core i : Nat) (x : Slot) : (s.setSlot core i x).focus = s.focus := rfl
@[simp] theorem setSlot_input (s : State) (core i : Nat) (x : Slot) : (s.setSlot core i x).input = s.input := rfl
@[simp] theorem setSlot_agenda (s : State) (core i : Nat) (x : Slot) : (s.setSlot core i x).agenda = s.agenda := rfl
@[simp] theorem setSlot_slot2 (s : State) (core i : Nat) (x : Slot) : (s.setSlot core i x).slot2 = s.slot2 := rfl
@[simp] theorem setSlot_freeCtr (s : State) (core i : Nat) (x : Slot) : (s.setSlot core i x).freeCtr = s.freeCtr := rfl
@[simp] theorem setSlot_ticket (s : State) (core i : Nat) (x : Slot) : (s.setSlot core i x).ticket = s.ticket := rfl

/-! The fields after State.scratchWrite. -/

@[simp] theorem scratchWrite_waves (s : State) (core off : Nat) (bs : List Byte) : (s.scratchWrite core off bs).waves = s.waves := rfl
@[simp] theorem scratchWrite_blocks (s : State) (core off : Nat) (bs : List Byte) : (s.scratchWrite core off bs).blocks = s.blocks := rfl
@[simp] theorem scratchWrite_mem (s : State) (core off : Nat) (bs : List Byte) : (s.scratchWrite core off bs).mem = s.mem := rfl
@[simp] theorem scratchWrite_poison (s : State) (core off : Nat) (bs : List Byte) : (s.scratchWrite core off bs).poison = s.poison := rfl
@[simp] theorem scratchWrite_ecc (s : State) (core off : Nat) (bs : List Byte) : (s.scratchWrite core off bs).ecc = s.ecc := rfl
@[simp] theorem scratchWrite_dir (s : State) (core off : Nat) (bs : List Byte) : (s.scratchWrite core off bs).dir = s.dir := rfl
@[simp] theorem scratchWrite_flows (s : State) (core off : Nat) (bs : List Byte) : (s.scratchWrite core off bs).flows = s.flows := rfl
@[simp] theorem scratchWrite_softEcc (s : State) (core off : Nat) (bs : List Byte) : (s.scratchWrite core off bs).softEcc = s.softEcc := rfl
@[simp] theorem scratchWrite_corrected (s : State) (core off : Nat) (bs : List Byte) : (s.scratchWrite core off bs).corrected = s.corrected := rfl
@[simp] theorem scratchWrite_controller (s : State) (core off : Nat) (bs : List Byte) : (s.scratchWrite core off bs).controller = s.controller := rfl
@[simp] theorem scratchWrite_kmsgHeld (s : State) (core off : Nat) (bs : List Byte) : (s.scratchWrite core off bs).kmsgHeld = s.kmsgHeld := rfl
@[simp] theorem scratchWrite_arriving (s : State) (core off : Nat) (bs : List Byte) : (s.scratchWrite core off bs).arriving = s.arriving := rfl
@[simp] theorem scratchWrite_run (s : State) (core off : Nat) (bs : List Byte) : (s.scratchWrite core off bs).run = s.run := rfl
@[simp] theorem scratchWrite_bars (s : State) (core off : Nat) (bs : List Byte) : (s.scratchWrite core off bs).bars = s.bars := rfl
@[simp] theorem scratchWrite_tlb (s : State) (core off : Nat) (bs : List Byte) : (s.scratchWrite core off bs).tlb = s.tlb := rfl
@[simp] theorem scratchWrite_tables (s : State) (core off : Nat) (bs : List Byte) : (s.scratchWrite core off bs).tables = s.tables := rfl
@[simp] theorem scratchWrite_ctxs (s : State) (core off : Nat) (bs : List Byte) : (s.scratchWrite core off bs).ctxs = s.ctxs := rfl
@[simp] theorem scratchWrite_cfg (s : State) (core off : Nat) (bs : List Byte) : (s.scratchWrite core off bs).cfg = s.cfg := rfl
@[simp] theorem scratchWrite_harvest (s : State) (core off : Nat) (bs : List Byte) : (s.scratchWrite core off bs).harvest = s.harvest := rfl
@[simp] theorem scratchWrite_linkTrapW (s : State) (core off : Nat) (bs : List Byte) : (s.scratchWrite core off bs).linkTrapW = s.linkTrapW := rfl
@[simp] theorem scratchWrite_links (s : State) (core off : Nat) (bs : List Byte) : (s.scratchWrite core off bs).links = s.links := rfl
@[simp] theorem scratchWrite_linkCtl (s : State) (core off : Nat) (bs : List Byte) : (s.scratchWrite core off bs).linkCtl = s.linkCtl := rfl
@[simp] theorem scratchWrite_fabric (s : State) (core off : Nat) (bs : List Byte) : (s.scratchWrite core off bs).fabric = s.fabric := rfl
@[simp] theorem scratchWrite_bringup (s : State) (core off : Nat) (bs : List Byte) : (s.scratchWrite core off bs).bringup = s.bringup := rfl
@[simp] theorem scratchWrite_host (s : State) (core off : Nat) (bs : List Byte) : (s.scratchWrite core off bs).host = s.host := rfl
@[simp] theorem scratchWrite_infoPage (s : State) (core off : Nat) (bs : List Byte) : (s.scratchWrite core off bs).infoPage = s.infoPage := rfl
@[simp] theorem scratchWrite_rxDrop (s : State) (core off : Nat) (bs : List Byte) : (s.scratchWrite core off bs).rxDrop = s.rxDrop := rfl
@[simp] theorem scratchWrite_ethMsgUdp (s : State) (core off : Nat) (bs : List Byte) : (s.scratchWrite core off bs).ethMsgUdp = s.ethMsgUdp := rfl
@[simp] theorem scratchWrite_ptpLock (s : State) (core off : Nat) (bs : List Byte) : (s.scratchWrite core off bs).ptpLock = s.ptpLock := rfl
@[simp] theorem scratchWrite_ptpEver (s : State) (core off : Nat) (bs : List Byte) : (s.scratchWrite core off bs).ptpEver = s.ptpEver := rfl
@[simp] theorem scratchWrite_unexpected (s : State) (core off : Nat) (bs : List Byte) : (s.scratchWrite core off bs).unexpected = s.unexpected := rfl
@[simp] theorem scratchWrite_objs (s : State) (core off : Nat) (bs : List Byte) : (s.scratchWrite core off bs).objs = s.objs := rfl
@[simp] theorem scratchWrite_names (s : State) (core off : Nat) (bs : List Byte) : (s.scratchWrite core off bs).names = s.names := rfl
@[simp] theorem scratchWrite_kmsgs (s : State) (core off : Nat) (bs : List Byte) : (s.scratchWrite core off bs).kmsgs = s.kmsgs := rfl
@[simp] theorem scratchWrite_kmsgNext (s : State) (core off : Nat) (bs : List Byte) : (s.scratchWrite core off bs).kmsgNext = s.kmsgNext := rfl
@[simp] theorem scratchWrite_kmsgSeen (s : State) (core off : Nat) (bs : List Byte) : (s.scratchWrite core off bs).kmsgSeen = s.kmsgSeen := rfl
@[simp] theorem scratchWrite_pool (s : State) (core off : Nat) (bs : List Byte) : (s.scratchWrite core off bs).pool = s.pool := rfl
@[simp] theorem scratchWrite_gpReject (s : State) (core off : Nat) (bs : List Byte) : (s.scratchWrite core off bs).gpReject = s.gpReject := rfl
@[simp] theorem scratchWrite_allocs (s : State) (core off : Nat) (bs : List Byte) : (s.scratchWrite core off bs).allocs = s.allocs := rfl
@[simp] theorem scratchWrite_exchanges (s : State) (core off : Nat) (bs : List Byte) : (s.scratchWrite core off bs).exchanges = s.exchanges := rfl
@[simp] theorem scratchWrite_parted (s : State) (core off : Nat) (bs : List Byte) : (s.scratchWrite core off bs).parted = s.parted := rfl
@[simp] theorem scratchWrite_setters (s : State) (core off : Nat) (bs : List Byte) : (s.scratchWrite core off bs).setters = s.setters := rfl
@[simp] theorem scratchWrite_queues (s : State) (core off : Nat) (bs : List Byte) : (s.scratchWrite core off bs).queues = s.queues := rfl
@[simp] theorem scratchWrite_launches (s : State) (core off : Nat) (bs : List Byte) : (s.scratchWrite core off bs).launches = s.launches := rfl
@[simp] theorem scratchWrite_handles (s : State) (core off : Nat) (bs : List Byte) : (s.scratchWrite core off bs).handles = s.handles := rfl
@[simp] theorem scratchWrite_runQueue (s : State) (core off : Nat) (bs : List Byte) : (s.scratchWrite core off bs).runQueue = s.runQueue := rfl
@[simp] theorem scratchWrite_spawned (s : State) (core off : Nat) (bs : List Byte) : (s.scratchWrite core off bs).spawned = s.spawned := rfl
@[simp] theorem scratchWrite_kilnChecks (s : State) (core off : Nat) (bs : List Byte) : (s.scratchWrite core off bs).kilnChecks = s.kilnChecks := rfl
@[simp] theorem scratchWrite_clkStretch (s : State) (core off : Nat) (bs : List Byte) : (s.scratchWrite core off bs).clkStretch = s.clkStretch := rfl
@[simp] theorem scratchWrite_pkgid (s : State) (core off : Nat) (bs : List Byte) : (s.scratchWrite core off bs).pkgid = s.pkgid := rfl
@[simp] theorem scratchWrite_podsize (s : State) (core off : Nat) (bs : List Byte) : (s.scratchWrite core off bs).podsize = s.podsize := rfl
@[simp] theorem scratchWrite_hostgib (s : State) (core off : Nat) (bs : List Byte) : (s.scratchWrite core off bs).hostgib = s.hostgib := rfl
@[simp] theorem scratchWrite_fatalTraps (s : State) (core off : Nat) (bs : List Byte) : (s.scratchWrite core off bs).fatalTraps = s.fatalTraps := rfl
@[simp] theorem scratchWrite_time (s : State) (core off : Nat) (bs : List Byte) : (s.scratchWrite core off bs).time = s.time := rfl
@[simp] theorem scratchWrite_exited (s : State) (core off : Nat) (bs : List Byte) : (s.scratchWrite core off bs).exited = s.exited := rfl
@[simp] theorem scratchWrite_waiting (s : State) (core off : Nat) (bs : List Byte) : (s.scratchWrite core off bs).waiting = s.waiting := rfl
@[simp] theorem scratchWrite_sent (s : State) (core off : Nat) (bs : List Byte) : (s.scratchWrite core off bs).sent = s.sent := rfl
@[simp] theorem scratchWrite_focus (s : State) (core off : Nat) (bs : List Byte) : (s.scratchWrite core off bs).focus = s.focus := rfl
@[simp] theorem scratchWrite_input (s : State) (core off : Nat) (bs : List Byte) : (s.scratchWrite core off bs).input = s.input := rfl
@[simp] theorem scratchWrite_agenda (s : State) (core off : Nat) (bs : List Byte) : (s.scratchWrite core off bs).agenda = s.agenda := rfl
@[simp] theorem scratchWrite_slot2 (s : State) (core off : Nat) (bs : List Byte) : (s.scratchWrite core off bs).slot2 = s.slot2 := rfl
@[simp] theorem scratchWrite_freeCtr (s : State) (core off : Nat) (bs : List Byte) : (s.scratchWrite core off bs).freeCtr = s.freeCtr := rfl
@[simp] theorem scratchWrite_ticket (s : State) (core off : Nat) (bs : List Byte) : (s.scratchWrite core off bs).ticket = s.ticket := rfl

/-! The fields after State.modSetter. -/

@[simp] theorem modSetter_waves (s : State) (d : Nat) (f : Setter → Setter) : (s.modSetter d f).waves = s.waves := rfl
@[simp] theorem modSetter_blocks (s : State) (d : Nat) (f : Setter → Setter) : (s.modSetter d f).blocks = s.blocks := rfl
@[simp] theorem modSetter_cores (s : State) (d : Nat) (f : Setter → Setter) : (s.modSetter d f).cores = s.cores := rfl
@[simp] theorem modSetter_mem (s : State) (d : Nat) (f : Setter → Setter) : (s.modSetter d f).mem = s.mem := rfl
@[simp] theorem modSetter_poison (s : State) (d : Nat) (f : Setter → Setter) : (s.modSetter d f).poison = s.poison := rfl
@[simp] theorem modSetter_ecc (s : State) (d : Nat) (f : Setter → Setter) : (s.modSetter d f).ecc = s.ecc := rfl
@[simp] theorem modSetter_dir (s : State) (d : Nat) (f : Setter → Setter) : (s.modSetter d f).dir = s.dir := rfl
@[simp] theorem modSetter_flows (s : State) (d : Nat) (f : Setter → Setter) : (s.modSetter d f).flows = s.flows := rfl
@[simp] theorem modSetter_softEcc (s : State) (d : Nat) (f : Setter → Setter) : (s.modSetter d f).softEcc = s.softEcc := rfl
@[simp] theorem modSetter_corrected (s : State) (d : Nat) (f : Setter → Setter) : (s.modSetter d f).corrected = s.corrected := rfl
@[simp] theorem modSetter_controller (s : State) (d : Nat) (f : Setter → Setter) : (s.modSetter d f).controller = s.controller := rfl
@[simp] theorem modSetter_kmsgHeld (s : State) (d : Nat) (f : Setter → Setter) : (s.modSetter d f).kmsgHeld = s.kmsgHeld := rfl
@[simp] theorem modSetter_arriving (s : State) (d : Nat) (f : Setter → Setter) : (s.modSetter d f).arriving = s.arriving := rfl
@[simp] theorem modSetter_run (s : State) (d : Nat) (f : Setter → Setter) : (s.modSetter d f).run = s.run := rfl
@[simp] theorem modSetter_bars (s : State) (d : Nat) (f : Setter → Setter) : (s.modSetter d f).bars = s.bars := rfl
@[simp] theorem modSetter_tlb (s : State) (d : Nat) (f : Setter → Setter) : (s.modSetter d f).tlb = s.tlb := rfl
@[simp] theorem modSetter_tables (s : State) (d : Nat) (f : Setter → Setter) : (s.modSetter d f).tables = s.tables := rfl
@[simp] theorem modSetter_ctxs (s : State) (d : Nat) (f : Setter → Setter) : (s.modSetter d f).ctxs = s.ctxs := rfl
@[simp] theorem modSetter_cfg (s : State) (d : Nat) (f : Setter → Setter) : (s.modSetter d f).cfg = s.cfg := rfl
@[simp] theorem modSetter_harvest (s : State) (d : Nat) (f : Setter → Setter) : (s.modSetter d f).harvest = s.harvest := rfl
@[simp] theorem modSetter_linkTrapW (s : State) (d : Nat) (f : Setter → Setter) : (s.modSetter d f).linkTrapW = s.linkTrapW := rfl
@[simp] theorem modSetter_links (s : State) (d : Nat) (f : Setter → Setter) : (s.modSetter d f).links = s.links := rfl
@[simp] theorem modSetter_linkCtl (s : State) (d : Nat) (f : Setter → Setter) : (s.modSetter d f).linkCtl = s.linkCtl := rfl
@[simp] theorem modSetter_fabric (s : State) (d : Nat) (f : Setter → Setter) : (s.modSetter d f).fabric = s.fabric := rfl
@[simp] theorem modSetter_bringup (s : State) (d : Nat) (f : Setter → Setter) : (s.modSetter d f).bringup = s.bringup := rfl
@[simp] theorem modSetter_host (s : State) (d : Nat) (f : Setter → Setter) : (s.modSetter d f).host = s.host := rfl
@[simp] theorem modSetter_infoPage (s : State) (d : Nat) (f : Setter → Setter) : (s.modSetter d f).infoPage = s.infoPage := rfl
@[simp] theorem modSetter_rxDrop (s : State) (d : Nat) (f : Setter → Setter) : (s.modSetter d f).rxDrop = s.rxDrop := rfl
@[simp] theorem modSetter_ethMsgUdp (s : State) (d : Nat) (f : Setter → Setter) : (s.modSetter d f).ethMsgUdp = s.ethMsgUdp := rfl
@[simp] theorem modSetter_ptpLock (s : State) (d : Nat) (f : Setter → Setter) : (s.modSetter d f).ptpLock = s.ptpLock := rfl
@[simp] theorem modSetter_ptpEver (s : State) (d : Nat) (f : Setter → Setter) : (s.modSetter d f).ptpEver = s.ptpEver := rfl
@[simp] theorem modSetter_unexpected (s : State) (d : Nat) (f : Setter → Setter) : (s.modSetter d f).unexpected = s.unexpected := rfl
@[simp] theorem modSetter_objs (s : State) (d : Nat) (f : Setter → Setter) : (s.modSetter d f).objs = s.objs := rfl
@[simp] theorem modSetter_names (s : State) (d : Nat) (f : Setter → Setter) : (s.modSetter d f).names = s.names := rfl
@[simp] theorem modSetter_kmsgs (s : State) (d : Nat) (f : Setter → Setter) : (s.modSetter d f).kmsgs = s.kmsgs := rfl
@[simp] theorem modSetter_kmsgNext (s : State) (d : Nat) (f : Setter → Setter) : (s.modSetter d f).kmsgNext = s.kmsgNext := rfl
@[simp] theorem modSetter_kmsgSeen (s : State) (d : Nat) (f : Setter → Setter) : (s.modSetter d f).kmsgSeen = s.kmsgSeen := rfl
@[simp] theorem modSetter_pool (s : State) (d : Nat) (f : Setter → Setter) : (s.modSetter d f).pool = s.pool := rfl
@[simp] theorem modSetter_gpReject (s : State) (d : Nat) (f : Setter → Setter) : (s.modSetter d f).gpReject = s.gpReject := rfl
@[simp] theorem modSetter_allocs (s : State) (d : Nat) (f : Setter → Setter) : (s.modSetter d f).allocs = s.allocs := rfl
@[simp] theorem modSetter_exchanges (s : State) (d : Nat) (f : Setter → Setter) : (s.modSetter d f).exchanges = s.exchanges := rfl
@[simp] theorem modSetter_parted (s : State) (d : Nat) (f : Setter → Setter) : (s.modSetter d f).parted = s.parted := rfl
@[simp] theorem modSetter_setters (s : State) (d : Nat) (f : Setter → Setter) : (s.modSetter d f).setters = s.setters.modify d f := rfl
@[simp] theorem modSetter_queues (s : State) (d : Nat) (f : Setter → Setter) : (s.modSetter d f).queues = s.queues := rfl
@[simp] theorem modSetter_launches (s : State) (d : Nat) (f : Setter → Setter) : (s.modSetter d f).launches = s.launches := rfl
@[simp] theorem modSetter_handles (s : State) (d : Nat) (f : Setter → Setter) : (s.modSetter d f).handles = s.handles := rfl
@[simp] theorem modSetter_runQueue (s : State) (d : Nat) (f : Setter → Setter) : (s.modSetter d f).runQueue = s.runQueue := rfl
@[simp] theorem modSetter_spawned (s : State) (d : Nat) (f : Setter → Setter) : (s.modSetter d f).spawned = s.spawned := rfl
@[simp] theorem modSetter_kilnChecks (s : State) (d : Nat) (f : Setter → Setter) : (s.modSetter d f).kilnChecks = s.kilnChecks := rfl
@[simp] theorem modSetter_clkStretch (s : State) (d : Nat) (f : Setter → Setter) : (s.modSetter d f).clkStretch = s.clkStretch := rfl
@[simp] theorem modSetter_pkgid (s : State) (d : Nat) (f : Setter → Setter) : (s.modSetter d f).pkgid = s.pkgid := rfl
@[simp] theorem modSetter_podsize (s : State) (d : Nat) (f : Setter → Setter) : (s.modSetter d f).podsize = s.podsize := rfl
@[simp] theorem modSetter_hostgib (s : State) (d : Nat) (f : Setter → Setter) : (s.modSetter d f).hostgib = s.hostgib := rfl
@[simp] theorem modSetter_fatalTraps (s : State) (d : Nat) (f : Setter → Setter) : (s.modSetter d f).fatalTraps = s.fatalTraps := rfl
@[simp] theorem modSetter_time (s : State) (d : Nat) (f : Setter → Setter) : (s.modSetter d f).time = s.time := rfl
@[simp] theorem modSetter_exited (s : State) (d : Nat) (f : Setter → Setter) : (s.modSetter d f).exited = s.exited := rfl
@[simp] theorem modSetter_waiting (s : State) (d : Nat) (f : Setter → Setter) : (s.modSetter d f).waiting = s.waiting := rfl
@[simp] theorem modSetter_sent (s : State) (d : Nat) (f : Setter → Setter) : (s.modSetter d f).sent = s.sent := rfl
@[simp] theorem modSetter_focus (s : State) (d : Nat) (f : Setter → Setter) : (s.modSetter d f).focus = s.focus := rfl
@[simp] theorem modSetter_input (s : State) (d : Nat) (f : Setter → Setter) : (s.modSetter d f).input = s.input := rfl
@[simp] theorem modSetter_agenda (s : State) (d : Nat) (f : Setter → Setter) : (s.modSetter d f).agenda = s.agenda := rfl
@[simp] theorem modSetter_slot2 (s : State) (d : Nat) (f : Setter → Setter) : (s.modSetter d f).slot2 = s.slot2 := rfl
@[simp] theorem modSetter_freeCtr (s : State) (d : Nat) (f : Setter → Setter) : (s.modSetter d f).freeCtr = s.freeCtr := rfl
@[simp] theorem modSetter_ticket (s : State) (d : Nat) (f : Setter → Setter) : (s.modSetter d f).ticket = s.ticket := rfl

/-! The fields after Wave.setLane. -/

@[simp] theorem wave_setLane_block (w : Wave) (l : Nat) (ln : Lane) : (w.setLane l ln).block = w.block := rfl
@[simp] theorem wave_setLane_wv (w : Wave) (l : Nat) (ln : Lane) : (w.setLane l ln).wv = w.wv := rfl
@[simp] theorem wave_setLane_asid (w : Wave) (l : Nat) (ln : Lane) : (w.setLane l ln).asid = w.asid := rfl
@[simp] theorem wave_setLane_die (w : Wave) (l : Nat) (ln : Lane) : (w.setLane l ln).die = w.die := rfl
@[simp] theorem wave_setLane_core (w : Wave) (l : Nat) (ln : Lane) : (w.setLane l ln).core = w.core := rfl
@[simp] theorem wave_setLane_part (w : Wave) (l : Nat) (ln : Lane) : (w.setLane l ln).part = w.part := rfl
@[simp] theorem wave_setLane_st (w : Wave) (l : Nat) (ln : Lane) : (w.setLane l ln).st = w.st := rfl
@[simp] theorem wave_setLane_lanes (w : Wave) (l : Nat) (ln : Lane) : (w.setLane l ln).lanes = sput w.lanes l ln := rfl
@[simp] theorem wave_setLane_g (w : Wave) (l : Nat) (ln : Lane) : (w.setLane l ln).g = w.g := rfl
@[simp] theorem wave_setLane_ctl (w : Wave) (l : Nat) (ln : Lane) : (w.setLane l ln).ctl = w.ctl := rfl
@[simp] theorem wave_setLane_launchId (w : Wave) (l : Nat) (ln : Lane) : (w.setLane l ln).launchId = w.launchId := rfl
@[simp] theorem wave_setLane_prio (w : Wave) (l : Nat) (ln : Lane) : (w.setLane l ln).prio = w.prio := rfl
@[simp] theorem wave_setLane_depth (w : Wave) (l : Nat) (ln : Lane) : (w.setLane l ln).depth = w.depth := rfl
@[simp] theorem wave_setLane_group (w : Wave) (l : Nat) (ln : Lane) : (w.setLane l ln).group = w.group := rfl
@[simp] theorem wave_setLane_regs (w : Wave) (l : Nat) (ln : Lane) : (w.setLane l ln).regs = w.regs := rfl
@[simp] theorem wave_setLane_privBytes (w : Wave) (l : Nat) (ln : Lane) : (w.setLane l ln).privBytes = w.privBytes := rfl
@[simp] theorem wave_setLane_tileCount (w : Wave) (l : Nat) (ln : Lane) : (w.setLane l ln).tileCount = w.tileCount := rfl
@[simp] theorem wave_setLane_tiles (w : Wave) (l : Nat) (ln : Lane) : (w.setLane l ln).tiles = w.tiles := rfl
@[simp] theorem wave_setLane_tileLost (w : Wave) (l : Nat) (ln : Lane) : (w.setLane l ln).tileLost = w.tileLost := rfl
@[simp] theorem wave_setLane_insts (w : Wave) (l : Nat) (ln : Lane) : (w.setLane l ln).insts = w.insts := rfl
@[simp] theorem wave_setLane_barrier (w : Wave) (l : Nat) (ln : Lane) : (w.setLane l ln).barrier = w.barrier := rfl
@[simp] theorem wave_setLane_mainBase (w : Wave) (l : Nat) (ln : Lane) : (w.setLane l ln).mainBase = w.mainBase := rfl
@[simp] theorem wave_setLane_tileSlots (w : Wave) (l : Nat) (ln : Lane) : (w.setLane l ln).tileSlots = w.tileSlots := rfl
@[simp] theorem wave_setLane_idle (w : Wave) (l : Nat) (ln : Lane) : (w.setLane l ln).idle = w.idle := rfl
@[simp] theorem wave_setLane_started (w : Wave) (l : Nat) (ln : Lane) : (w.setLane l ln).started = w.started := rfl
@[simp] theorem wave_setLane_placed (w : Wave) (l : Nat) (ln : Lane) : (w.setLane l ln).placed = w.placed := rfl
@[simp] theorem wave_setLane_obj (w : Wave) (l : Nat) (ln : Lane) : (w.setLane l ln).obj = w.obj := rfl
@[simp] theorem wave_setLane_area (w : Wave) (l : Nat) (ln : Lane) : (w.setLane l ln).area = w.area := rfl
@[simp] theorem wave_setLane_privDirty (w : Wave) (l : Nat) (ln : Lane) : (w.setLane l ln).privDirty = w.privDirty := rfl
@[simp] theorem wave_setLane_gWait (w : Wave) (l : Nat) (ln : Lane) : (w.setLane l ln).gWait = w.gWait := rfl
@[simp] theorem wave_setLane_spawner (w : Wave) (l : Nat) (ln : Lane) : (w.setLane l ln).spawner = w.spawner := rfl

/-! The fields after Wave.setTile. -/

@[simp] theorem wave_setTile_block (w : Wave) (t fmt : Nat) (xs : List Nat) : (w.setTile t fmt xs).block = w.block := rfl
@[simp] theorem wave_setTile_wv (w : Wave) (t fmt : Nat) (xs : List Nat) : (w.setTile t fmt xs).wv = w.wv := rfl
@[simp] theorem wave_setTile_asid (w : Wave) (t fmt : Nat) (xs : List Nat) : (w.setTile t fmt xs).asid = w.asid := rfl
@[simp] theorem wave_setTile_die (w : Wave) (t fmt : Nat) (xs : List Nat) : (w.setTile t fmt xs).die = w.die := rfl
@[simp] theorem wave_setTile_core (w : Wave) (t fmt : Nat) (xs : List Nat) : (w.setTile t fmt xs).core = w.core := rfl
@[simp] theorem wave_setTile_part (w : Wave) (t fmt : Nat) (xs : List Nat) : (w.setTile t fmt xs).part = w.part := rfl
@[simp] theorem wave_setTile_st (w : Wave) (t fmt : Nat) (xs : List Nat) : (w.setTile t fmt xs).st = w.st := rfl
@[simp] theorem wave_setTile_lanes (w : Wave) (t fmt : Nat) (xs : List Nat) : (w.setTile t fmt xs).lanes = w.lanes := rfl
@[simp] theorem wave_setTile_g (w : Wave) (t fmt : Nat) (xs : List Nat) : (w.setTile t fmt xs).g = w.g := rfl
@[simp] theorem wave_setTile_ctl (w : Wave) (t fmt : Nat) (xs : List Nat) : (w.setTile t fmt xs).ctl = w.ctl := rfl
@[simp] theorem wave_setTile_launchId (w : Wave) (t fmt : Nat) (xs : List Nat) : (w.setTile t fmt xs).launchId = w.launchId := rfl
@[simp] theorem wave_setTile_prio (w : Wave) (t fmt : Nat) (xs : List Nat) : (w.setTile t fmt xs).prio = w.prio := rfl
@[simp] theorem wave_setTile_depth (w : Wave) (t fmt : Nat) (xs : List Nat) : (w.setTile t fmt xs).depth = w.depth := rfl
@[simp] theorem wave_setTile_group (w : Wave) (t fmt : Nat) (xs : List Nat) : (w.setTile t fmt xs).group = w.group := rfl
@[simp] theorem wave_setTile_regs (w : Wave) (t fmt : Nat) (xs : List Nat) : (w.setTile t fmt xs).regs = w.regs := rfl
@[simp] theorem wave_setTile_privBytes (w : Wave) (t fmt : Nat) (xs : List Nat) : (w.setTile t fmt xs).privBytes = w.privBytes := rfl
@[simp] theorem wave_setTile_tileCount (w : Wave) (t fmt : Nat) (xs : List Nat) : (w.setTile t fmt xs).tileCount = w.tileCount := rfl
@[simp] theorem wave_setTile_tileLost (w : Wave) (t fmt : Nat) (xs : List Nat) : (w.setTile t fmt xs).tileLost = w.tileLost := rfl
@[simp] theorem wave_setTile_insts (w : Wave) (t fmt : Nat) (xs : List Nat) : (w.setTile t fmt xs).insts = w.insts := rfl
@[simp] theorem wave_setTile_barrier (w : Wave) (t fmt : Nat) (xs : List Nat) : (w.setTile t fmt xs).barrier = w.barrier := rfl
@[simp] theorem wave_setTile_mainBase (w : Wave) (t fmt : Nat) (xs : List Nat) : (w.setTile t fmt xs).mainBase = w.mainBase := rfl
@[simp] theorem wave_setTile_tileSlots (w : Wave) (t fmt : Nat) (xs : List Nat) : (w.setTile t fmt xs).tileSlots = w.tileSlots := rfl
@[simp] theorem wave_setTile_idle (w : Wave) (t fmt : Nat) (xs : List Nat) : (w.setTile t fmt xs).idle = w.idle := rfl
@[simp] theorem wave_setTile_started (w : Wave) (t fmt : Nat) (xs : List Nat) : (w.setTile t fmt xs).started = w.started := rfl
@[simp] theorem wave_setTile_placed (w : Wave) (t fmt : Nat) (xs : List Nat) : (w.setTile t fmt xs).placed = w.placed := rfl
@[simp] theorem wave_setTile_obj (w : Wave) (t fmt : Nat) (xs : List Nat) : (w.setTile t fmt xs).obj = w.obj := rfl
@[simp] theorem wave_setTile_area (w : Wave) (t fmt : Nat) (xs : List Nat) : (w.setTile t fmt xs).area = w.area := rfl
@[simp] theorem wave_setTile_privDirty (w : Wave) (t fmt : Nat) (xs : List Nat) : (w.setTile t fmt xs).privDirty = w.privDirty := rfl
@[simp] theorem wave_setTile_gWait (w : Wave) (t fmt : Nat) (xs : List Nat) : (w.setTile t fmt xs).gWait = w.gWait := rfl
@[simp] theorem wave_setTile_spawner (w : Wave) (t fmt : Nat) (xs : List Nat) : (w.setTile t fmt xs).spawner = w.spawner := rfl

/-! The fields after Wave.setKstatus. -/

@[simp] theorem wave_setKstatus_block (w : Wave) (v : Word) : (w.setKstatus v).block = w.block := rfl
@[simp] theorem wave_setKstatus_wv (w : Wave) (v : Word) : (w.setKstatus v).wv = w.wv := rfl
@[simp] theorem wave_setKstatus_asid (w : Wave) (v : Word) : (w.setKstatus v).asid = w.asid := rfl
@[simp] theorem wave_setKstatus_die (w : Wave) (v : Word) : (w.setKstatus v).die = w.die := rfl
@[simp] theorem wave_setKstatus_core (w : Wave) (v : Word) : (w.setKstatus v).core = w.core := rfl
@[simp] theorem wave_setKstatus_part (w : Wave) (v : Word) : (w.setKstatus v).part = w.part := rfl
@[simp] theorem wave_setKstatus_st (w : Wave) (v : Word) : (w.setKstatus v).st = w.st := rfl
@[simp] theorem wave_setKstatus_lanes (w : Wave) (v : Word) : (w.setKstatus v).lanes = w.lanes := rfl
@[simp] theorem wave_setKstatus_g (w : Wave) (v : Word) : (w.setKstatus v).g = w.g := rfl
@[simp] theorem wave_setKstatus_ctl (w : Wave) (v : Word) : (w.setKstatus v).ctl = sput w.ctl 21 (sgetD w.ctl 21 0 ||| v) := rfl
@[simp] theorem wave_setKstatus_launchId (w : Wave) (v : Word) : (w.setKstatus v).launchId = w.launchId := rfl
@[simp] theorem wave_setKstatus_prio (w : Wave) (v : Word) : (w.setKstatus v).prio = w.prio := rfl
@[simp] theorem wave_setKstatus_depth (w : Wave) (v : Word) : (w.setKstatus v).depth = w.depth := rfl
@[simp] theorem wave_setKstatus_group (w : Wave) (v : Word) : (w.setKstatus v).group = w.group := rfl
@[simp] theorem wave_setKstatus_regs (w : Wave) (v : Word) : (w.setKstatus v).regs = w.regs := rfl
@[simp] theorem wave_setKstatus_privBytes (w : Wave) (v : Word) : (w.setKstatus v).privBytes = w.privBytes := rfl
@[simp] theorem wave_setKstatus_tileCount (w : Wave) (v : Word) : (w.setKstatus v).tileCount = w.tileCount := rfl
@[simp] theorem wave_setKstatus_tiles (w : Wave) (v : Word) : (w.setKstatus v).tiles = w.tiles := rfl
@[simp] theorem wave_setKstatus_tileLost (w : Wave) (v : Word) : (w.setKstatus v).tileLost = w.tileLost := rfl
@[simp] theorem wave_setKstatus_insts (w : Wave) (v : Word) : (w.setKstatus v).insts = w.insts := rfl
@[simp] theorem wave_setKstatus_barrier (w : Wave) (v : Word) : (w.setKstatus v).barrier = w.barrier := rfl
@[simp] theorem wave_setKstatus_mainBase (w : Wave) (v : Word) : (w.setKstatus v).mainBase = w.mainBase := rfl
@[simp] theorem wave_setKstatus_tileSlots (w : Wave) (v : Word) : (w.setKstatus v).tileSlots = w.tileSlots := rfl
@[simp] theorem wave_setKstatus_idle (w : Wave) (v : Word) : (w.setKstatus v).idle = w.idle := rfl
@[simp] theorem wave_setKstatus_started (w : Wave) (v : Word) : (w.setKstatus v).started = w.started := rfl
@[simp] theorem wave_setKstatus_placed (w : Wave) (v : Word) : (w.setKstatus v).placed = w.placed := rfl
@[simp] theorem wave_setKstatus_obj (w : Wave) (v : Word) : (w.setKstatus v).obj = w.obj := rfl
@[simp] theorem wave_setKstatus_area (w : Wave) (v : Word) : (w.setKstatus v).area = w.area := rfl
@[simp] theorem wave_setKstatus_privDirty (w : Wave) (v : Word) : (w.setKstatus v).privDirty = w.privDirty := rfl
@[simp] theorem wave_setKstatus_gWait (w : Wave) (v : Word) : (w.setKstatus v).gWait = w.gWait := rfl
@[simp] theorem wave_setKstatus_spawner (w : Wave) (v : Word) : (w.setKstatus v).spawner = w.spawner := rfl

/-! The fields after Lane.raise. -/

@[simp] theorem lane_raise_pc (ln : Lane) (fl : Flags) : (ln.raise fl).pc = ln.pc := rfl
@[simp] theorem lane_raise_user (ln : Lane) (fl : Flags) : (ln.raise fl).user = ln.user := rfl
@[simp] theorem lane_raise_trap (ln : Lane) (fl : Flags) : (ln.raise fl).trap = ln.trap := rfl
@[simp] theorem lane_raise_m (ln : Lane) (fl : Flags) : (ln.raise fl).m = ln.m := rfl
@[simp] theorem lane_raise_fpmode (ln : Lane) (fl : Flags) : (ln.raise fl).fpmode = ln.fpmode := rfl
@[simp] theorem lane_raise_fpflags (ln : Lane) (fl : Flags) : (ln.raise fl).fpflags = ln.fpflags ||| BitVec.zeroExtend 32 fl := rfl
@[simp] theorem lane_raise_homehint (ln : Lane) (fl : Flags) : (ln.raise fl).homehint = ln.homehint := rfl
@[simp] theorem lane_raise_stklim (ln : Lane) (fl : Flags) : (ln.raise fl).stklim = ln.stklim := rfl
@[simp] theorem lane_raise_stack (ln : Lane) (fl : Flags) : (ln.raise fl).stack = ln.stack := rfl
@[simp] theorem lane_raise_depth (ln : Lane) (fl : Flags) : (ln.raise fl).depth = ln.depth := rfl
@[simp] theorem lane_raise_cause (ln : Lane) (fl : Flags) : (ln.raise fl).cause = ln.cause := rfl
@[simp] theorem lane_raise_trapPc (ln : Lane) (fl : Flags) : (ln.raise fl).trapPc = ln.trapPc := rfl
@[simp] theorem lane_raise_vaLo (ln : Lane) (fl : Flags) : (ln.raise fl).vaLo = ln.vaLo := rfl
@[simp] theorem lane_raise_vaHi (ln : Lane) (fl : Flags) : (ln.raise fl).vaHi = ln.vaHi := rfl
@[simp] theorem lane_raise_aux (ln : Lane) (fl : Flags) : (ln.raise fl).aux = ln.aux := rfl
@[simp] theorem lane_raise_trapRegion (ln : Lane) (fl : Flags) : (ln.raise fl).trapRegion = ln.trapRegion := rfl
@[simp] theorem lane_raise_privState (ln : Lane) (fl : Flags) : (ln.raise fl).privState = ln.privState := rfl
@[simp] theorem lane_raise_priv (ln : Lane) (fl : Flags) : (ln.raise fl).priv = ln.priv := rfl
@[simp] theorem lane_raise_wait (ln : Lane) (fl : Flags) : (ln.raise fl).wait = ln.wait := rfl
@[simp] theorem lane_raise_joined (ln : Lane) (fl : Flags) : (ln.raise fl).joined = ln.joined := rfl
@[simp] theorem lane_raise_stamp (ln : Lane) (fl : Flags) : (ln.raise fl).stamp = ln.stamp := rfl
@[simp] theorem lane_raise_split (ln : Lane) (fl : Flags) : (ln.raise fl).split = ln.split := rfl
@[simp] theorem lane_raise_late (ln : Lane) (fl : Flags) : (ln.raise fl).late = ln.late := rfl
@[simp] theorem lane_raise_parked (ln : Lane) (fl : Flags) : (ln.raise fl).parked = ln.parked := rfl
@[simp] theorem lane_raise_held (ln : Lane) (fl : Flags) : (ln.raise fl).held = ln.held := rfl
@[simp] theorem lane_raise_issued (ln : Lane) (fl : Flags) : (ln.raise fl).issued = ln.issued := rfl
@[simp] theorem lane_raise_met (ln : Lane) (fl : Flags) : (ln.raise fl).met = ln.met := rfl

/-! The fields after Bank.record. -/

@[simp] theorem bank_record_b (k : Bank) (v : Word) : (k.record v).b = k.b := rfl
@[simp] theorem bank_record_e0 (k : Bank) (v : Word) : (k.record v).e0 = v := rfl
@[simp] theorem bank_record_e1 (k : Bank) (v : Word) : (k.record v).e1 = k.e0 := rfl
@[simp] theorem bank_record_restartPc (k : Bank) (v : Word) : (k.record v).restartPc = k.restartPc := rfl
@[simp] theorem bank_record_curDesc (k : Bank) (v : Word) : (k.record v).curDesc = k.curDesc := rfl
@[simp] theorem bank_record_tail (k : Bank) (v : Word) : (k.record v).tail = k.tail := rfl
@[simp] theorem bank_record_counted (k : Bank) (v : Word) : (k.record v).counted = k.counted := rfl
@[simp] theorem bank_record_restart (k : Bank) (v : Word) : (k.record v).restart = k.restart := rfl
@[simp] theorem bank_record_expect (k : Bank) (v : Word) : (k.record v).expect = k.expect := rfl

/-! The fields after Bank.over. -/

@[simp] theorem bank_over_b (k : Bank)  : (k.over).b = k.b := rfl
@[simp] theorem bank_over_e0 (k : Bank)  : (k.over).e0 = k.e0 := rfl
@[simp] theorem bank_over_e1 (k : Bank)  : (k.over).e1 = k.e1 := rfl
@[simp] theorem bank_over_restartPc (k : Bank)  : (k.over).restartPc = k.restartPc := rfl
@[simp] theorem bank_over_curDesc (k : Bank)  : (k.over).curDesc = k.curDesc := rfl
@[simp] theorem bank_over_tail (k : Bank)  : (k.over).tail = k.tail := rfl
@[simp] theorem bank_over_counted (k : Bank)  : (k.over).counted = false := rfl
@[simp] theorem bank_over_restart (k : Bank)  : (k.over).restart = k.restart := rfl
@[simp] theorem bank_over_expect (k : Bank)  : (k.over).expect = 0 := rfl

/-! What the directory of the L2s can change (R112, R113): itself, and the write-backs that leave. -/

theorem evict_only (s : State) (a line : Nat) : ∃ d o, s.evict a line = { s with dir := d, sent := o } := by
  unfold State.evict
  repeat' split
  all_goals exact ⟨_, _, rfl⟩

theorem makeRoom_only (s : State) (a : Nat) : ∃ d o, s.makeRoom a = { s with dir := d, sent := o } := by
  unfold State.makeRoom
  dsimp only
  split
  · exact ⟨s.dir, s.sent, rfl⟩
  · split
    · exact evict_only s a _
    · exact ⟨s.dir, s.sent, rfl⟩

theorem listLine_only (s : State) (a line : Nat) (d : DirLine) : ∃ e o, s.listLine a line d = { s with dir := e, sent := o } := by
  have one (s1 : State) (h : ∃ d o, s1 = { s with dir := d, sent := o }) : ∃ e o, { s1 with dir := sput s1.dir line d } = { s with dir := e, sent := o } := by
    obtain ⟨_, o, rfl⟩ := h
    exact ⟨_, o, rfl⟩
  refine one _ ?_
  repeat' split
  all_goals first | exact makeRoom_only s a | exact ⟨s.dir, s.sent, rfl⟩

/-- A read of the cells of a line changes the count of corrected errors alone. -/
theorem readCells_only (s : State) (line : Nat) : ∃ c, s.readCells line = { s with corrected := c } := by
  unfold State.readCells
  split
  · exact ⟨_, rfl⟩
  · exact ⟨s.corrected, rfl⟩

/-- A read of a line changes no more than the directory, what is written back, and the count of corrected errors. -/
theorem receive_only (s : State) (la : Nat) : ∃ d o c, s.receive la = { s with dir := d, sent := o, corrected := c } := by
  unfold State.receive State.receiveBy
  split
  · obtain ⟨c, h⟩ := readCells_only s (lineOf la)
    obtain ⟨d, o, h2⟩ := listLine_only (s.readCells (lineOf la)) s.agent (lineOf la) { st := .e, owner := s.agent, present := 2 ^ s.agent, back := [] }
    rw [h2, h]
    exact ⟨d, o, c, rfl⟩
  · repeat' split
    · exact ⟨s.dir, s.sent, s.corrected, rfl⟩
    all_goals
      obtain ⟨d, o, h⟩ := listLine_only s s.agent (lineOf la) _
      rw [h]
      exact ⟨d, o, s.corrected, rfl⟩

/-- A store at its home changes no more than the directory, what is written back, the count of corrected errors, and the bytes stored. -/
theorem storeAs_only (s : State) (agent la : Nat) (bs : List Byte) :
    ∃ d o c, s.storeAs agent la bs = { s with dir := d, sent := o, corrected := c, mem := zwrite s.mem la bs } := by
  have key (s1 : State) (h : ∃ c, s1 = { s with corrected := c }) :
      ∃ d o c, { s1.ownBy agent (lineOf la) with mem := zwrite s.mem la bs } = { s with dir := d, sent := o, corrected := c, mem := zwrite s.mem la bs } := by
    obtain ⟨c, rfl⟩ := h
    obtain ⟨d, o, h⟩ := listLine_only { s with corrected := c } agent (lineOf la) { st := .m, owner := agent, present := 2 ^ agent, back := _ }
    unfold State.ownBy
    rw [h]
    exact ⟨d, o, c, rfl⟩
  refine key _ ?_
  split
  · exact readCells_only s _
  · exact ⟨s.corrected, rfl⟩

/-! The fields after a read or a store of a line. -/

@[simp] theorem storeAs_waves (s : State) (agent la : Nat) (bs : List Byte) : (s.storeAs agent la bs).waves = s.waves := by
  obtain ⟨_, _, _, h⟩ := storeAs_only s agent la bs; rw [h]
@[simp] theorem receive_waves (s : State) (la : Nat) : (s.receive la).waves = s.waves := by
  obtain ⟨_, _, _, h⟩ := receive_only s la; rw [h]
@[simp] theorem storeAs_blocks (s : State) (agent la : Nat) (bs : List Byte) : (s.storeAs agent la bs).blocks = s.blocks := by
  obtain ⟨_, _, _, h⟩ := storeAs_only s agent la bs; rw [h]
@[simp] theorem receive_blocks (s : State) (la : Nat) : (s.receive la).blocks = s.blocks := by
  obtain ⟨_, _, _, h⟩ := receive_only s la; rw [h]
@[simp] theorem storeAs_cores (s : State) (agent la : Nat) (bs : List Byte) : (s.storeAs agent la bs).cores = s.cores := by
  obtain ⟨_, _, _, h⟩ := storeAs_only s agent la bs; rw [h]
@[simp] theorem receive_cores (s : State) (la : Nat) : (s.receive la).cores = s.cores := by
  obtain ⟨_, _, _, h⟩ := receive_only s la; rw [h]
@[simp] theorem receive_mem (s : State) (la : Nat) : (s.receive la).mem = s.mem := by
  obtain ⟨_, _, _, h⟩ := receive_only s la; rw [h]
@[simp] theorem storeAs_poison (s : State) (agent la : Nat) (bs : List Byte) : (s.storeAs agent la bs).poison = s.poison := by
  obtain ⟨_, _, _, h⟩ := storeAs_only s agent la bs; rw [h]
@[simp] theorem receive_poison (s : State) (la : Nat) : (s.receive la).poison = s.poison := by
  obtain ⟨_, _, _, h⟩ := receive_only s la; rw [h]
@[simp] theorem storeAs_ecc (s : State) (agent la : Nat) (bs : List Byte) : (s.storeAs agent la bs).ecc = s.ecc := by
  obtain ⟨_, _, _, h⟩ := storeAs_only s agent la bs; rw [h]
@[simp] theorem receive_ecc (s : State) (la : Nat) : (s.receive la).ecc = s.ecc := by
  obtain ⟨_, _, _, h⟩ := receive_only s la; rw [h]
@[simp] theorem storeAs_flows (s : State) (agent la : Nat) (bs : List Byte) : (s.storeAs agent la bs).flows = s.flows := by
  obtain ⟨_, _, _, h⟩ := storeAs_only s agent la bs; rw [h]
@[simp] theorem storeAs_softEcc (s : State) (agent la : Nat) (bs : List Byte) : (s.storeAs agent la bs).softEcc = s.softEcc := by
  obtain ⟨_, _, _, h⟩ := storeAs_only s agent la bs; rw [h]
@[simp] theorem receive_flows (s : State) (la : Nat) : (s.receive la).flows = s.flows := by
  obtain ⟨_, _, _, h⟩ := receive_only s la; rw [h]
@[simp] theorem receive_softEcc (s : State) (la : Nat) : (s.receive la).softEcc = s.softEcc := by
  obtain ⟨_, _, _, h⟩ := receive_only s la; rw [h]
@[simp] theorem storeAs_bars (s : State) (agent la : Nat) (bs : List Byte) : (s.storeAs agent la bs).bars = s.bars := by
  obtain ⟨_, _, _, h⟩ := storeAs_only s agent la bs; rw [h]
@[simp] theorem receive_bars (s : State) (la : Nat) : (s.receive la).bars = s.bars := by
  obtain ⟨_, _, _, h⟩ := receive_only s la; rw [h]
@[simp] theorem storeAs_tlb (s : State) (agent la : Nat) (bs : List Byte) : (s.storeAs agent la bs).tlb = s.tlb := by
  obtain ⟨_, _, _, h⟩ := storeAs_only s agent la bs; rw [h]
@[simp] theorem storeAs_tables (s : State) (agent la : Nat) (bs : List Byte) : (s.storeAs agent la bs).tables = s.tables := by
  obtain ⟨_, _, _, h⟩ := storeAs_only s agent la bs; rw [h]
@[simp] theorem receive_tlb (s : State) (la : Nat) : (s.receive la).tlb = s.tlb := by
  obtain ⟨_, _, _, h⟩ := receive_only s la; rw [h]
@[simp] theorem receive_tables (s : State) (la : Nat) : (s.receive la).tables = s.tables := by
  obtain ⟨_, _, _, h⟩ := receive_only s la; rw [h]
@[simp] theorem storeAs_ctxs (s : State) (agent la : Nat) (bs : List Byte) : (s.storeAs agent la bs).ctxs = s.ctxs := by
  obtain ⟨_, _, _, h⟩ := storeAs_only s agent la bs; rw [h]
@[simp] theorem receive_ctxs (s : State) (la : Nat) : (s.receive la).ctxs = s.ctxs := by
  obtain ⟨_, _, _, h⟩ := receive_only s la; rw [h]
@[simp] theorem storeAs_cfg (s : State) (agent la : Nat) (bs : List Byte) : (s.storeAs agent la bs).cfg = s.cfg := by
  obtain ⟨_, _, _, h⟩ := storeAs_only s agent la bs; rw [h]
@[simp] theorem receive_cfg (s : State) (la : Nat) : (s.receive la).cfg = s.cfg := by
  obtain ⟨_, _, _, h⟩ := receive_only s la; rw [h]
@[simp] theorem storeAs_harvest (s : State) (agent la : Nat) (bs : List Byte) : (s.storeAs agent la bs).harvest = s.harvest := by
  obtain ⟨_, _, _, h⟩ := storeAs_only s agent la bs; rw [h]
@[simp] theorem receive_harvest (s : State) (la : Nat) : (s.receive la).harvest = s.harvest := by
  obtain ⟨_, _, _, h⟩ := receive_only s la; rw [h]
@[simp] theorem storeAs_linkTrapW (s : State) (agent la : Nat) (bs : List Byte) : (s.storeAs agent la bs).linkTrapW = s.linkTrapW := by
  obtain ⟨_, _, _, h⟩ := storeAs_only s agent la bs; rw [h]
@[simp] theorem receive_linkTrapW (s : State) (la : Nat) : (s.receive la).linkTrapW = s.linkTrapW := by
  obtain ⟨_, _, _, h⟩ := receive_only s la; rw [h]
@[simp] theorem storeAs_links (s : State) (agent la : Nat) (bs : List Byte) : (s.storeAs agent la bs).links = s.links := by
  obtain ⟨_, _, _, h⟩ := storeAs_only s agent la bs; rw [h]
@[simp] theorem receive_links (s : State) (la : Nat) : (s.receive la).links = s.links := by
  obtain ⟨_, _, _, h⟩ := receive_only s la; rw [h]
@[simp] theorem storeAs_linkCtl (s : State) (agent la : Nat) (bs : List Byte) : (s.storeAs agent la bs).linkCtl = s.linkCtl := by
  obtain ⟨_, _, _, h⟩ := storeAs_only s agent la bs; rw [h]
@[simp] theorem receive_linkCtl (s : State) (la : Nat) : (s.receive la).linkCtl = s.linkCtl := by
  obtain ⟨_, _, _, h⟩ := receive_only s la; rw [h]
@[simp] theorem storeAs_fabric (s : State) (agent la : Nat) (bs : List Byte) : (s.storeAs agent la bs).fabric = s.fabric := by
  obtain ⟨_, _, _, h⟩ := storeAs_only s agent la bs; rw [h]
@[simp] theorem receive_fabric (s : State) (la : Nat) : (s.receive la).fabric = s.fabric := by
  obtain ⟨_, _, _, h⟩ := receive_only s la; rw [h]
@[simp] theorem storeAs_bringup (s : State) (agent la : Nat) (bs : List Byte) : (s.storeAs agent la bs).bringup = s.bringup := by
  obtain ⟨_, _, _, h⟩ := storeAs_only s agent la bs; rw [h]
@[simp] theorem receive_bringup (s : State) (la : Nat) : (s.receive la).bringup = s.bringup := by
  obtain ⟨_, _, _, h⟩ := receive_only s la; rw [h]
@[simp] theorem storeAs_controller (s : State) (agent la : Nat) (bs : List Byte) : (s.storeAs agent la bs).controller = s.controller := by
  obtain ⟨_, _, _, h⟩ := storeAs_only s agent la bs; rw [h]
@[simp] theorem receive_controller (s : State) (la : Nat) : (s.receive la).controller = s.controller := by
  obtain ⟨_, _, _, h⟩ := receive_only s la; rw [h]
@[simp] theorem storeAs_host (s : State) (agent la : Nat) (bs : List Byte) : (s.storeAs agent la bs).host = s.host := by
  obtain ⟨_, _, _, h⟩ := storeAs_only s agent la bs; rw [h]
@[simp] theorem receive_host (s : State) (la : Nat) : (s.receive la).host = s.host := by
  obtain ⟨_, _, _, h⟩ := receive_only s la; rw [h]
@[simp] theorem storeAs_infoPage (s : State) (agent la : Nat) (bs : List Byte) : (s.storeAs agent la bs).infoPage = s.infoPage := by
  obtain ⟨_, _, _, h⟩ := storeAs_only s agent la bs; rw [h]
@[simp] theorem receive_infoPage (s : State) (la : Nat) : (s.receive la).infoPage = s.infoPage := by
  obtain ⟨_, _, _, h⟩ := receive_only s la; rw [h]
@[simp] theorem storeAs_rxDrop (s : State) (agent la : Nat) (bs : List Byte) : (s.storeAs agent la bs).rxDrop = s.rxDrop := by
  obtain ⟨_, _, _, h⟩ := storeAs_only s agent la bs; rw [h]
@[simp] theorem receive_rxDrop (s : State) (la : Nat) : (s.receive la).rxDrop = s.rxDrop := by
  obtain ⟨_, _, _, h⟩ := receive_only s la; rw [h]
@[simp] theorem storeAs_ethMsgUdp (s : State) (agent la : Nat) (bs : List Byte) : (s.storeAs agent la bs).ethMsgUdp = s.ethMsgUdp := by
  obtain ⟨_, _, _, h⟩ := storeAs_only s agent la bs; rw [h]
@[simp] theorem receive_ethMsgUdp (s : State) (la : Nat) : (s.receive la).ethMsgUdp = s.ethMsgUdp := by
  obtain ⟨_, _, _, h⟩ := receive_only s la; rw [h]
@[simp] theorem storeAs_ptpLock (s : State) (agent la : Nat) (bs : List Byte) : (s.storeAs agent la bs).ptpLock = s.ptpLock := by
  obtain ⟨_, _, _, h⟩ := storeAs_only s agent la bs; rw [h]
@[simp] theorem receive_ptpLock (s : State) (la : Nat) : (s.receive la).ptpLock = s.ptpLock := by
  obtain ⟨_, _, _, h⟩ := receive_only s la; rw [h]
@[simp] theorem storeAs_ptpEver (s : State) (agent la : Nat) (bs : List Byte) : (s.storeAs agent la bs).ptpEver = s.ptpEver := by
  obtain ⟨_, _, _, h⟩ := storeAs_only s agent la bs; rw [h]
@[simp] theorem receive_ptpEver (s : State) (la : Nat) : (s.receive la).ptpEver = s.ptpEver := by
  obtain ⟨_, _, _, h⟩ := receive_only s la; rw [h]
@[simp] theorem storeAs_unexpected (s : State) (agent la : Nat) (bs : List Byte) : (s.storeAs agent la bs).unexpected = s.unexpected := by
  obtain ⟨_, _, _, h⟩ := storeAs_only s agent la bs; rw [h]
@[simp] theorem receive_unexpected (s : State) (la : Nat) : (s.receive la).unexpected = s.unexpected := by
  obtain ⟨_, _, _, h⟩ := receive_only s la; rw [h]
@[simp] theorem storeAs_objs (s : State) (agent la : Nat) (bs : List Byte) : (s.storeAs agent la bs).objs = s.objs := by
  obtain ⟨_, _, _, h⟩ := storeAs_only s agent la bs; rw [h]
@[simp] theorem receive_objs (s : State) (la : Nat) : (s.receive la).objs = s.objs := by
  obtain ⟨_, _, _, h⟩ := receive_only s la; rw [h]
@[simp] theorem storeAs_names (s : State) (agent la : Nat) (bs : List Byte) : (s.storeAs agent la bs).names = s.names := by
  obtain ⟨_, _, _, h⟩ := storeAs_only s agent la bs; rw [h]
@[simp] theorem receive_names (s : State) (la : Nat) : (s.receive la).names = s.names := by
  obtain ⟨_, _, _, h⟩ := receive_only s la; rw [h]
@[simp] theorem storeAs_kmsgs (s : State) (agent la : Nat) (bs : List Byte) : (s.storeAs agent la bs).kmsgs = s.kmsgs := by
  obtain ⟨_, _, _, h⟩ := storeAs_only s agent la bs; rw [h]
@[simp] theorem receive_kmsgs (s : State) (la : Nat) : (s.receive la).kmsgs = s.kmsgs := by
  obtain ⟨_, _, _, h⟩ := receive_only s la; rw [h]
@[simp] theorem storeAs_kmsgNext (s : State) (agent la : Nat) (bs : List Byte) : (s.storeAs agent la bs).kmsgNext = s.kmsgNext := by
  obtain ⟨_, _, _, h⟩ := storeAs_only s agent la bs; rw [h]
@[simp] theorem receive_kmsgNext (s : State) (la : Nat) : (s.receive la).kmsgNext = s.kmsgNext := by
  obtain ⟨_, _, _, h⟩ := receive_only s la; rw [h]
@[simp] theorem storeAs_kmsgSeen (s : State) (agent la : Nat) (bs : List Byte) : (s.storeAs agent la bs).kmsgSeen = s.kmsgSeen := by
  obtain ⟨_, _, _, h⟩ := storeAs_only s agent la bs; rw [h]
@[simp] theorem receive_kmsgSeen (s : State) (la : Nat) : (s.receive la).kmsgSeen = s.kmsgSeen := by
  obtain ⟨_, _, _, h⟩ := receive_only s la; rw [h]
@[simp] theorem storeAs_kmsgHeld (s : State) (agent la : Nat) (bs : List Byte) : (s.storeAs agent la bs).kmsgHeld = s.kmsgHeld := by
  obtain ⟨_, _, _, h⟩ := storeAs_only s agent la bs; rw [h]
@[simp] theorem receive_kmsgHeld (s : State) (la : Nat) : (s.receive la).kmsgHeld = s.kmsgHeld := by
  obtain ⟨_, _, _, h⟩ := receive_only s la; rw [h]
@[simp] theorem storeAs_arriving (s : State) (agent la : Nat) (bs : List Byte) : (s.storeAs agent la bs).arriving = s.arriving := by
  obtain ⟨_, _, _, h⟩ := storeAs_only s agent la bs; rw [h]
@[simp] theorem receive_arriving (s : State) (la : Nat) : (s.receive la).arriving = s.arriving := by
  obtain ⟨_, _, _, h⟩ := receive_only s la; rw [h]
@[simp] theorem storeAs_pool (s : State) (agent la : Nat) (bs : List Byte) : (s.storeAs agent la bs).pool = s.pool := by
  obtain ⟨_, _, _, h⟩ := storeAs_only s agent la bs; rw [h]
@[simp] theorem receive_pool (s : State) (la : Nat) : (s.receive la).pool = s.pool := by
  obtain ⟨_, _, _, h⟩ := receive_only s la; rw [h]
@[simp] theorem storeAs_gpReject (s : State) (agent la : Nat) (bs : List Byte) : (s.storeAs agent la bs).gpReject = s.gpReject := by
  obtain ⟨_, _, _, h⟩ := storeAs_only s agent la bs; rw [h]
@[simp] theorem receive_gpReject (s : State) (la : Nat) : (s.receive la).gpReject = s.gpReject := by
  obtain ⟨_, _, _, h⟩ := receive_only s la; rw [h]
@[simp] theorem storeAs_allocs (s : State) (agent la : Nat) (bs : List Byte) : (s.storeAs agent la bs).allocs = s.allocs := by
  obtain ⟨_, _, _, h⟩ := storeAs_only s agent la bs; rw [h]
@[simp] theorem receive_allocs (s : State) (la : Nat) : (s.receive la).allocs = s.allocs := by
  obtain ⟨_, _, _, h⟩ := receive_only s la; rw [h]
@[simp] theorem storeAs_exchanges (s : State) (agent la : Nat) (bs : List Byte) : (s.storeAs agent la bs).exchanges = s.exchanges := by
  obtain ⟨_, _, _, h⟩ := storeAs_only s agent la bs; rw [h]
@[simp] theorem storeAs_parted (s : State) (agent la : Nat) (bs : List Byte) : (s.storeAs agent la bs).parted = s.parted := by
  obtain ⟨_, _, _, h⟩ := storeAs_only s agent la bs; rw [h]
@[simp] theorem receive_exchanges (s : State) (la : Nat) : (s.receive la).exchanges = s.exchanges := by
  obtain ⟨_, _, _, h⟩ := receive_only s la; rw [h]
@[simp] theorem receive_parted (s : State) (la : Nat) : (s.receive la).parted = s.parted := by
  obtain ⟨_, _, _, h⟩ := receive_only s la; rw [h]
@[simp] theorem storeAs_setters (s : State) (agent la : Nat) (bs : List Byte) : (s.storeAs agent la bs).setters = s.setters := by
  obtain ⟨_, _, _, h⟩ := storeAs_only s agent la bs; rw [h]
@[simp] theorem receive_setters (s : State) (la : Nat) : (s.receive la).setters = s.setters := by
  obtain ⟨_, _, _, h⟩ := receive_only s la; rw [h]
@[simp] theorem storeAs_queues (s : State) (agent la : Nat) (bs : List Byte) : (s.storeAs agent la bs).queues = s.queues := by
  obtain ⟨_, _, _, h⟩ := storeAs_only s agent la bs; rw [h]
@[simp] theorem receive_queues (s : State) (la : Nat) : (s.receive la).queues = s.queues := by
  obtain ⟨_, _, _, h⟩ := receive_only s la; rw [h]
@[simp] theorem storeAs_launches (s : State) (agent la : Nat) (bs : List Byte) : (s.storeAs agent la bs).launches = s.launches := by
  obtain ⟨_, _, _, h⟩ := storeAs_only s agent la bs; rw [h]
@[simp] theorem receive_launches (s : State) (la : Nat) : (s.receive la).launches = s.launches := by
  obtain ⟨_, _, _, h⟩ := receive_only s la; rw [h]
@[simp] theorem storeAs_handles (s : State) (agent la : Nat) (bs : List Byte) : (s.storeAs agent la bs).handles = s.handles := by
  obtain ⟨_, _, _, h⟩ := storeAs_only s agent la bs; rw [h]
@[simp] theorem receive_handles (s : State) (la : Nat) : (s.receive la).handles = s.handles := by
  obtain ⟨_, _, _, h⟩ := receive_only s la; rw [h]
@[simp] theorem storeAs_runQueue (s : State) (agent la : Nat) (bs : List Byte) : (s.storeAs agent la bs).runQueue = s.runQueue := by
  obtain ⟨_, _, _, h⟩ := storeAs_only s agent la bs; rw [h]
@[simp] theorem receive_runQueue (s : State) (la : Nat) : (s.receive la).runQueue = s.runQueue := by
  obtain ⟨_, _, _, h⟩ := receive_only s la; rw [h]
@[simp] theorem storeAs_spawned (s : State) (agent la : Nat) (bs : List Byte) : (s.storeAs agent la bs).spawned = s.spawned := by
  obtain ⟨_, _, _, h⟩ := storeAs_only s agent la bs; rw [h]
@[simp] theorem receive_spawned (s : State) (la : Nat) : (s.receive la).spawned = s.spawned := by
  obtain ⟨_, _, _, h⟩ := receive_only s la; rw [h]
@[simp] theorem storeAs_kilnChecks (s : State) (agent la : Nat) (bs : List Byte) : (s.storeAs agent la bs).kilnChecks = s.kilnChecks := by
  obtain ⟨_, _, _, h⟩ := storeAs_only s agent la bs; rw [h]
@[simp] theorem receive_kilnChecks (s : State) (la : Nat) : (s.receive la).kilnChecks = s.kilnChecks := by
  obtain ⟨_, _, _, h⟩ := receive_only s la; rw [h]
@[simp] theorem storeAs_clkStretch (s : State) (agent la : Nat) (bs : List Byte) : (s.storeAs agent la bs).clkStretch = s.clkStretch := by
  obtain ⟨_, _, _, h⟩ := storeAs_only s agent la bs; rw [h]
@[simp] theorem receive_clkStretch (s : State) (la : Nat) : (s.receive la).clkStretch = s.clkStretch := by
  obtain ⟨_, _, _, h⟩ := receive_only s la; rw [h]
@[simp] theorem storeAs_pkgid (s : State) (agent la : Nat) (bs : List Byte) : (s.storeAs agent la bs).pkgid = s.pkgid := by
  obtain ⟨_, _, _, h⟩ := storeAs_only s agent la bs; rw [h]
@[simp] theorem receive_pkgid (s : State) (la : Nat) : (s.receive la).pkgid = s.pkgid := by
  obtain ⟨_, _, _, h⟩ := receive_only s la; rw [h]
@[simp] theorem storeAs_podsize (s : State) (agent la : Nat) (bs : List Byte) : (s.storeAs agent la bs).podsize = s.podsize := by
  obtain ⟨_, _, _, h⟩ := storeAs_only s agent la bs; rw [h]
@[simp] theorem receive_podsize (s : State) (la : Nat) : (s.receive la).podsize = s.podsize := by
  obtain ⟨_, _, _, h⟩ := receive_only s la; rw [h]
@[simp] theorem storeAs_hostgib (s : State) (agent la : Nat) (bs : List Byte) : (s.storeAs agent la bs).hostgib = s.hostgib := by
  obtain ⟨_, _, _, h⟩ := storeAs_only s agent la bs; rw [h]
@[simp] theorem receive_hostgib (s : State) (la : Nat) : (s.receive la).hostgib = s.hostgib := by
  obtain ⟨_, _, _, h⟩ := receive_only s la; rw [h]
@[simp] theorem storeAs_fatalTraps (s : State) (agent la : Nat) (bs : List Byte) : (s.storeAs agent la bs).fatalTraps = s.fatalTraps := by
  obtain ⟨_, _, _, h⟩ := storeAs_only s agent la bs; rw [h]
@[simp] theorem receive_fatalTraps (s : State) (la : Nat) : (s.receive la).fatalTraps = s.fatalTraps := by
  obtain ⟨_, _, _, h⟩ := receive_only s la; rw [h]
@[simp] theorem storeAs_time (s : State) (agent la : Nat) (bs : List Byte) : (s.storeAs agent la bs).time = s.time := by
  obtain ⟨_, _, _, h⟩ := storeAs_only s agent la bs; rw [h]
@[simp] theorem storeAs_exited (s : State) (agent la : Nat) (bs : List Byte) : (s.storeAs agent la bs).exited = s.exited := by
  obtain ⟨_, _, _, h⟩ := storeAs_only s agent la bs; rw [h]
@[simp] theorem storeAs_waiting (s : State) (agent la : Nat) (bs : List Byte) : (s.storeAs agent la bs).waiting = s.waiting := by
  obtain ⟨_, _, _, h⟩ := storeAs_only s agent la bs; rw [h]
@[simp] theorem receive_time (s : State) (la : Nat) : (s.receive la).time = s.time := by
  obtain ⟨_, _, _, h⟩ := receive_only s la; rw [h]
@[simp] theorem receive_exited (s : State) (la : Nat) : (s.receive la).exited = s.exited := by
  obtain ⟨_, _, _, h⟩ := receive_only s la; rw [h]
@[simp] theorem receive_waiting (s : State) (la : Nat) : (s.receive la).waiting = s.waiting := by
  obtain ⟨_, _, _, h⟩ := receive_only s la; rw [h]
@[simp] theorem storeAs_focus (s : State) (agent la : Nat) (bs : List Byte) : (s.storeAs agent la bs).focus = s.focus := by
  obtain ⟨_, _, _, h⟩ := storeAs_only s agent la bs; rw [h]
@[simp] theorem receive_focus (s : State) (la : Nat) : (s.receive la).focus = s.focus := by
  obtain ⟨_, _, _, h⟩ := receive_only s la; rw [h]
@[simp] theorem storeAs_run (s : State) (agent la : Nat) (bs : List Byte) : (s.storeAs agent la bs).run = s.run := by
  obtain ⟨_, _, _, h⟩ := storeAs_only s agent la bs; rw [h]
@[simp] theorem receive_run (s : State) (la : Nat) : (s.receive la).run = s.run := by
  obtain ⟨_, _, _, h⟩ := receive_only s la; rw [h]
@[simp] theorem storeAs_input (s : State) (agent la : Nat) (bs : List Byte) : (s.storeAs agent la bs).input = s.input := by
  obtain ⟨_, _, _, h⟩ := storeAs_only s agent la bs; rw [h]
@[simp] theorem receive_input (s : State) (la : Nat) : (s.receive la).input = s.input := by
  obtain ⟨_, _, _, h⟩ := receive_only s la; rw [h]
@[simp] theorem storeAs_agenda (s : State) (agent la : Nat) (bs : List Byte) : (s.storeAs agent la bs).agenda = s.agenda := by
  obtain ⟨_, _, _, h⟩ := storeAs_only s agent la bs; rw [h]
@[simp] theorem receive_agenda (s : State) (la : Nat) : (s.receive la).agenda = s.agenda := by
  obtain ⟨_, _, _, h⟩ := receive_only s la; rw [h]
@[simp] theorem storeAs_slot2 (s : State) (agent la : Nat) (bs : List Byte) : (s.storeAs agent la bs).slot2 = s.slot2 := by
  obtain ⟨_, _, _, h⟩ := storeAs_only s agent la bs; rw [h]
@[simp] theorem receive_slot2 (s : State) (la : Nat) : (s.receive la).slot2 = s.slot2 := by
  obtain ⟨_, _, _, h⟩ := receive_only s la; rw [h]
@[simp] theorem storeAs_freeCtr (s : State) (agent la : Nat) (bs : List Byte) : (s.storeAs agent la bs).freeCtr = s.freeCtr := by
  obtain ⟨_, _, _, h⟩ := storeAs_only s agent la bs; rw [h]
@[simp] theorem receive_freeCtr (s : State) (la : Nat) : (s.receive la).freeCtr = s.freeCtr := by
  obtain ⟨_, _, _, h⟩ := receive_only s la; rw [h]
@[simp] theorem storeAs_ticket (s : State) (agent la : Nat) (bs : List Byte) : (s.storeAs agent la bs).ticket = s.ticket := by
  obtain ⟨_, _, _, h⟩ := storeAs_only s agent la bs; rw [h]
@[simp] theorem receive_ticket (s : State) (la : Nat) : (s.receive la).ticket = s.ticket := by
  obtain ⟨_, _, _, h⟩ := receive_only s la; rw [h]

/-! The fields after State.unpoison. -/

@[simp] theorem unpoison_waves (s : State) (line : Nat) : (s.unpoison line).waves = s.waves := rfl
@[simp] theorem unpoison_blocks (s : State) (line : Nat) : (s.unpoison line).blocks = s.blocks := rfl
@[simp] theorem unpoison_cores (s : State) (line : Nat) : (s.unpoison line).cores = s.cores := rfl
@[simp] theorem unpoison_mem (s : State) (line : Nat) : (s.unpoison line).mem = s.mem := rfl
@[simp] theorem unpoison_dir (s : State) (line : Nat) : (s.unpoison line).dir = s.dir := rfl
@[simp] theorem unpoison_flows (s : State) (line : Nat) : (s.unpoison line).flows = s.flows := rfl
@[simp] theorem unpoison_softEcc (s : State) (line : Nat) : (s.unpoison line).softEcc = s.softEcc := rfl
@[simp] theorem unpoison_corrected (s : State) (line : Nat) : (s.unpoison line).corrected = s.corrected := rfl
@[simp] theorem unpoison_bars (s : State) (line : Nat) : (s.unpoison line).bars = s.bars := rfl
@[simp] theorem unpoison_tlb (s : State) (line : Nat) : (s.unpoison line).tlb = s.tlb := rfl
@[simp] theorem unpoison_tables (s : State) (line : Nat) : (s.unpoison line).tables = s.tables := rfl
@[simp] theorem unpoison_ctxs (s : State) (line : Nat) : (s.unpoison line).ctxs = s.ctxs := rfl
@[simp] theorem unpoison_cfg (s : State) (line : Nat) : (s.unpoison line).cfg = s.cfg := rfl
@[simp] theorem unpoison_harvest (s : State) (line : Nat) : (s.unpoison line).harvest = s.harvest := rfl
@[simp] theorem unpoison_linkTrapW (s : State) (line : Nat) : (s.unpoison line).linkTrapW = s.linkTrapW := rfl
@[simp] theorem unpoison_links (s : State) (line : Nat) : (s.unpoison line).links = s.links := rfl
@[simp] theorem unpoison_linkCtl (s : State) (line : Nat) : (s.unpoison line).linkCtl = s.linkCtl := rfl
@[simp] theorem unpoison_fabric (s : State) (line : Nat) : (s.unpoison line).fabric = s.fabric := rfl
@[simp] theorem unpoison_bringup (s : State) (line : Nat) : (s.unpoison line).bringup = s.bringup := rfl
@[simp] theorem unpoison_controller (s : State) (line : Nat) : (s.unpoison line).controller = s.controller := rfl
@[simp] theorem unpoison_host (s : State) (line : Nat) : (s.unpoison line).host = s.host := rfl
@[simp] theorem unpoison_infoPage (s : State) (line : Nat) : (s.unpoison line).infoPage = s.infoPage := rfl
@[simp] theorem unpoison_rxDrop (s : State) (line : Nat) : (s.unpoison line).rxDrop = s.rxDrop := rfl
@[simp] theorem unpoison_ethMsgUdp (s : State) (line : Nat) : (s.unpoison line).ethMsgUdp = s.ethMsgUdp := rfl
@[simp] theorem unpoison_ptpLock (s : State) (line : Nat) : (s.unpoison line).ptpLock = s.ptpLock := rfl
@[simp] theorem unpoison_ptpEver (s : State) (line : Nat) : (s.unpoison line).ptpEver = s.ptpEver := rfl
@[simp] theorem unpoison_unexpected (s : State) (line : Nat) : (s.unpoison line).unexpected = s.unexpected := rfl
@[simp] theorem unpoison_objs (s : State) (line : Nat) : (s.unpoison line).objs = s.objs := rfl
@[simp] theorem unpoison_names (s : State) (line : Nat) : (s.unpoison line).names = s.names := rfl
@[simp] theorem unpoison_kmsgs (s : State) (line : Nat) : (s.unpoison line).kmsgs = s.kmsgs := rfl
@[simp] theorem unpoison_kmsgNext (s : State) (line : Nat) : (s.unpoison line).kmsgNext = s.kmsgNext := rfl
@[simp] theorem unpoison_kmsgSeen (s : State) (line : Nat) : (s.unpoison line).kmsgSeen = s.kmsgSeen := rfl
@[simp] theorem unpoison_kmsgHeld (s : State) (line : Nat) : (s.unpoison line).kmsgHeld = s.kmsgHeld := rfl
@[simp] theorem unpoison_arriving (s : State) (line : Nat) : (s.unpoison line).arriving = s.arriving := rfl
@[simp] theorem unpoison_pool (s : State) (line : Nat) : (s.unpoison line).pool = s.pool := rfl
@[simp] theorem unpoison_gpReject (s : State) (line : Nat) : (s.unpoison line).gpReject = s.gpReject := rfl
@[simp] theorem unpoison_allocs (s : State) (line : Nat) : (s.unpoison line).allocs = s.allocs := rfl
@[simp] theorem unpoison_exchanges (s : State) (line : Nat) : (s.unpoison line).exchanges = s.exchanges := rfl
@[simp] theorem unpoison_parted (s : State) (line : Nat) : (s.unpoison line).parted = s.parted := rfl
@[simp] theorem unpoison_setters (s : State) (line : Nat) : (s.unpoison line).setters = s.setters := rfl
@[simp] theorem unpoison_queues (s : State) (line : Nat) : (s.unpoison line).queues = s.queues := rfl
@[simp] theorem unpoison_launches (s : State) (line : Nat) : (s.unpoison line).launches = s.launches := rfl
@[simp] theorem unpoison_handles (s : State) (line : Nat) : (s.unpoison line).handles = s.handles := rfl
@[simp] theorem unpoison_runQueue (s : State) (line : Nat) : (s.unpoison line).runQueue = s.runQueue := rfl
@[simp] theorem unpoison_spawned (s : State) (line : Nat) : (s.unpoison line).spawned = s.spawned := rfl
@[simp] theorem unpoison_kilnChecks (s : State) (line : Nat) : (s.unpoison line).kilnChecks = s.kilnChecks := rfl
@[simp] theorem unpoison_clkStretch (s : State) (line : Nat) : (s.unpoison line).clkStretch = s.clkStretch := rfl
@[simp] theorem unpoison_pkgid (s : State) (line : Nat) : (s.unpoison line).pkgid = s.pkgid := rfl
@[simp] theorem unpoison_podsize (s : State) (line : Nat) : (s.unpoison line).podsize = s.podsize := rfl
@[simp] theorem unpoison_hostgib (s : State) (line : Nat) : (s.unpoison line).hostgib = s.hostgib := rfl
@[simp] theorem unpoison_fatalTraps (s : State) (line : Nat) : (s.unpoison line).fatalTraps = s.fatalTraps := rfl
@[simp] theorem unpoison_time (s : State) (line : Nat) : (s.unpoison line).time = s.time := rfl
@[simp] theorem unpoison_exited (s : State) (line : Nat) : (s.unpoison line).exited = s.exited := rfl
@[simp] theorem unpoison_waiting (s : State) (line : Nat) : (s.unpoison line).waiting = s.waiting := rfl
@[simp] theorem unpoison_sent (s : State) (line : Nat) : (s.unpoison line).sent = s.sent := rfl
@[simp] theorem unpoison_focus (s : State) (line : Nat) : (s.unpoison line).focus = s.focus := rfl
@[simp] theorem unpoison_run (s : State) (line : Nat) : (s.unpoison line).run = s.run := rfl
@[simp] theorem unpoison_input (s : State) (line : Nat) : (s.unpoison line).input = s.input := rfl
@[simp] theorem unpoison_agenda (s : State) (line : Nat) : (s.unpoison line).agenda = s.agenda := rfl
@[simp] theorem unpoison_slot2 (s : State) (line : Nat) : (s.unpoison line).slot2 = s.slot2 := rfl
@[simp] theorem unpoison_freeCtr (s : State) (line : Nat) : (s.unpoison line).freeCtr = s.freeCtr := rfl
@[simp] theorem unpoison_ticket (s : State) (line : Nat) : (s.unpoison line).ticket = s.ticket := rfl

end Sys2Proof.Machine
end

