-- ==== Sys2Proof/Laws/Settle.lean ====
section
/-! SUPPORT. A part of an instruction that ends at once leaves nothing outstanding: completions, traps and ends of lanes, and the lanes and
waves that the operations behind them leave alone. -/

namespace Sys2Proof.Machine

/-- A lane that waits for nothing reads its wave as it is. -/
theorem asSeen_none (w : Wave) {ln : Lane} (h : ln.wait = none) : w.asSeen ln = w := by simp [Wave.asSeen, h]

/-- An instruction of one lane that waited for nothing and waits for nothing after it leaves no part outstanding (R247). -/
theorem settled_through {s s1 : State} {fo : Focus} {w : Wave} {l : Nat} {ln : Lane} (h : Solo s fo w l ln) (hw : ln.wait = none) (d : Opd)
    (n : Nat) (ht : ∀ x, s1.lane fo.wave l = some x → x.wait = none) : s.settled s1 d n = s1 := by
  simp only [State.settled, h.focus, State.settleG, h.wave]
  have hp : w.gPart fo = none := by
    simp [Wave.gPart, List.find?_eq_none, h.lanes, Wave.stands, h.lane, hw]
  split
  · rename_i w0 w1 _ h0 h1
    obtain rfl : w = w0 := Option.some.inj h0
    have : w1.stands l = false := by
      simp only [State.lane, h1] at ht
      unfold Wave.stands
      split
      · rename_i x hx; simp [ht x hx]
      · rfl
    simp [hp, h.lanes, this]
  · rfl

/-- What releasing waits does to a lane. -/
theorem lane_release (s : State) (p : WaitKind → Bool) (st : Nat) (v : Word) (bs : List Byte) (u l : Nat) :
    (s.release p st v bs).lane u l = (s.lane u l).map (fun x =>
      { x with wait := x.wait.map (fun w => w.release p st v bs), parked := x.parked.map (fun q => { q with wait := q.wait.release p st v bs }) }) := by
  have h := sget_map s.waves (fun _ w => { w with lanes := w.lanes.map (fun x => (x.1, ({ x.2 with
    wait := x.2.wait.map (fun w => w.release p st v bs),
    parked := x.2.parked.map (fun q => { q with wait := q.wait.release p st v bs }) } : Lane))) }) u
  simp only [State.lane, State.wave, State.release, h]
  cases sget s.waves u with
  | none => rfl
  | some w => exact sget_map w.lanes (fun _ x => { x with wait := x.wait.map (fun w => w.release p st v bs), parked := x.parked.map (fun q => { q with wait := q.wait.release p st v bs }) }) l

/-- A barrier replaced leaves every lane. -/
theorem lane_setBarrier (s : State) (level inst index : Nat) (b : Barrier) (u l : Nat) : (s.setBarrier level inst index b).lane u l = s.lane u l := by
  unfold State.setBarrier
  split
  · simp only [State.lane, wave_modWave]
    by_cases h : u = inst
    · subst h; cases s.wave u <;> simp [Wave.lane]
    · simp [h]
  · rfl
  · rfl

/-- Counting a group leaves the waves. -/
theorem waves_countGroup (s : State) (q : Nat) (tx : Bool) : (s.countGroup q tx).waves = s.waves := by
  simp only [State.countGroup]; (repeat' split) <;> rfl

/-- Telling the pod leaves the waves. -/
theorem waves_tellPod (s : State) (index : Nat) (m : PodBarrierMsg) : (s.tellPod index m).waves = s.waves := by
  simp only [State.tellPod, State.sendFlit, State.leave]
  (repeat' split) <;> first | rfl | exact waves_countGroup _ _ _

/-- A lane that is not there stays away when a barrier is looked at again. -/
theorem lane_recheck (s : State) (level inst index u l : Nat) (h : s.lane u l = none) : (s.recheck level inst index).lane u l = none := by
  simp only [State.recheck]
  split
  · simp only [State.endPhase, lane_release, lane_setBarrier]
    have : ∀ m, (s.tellPod index m).lane u l = s.lane u l := fun m => by simp only [State.lane, State.wave, waves_tellPod]
    split <;> simp [this, h]
  · exact h

/-- A lane that has ended is gone (R302). -/
theorem lane_endLane (s : State) (u l : Nat) : (s.endLane u l).lane u l = none := by
  simp only [State.endLane]
  split
  · rename_i h; simp [State.lane, h]
  · suffices ∀ (b : Nat) (is : List Nat) (t : State), t.lane u l = none → (is.foldl (fun t i => t.recheck 1 b i) t).lane u l = none by
      apply this; apply lane_recheck
      simp [State.lane, Wave.lane, sget_sdel]
    intro b is
    induction is with
    | nil => exact fun t h => h
    | cons i r ih => exact fun t h => ih _ (lane_recheck t 1 b i u l h)

/-- A lane that has taken a trap waits for nothing, if it is still there. -/
theorem takeTrap_through {s : State} {u l : Nat} {t : Trap} {next : Bool} {len : Nat} {w : Wave} {ln : Lane} (hw : s.wave u = some w) (hl : w.lane l = some ln) :
    ∀ x, (takeTrap s u l t next len).lane u l = some x → x.wait = none := by
  intro x hx
  have hn : (s.noteBad t).wave u = some w := by
    have : ∀ line, (s.addPoison line).waves = s.waves := fun line => by unfold State.addPoison; split <;> rfl
    unfold State.noteBad State.wave
    split
    · split
      · rw [this]; exact hw
      · exact hw
    · exact hw
  simp only [takeTrap, hn, hl] at hx
  split at hx
  · simp [State.lane, lane_setLane] at hx; subst hx; rfl
  · split at hx
    · simp [State.fatal, lane_endLane] at hx
    · simp [State.lane, lane_setLane] at hx; subst hx; rfl

/-- A lane that has completed waits for nothing. -/
theorem wrote_wait (ln : Lane) (pc : VA) (d : Opd) (ws : List Word) (fl : Flags) : (ln.wrote pc d ws fl).wait = none := by
  simp only [Lane.wrote, Lane.raise, Lane.advance]

/-- The same for the lane of a group that has completed. -/
theorem completes_through {s : State} {fo : Focus} {l : Nat} {d : Opd} {ws : List Word} {fl : Flags} :
    ∀ x, (s.completes fo l d ws fl).lane fo.wave l = some x → x.wait = none := by
  intro x hx
  have key : ∀ y, (s.modLane fo.wave l (fun ln => ln.wrote fo.next d ws fl)).lane fo.wave l = some y → y.wait = none := by
    intro y hy
    simp only [State.lane, wave_modLane, if_true] at hy
    cases h : s.wave fo.wave with
    | none => simp [h] at hy
    | some w =>
      simp only [h, Option.map_some, Wave.lane, sget_smod, if_true] at hy
      cases h2 : sget w.lanes l with
      | none => simp [h2] at hy
      | some z => simp only [h2, Option.map_some, Option.some.injEq] at hy; subst hy; exact wrote_wait _ _ _ _ _
  unfold State.completes at hx
  cases d with
  | g r =>
    simp only [State.lane, wave_modWave, if_true] at hx
    cases h : (s.modLane fo.wave l (fun ln => ln.wrote fo.next (.g r) ws fl)).wave fo.wave with
    | none => simp [h] at hx
    | some w =>
      simp only [h, Option.map_some, Wave.lane, setG_lanes] at hx
      apply key x
      simp [State.lane, h, Wave.lane, hx]
  | _ => exact key x hx

/-- An instruction of one lane with a result that it has at once (R247). -/
theorem runInto_done {s s1 : State} {fo : Focus} {w : Wave} {l : Nat} {ln : Lane} (h : Solo s fo w l ln) (hw : ln.wait = none) (d e : Opd)
    {f : State → Focus → Wave → Nat → Lane → State × Out} {ws : List Word} {fl : Flags} (hf : f s fo w l ln = (s1, .done (some e) ws fl)) :
    runInto s d f = s1.completes fo l e ws fl := by
  simp only [runInto, h.focus, runSeen, runLanes_solo h, asSeen_none w hw, hf, applyOut_done]
  exact settled_through h hw d 1 completes_through

/-- The same for one that traps. -/
theorem runInto_trap {s s1 : State} {fo : Focus} {w v : Wave} {l : Nat} {ln x : Lane} (h : Solo s fo w l ln) (hw : ln.wait = none) (d : Opd)
    {f : State → Focus → Wave → Nat → Lane → State × Out} {t : Trap} {next : Bool} (hf : f s fo w l ln = (s1, .trap t next))
    (h1 : s1.wave fo.wave = some v) (h2 : v.lane l = some x) : runInto s d f = takeTrap s1 fo.wave l t next fo.len := by
  simp only [runInto, h.focus, runSeen, runLanes_solo h, asSeen_none w hw, hf, applyOut_trap]
  exact settled_through h hw d 1 (takeTrap_through h1 h2)

end Sys2Proof.Machine
end

