-- ==== Sys2Proof/Tests/Witness.lean ====
section
/-! SUPPORT. Witnesses: for the statements that have hypotheses, concrete states and operands that meet them, one clause beside
another, at the edges of their ranges where they have some. -/

set_option Elab.async false

namespace Sys2Proof.Tests

open Sys2Proof.Machine

/-- The value of an answer that is no trap. -/
def okOr {ε α : Type} (x : Except ε α) (d : α) : α := match x with | .ok a => a | .error _ => d

/-- An answer is no trap. -/
def isOk {ε α : Type} (x : Except ε α) : Bool := match x with | .ok _ => true | .error _ => false

theorem eq_okOr {ε α : Type} {x : Except ε α} (d : α) (h : isOk x = true) : x = .ok (okOr x d) := by
  cases x with
  | ok a => rfl
  | error e => cases h

/-- A lane at the loaded page, in context 0, with b registers and its privilege. -/
def lane (priv : Bool) (bs : Sparse Word) : Lane :=
  { Lane.start 0x20000 65536 priv with user := { Bank.fresh 0x20000 with b := bs } }

/-- A wait as a lane enters it, or as it has been released. -/
def waiting (k : WaitKind) (st : Option Nat) (bs : List Byte) : Wait := { kind := k, ticket := 0, status := st, value := 0, bytes := bs }

/-- A wave of one lane. -/
def wave (ln : Lane) : Wave := { codeWave with lanes := [(0, ln)] }

/-- Its group, at an instruction of one word. -/
def foc : Focus := Focus.mk 0 [0] 0x20000 4 0 none

/-- The package with that wave, and one page of HBM mapped at 0x20000. -/
def mem (bs : List Byte) (ln : Lane) : State := { State.reset.loadCode bs with waves := [(0, wave ln)], focus := some foc, agenda := [] }

/-- The same, the page zero. -/
def solo (ln : Lane) : State := mem [] ln

/-- A wave and group of two lanes. -/
def wave2 (a b : Lane) : Wave := { codeWave with lanes := [(0, a), (5, b)] }

def foc2 : Focus := Focus.mk 0 [0, 5] 0x20000 4 0 none

def duo (a b : Lane) : State := { State.reset with waves := [(0, wave2 a b)], focus := some foc2 }

theorem solo_solo (ln : Lane) : Solo (solo ln) foc (wave ln) 0 ln := ⟨rfl, rfl, rfl, rfl⟩

theorem solo_single (ln : Lane) (h : ln.wait = none) : Single (solo ln) foc (wave ln) 0 ln := ⟨solo_solo ln, rfl, h⟩

theorem duo_runs (a b : Lane) : GroupRuns (duo a b) foc2 (wave2 a b) := by
  refine ⟨rfl, rfl, by decide, ?_⟩
  intro l hl
  have h : l = 0 ∨ l = 5 := by simpa [foc2] using hl
  rcases h with rfl | rfl <;> rfl

/-- A group of two lanes runs (IntegerResults, ActiveLanes, NoEffectInstructions, ControlTransfers, RegisterReads, RegisterWrites). -/
theorem witness_group : GroupRuns (duo (lane false [(1, 5)]) (lane true [])) foc2 (wave2 (lane false [(1, 5)]) (lane true [])) ∧
    (∀ l ∈ foc2.lanes, l < 32) ∧ foc2.pfx = none ∧ (lane false [(1, 5)]).split = [] :=
  ⟨duo_runs _ _, by decide, rfl, rfl⟩

/-- 1.0 and 2.0 trap nothing with every enable set but inexact; a marker traps UNINIT; 0x7F7FFFFF + itself raises overflow. -/
theorem witness_FloatResults :
    (uninit (lane false []) [0x3F800000, 0x40000000] = none ∧
      fpTraps { lane false [] with fpmode := 0x3E0 } (fpAdd fp32 (fpCtx (lane false []) none) 0x3F800000 0x40000000).flags = false) ∧
    isMarker (readOpd (wave (lane false [])) 0 (lane false []) (.b 3)) = true ∧ (lane false []).fpmode.getLsbD 4 = true ∧
    fpTraps { lane false [] with fpmode := 0x3E0 } (fpAdd fp32 (fpCtx (lane false []) none) 0x7F7FFFFF 0x7F7FFFFF).flags = true :=
  by decide +kernel

/-- A RECONV whose other lane is there too, is on its way, and waits elsewhere. -/
theorem witness_NoEffectInstructions :
    let a : Lane := { lane false [] with split := [5] }
    let far : Lane := { lane false [] with pc := 0x30000 }
    let held : Lane := { far with wait := some (waiting .inst none []) }
    let s (b : Lane) : State := { duo a b with focus := some foc }
    Solo (s far) foc (wave2 a far) 0 a ∧ a.wait = none ∧ (lane false []).pc = foc.pc ∧ far.pc ≠ foc.pc ∧ (foc.pc, 5) ∉ a.met ∧ 5 ≠ 0 ∧
    far.waitsElsewhere = false ∧ held.waitsElsewhere = true ∧ (wave2 a held).lane 5 = some held :=
  ⟨⟨rfl, rfl, rfl, rfl⟩, by decide +kernel⟩

/-- A taken and an untaken branch, an even and an odd target, a full and an empty return stack, one on-chip entry and a spilled one; a spill that
goes, one at an offset that is no multiple of 8, one and a refill in a poisoned line. -/
theorem witness_ControlTransfers :
    let deep (n : Nat) : Lane := { lane false [] with stack := [2, 4, 6, 8], depth := n, stklim := 65536 }
    let bad (ln : Lane) : State := { solo ln with poison := [lineOf ((wave ln).privPlace 0 65528)] }
    (¬ (4 + (deep 4).stklim.toNat / 8 ≤ (deep 4).depth) ∧ (solo (deep 4)).spillTrap 0 0 (spills (wave (deep 4)) (deep 4)) = none ∧
      ((bad (deep 4)).spillTrap 0 0 (spills (wave (deep 4)) (deep 4))).map Trap.cause = some 0x14 ∧
      ({ wave (deep 4) with privBytes := 65532 } : Wave).privBytes % 8 ≠ 0 ∧ 8 * (4 - 4 + 1) ≤ 65532 ∧
      ((bad (deep 5)).spillTrap 0 0 (refills (wave (deep 5)) (deep 5))).map Trap.cause = some 0x14 ∧
      (solo (deep 5)).spillTrap 0 0 (some ((wave (deep 5)).privBytes - 8 * (5 - 4))) = none) ∧
    Solo (solo (lane false [(1, 0x20001)])) foc (wave (lane false [(1, 0x20001)])) 0 (lane false [(1, 0x20001)]) ∧
    (readOpd (wave (lane false [(1, 0x20001)])) 0 (lane false [(1, 0x20001)]) (.b 1)).getLsbD 0 = true ∧
    (readOpd (wave (lane false [(1, 0x20000)])) 0 (lane false [(1, 0x20000)]) (.b 1)).getLsbD 0 = false ∧
    ({ lane false [] with depth := 4 + 8192, stklim := 65536 } : Lane).depth = 4 + (65536#32).toNat / 8 ∧ (lane false []).depth ≠ 4 + (65536#32).toNat / 8 ∧
    (lane false []).depth = 0 ∧ (lane false []).stack.length < 4 ∧ ({ lane false [] with stack := [2, 4, 6, 8], depth := 5 } : Lane).stack.length = 4 :=
  ⟨by decide +kernel, ⟨rfl, rfl, rfl, rfl⟩, by decide +kernel⟩

/-- The package when an event is its input. -/
def given (e : Event) (s : State) : State := { s with input := some e }

/-- The address of the loaded page in b2 and b3. -/
def at_ (x : Sparse Word) : Sparse Word := (2, 0x20000) :: (3, 0) :: x

/-- A space for context 0: its tensor table at the page, its heap there. -/
def space : Obj := Obj.mk 0 0 (some (.space 0 0x800 2 1))

/-- What an access of a lane meets, where it translates. -/
def target (s : State) (ln : Lane) (write : Bool) (va : Nat) : Target := okOr (s.translate (laneAcc (wave ln) ln write) va) (Target.mk .info 0 none)

theorem lands (ln : Lane) (s : State) (write : Bool) (va n la : Nat)
    (h : isOk (s.translate (laneAcc (wave ln) ln write) va) = true ∧ (target s ln write va).kind = .hbm ∧ la = localOf (target s ln write va).pa ∧
      la % n = 0 ∧ la < hostBase ∧ s.poisoned la n = false ∧ s.reachable (target s ln write va) = true) :
    LandsInMemory s (wave ln) ln write va n (target s ln write va) la := by
  obtain ⟨ok, k, home, lv, inside, sound, near⟩ := h
  exact ⟨eq_okOr _ ok, .inl k, home, lv, by simp [State.hostFault, inside], sound, near⟩

/-- A state whose core 0 has an L1 that private sectors of another wave fill, which has the page's first lines and its translation at hand:
a lane's reads of the page leave it as it is. -/
def warm (s : State) (c : CoreState) : State :=
  { s with waves := s.waves ++ [(1, { codeWave with lanes := [], privDirty := List.replicate l1Sectors 0 })], cores := [(0, c)],
           dir := (List.range 3).map (fun i => (0x20C0 + i, DirLine.mk .e 0 1 [])), tlb := [TlbEntry.mk 0 (Page.mk .hbm 0x20000 4096 0x106000 1 true true true)] }

/-- What an access meets, where it translates. -/
def met (s : State) (a : Acc) (va : Nat) : Target := okOr (s.translate a va) (Target.mk .info 0 none)

theorem reads (s : State) (c : CoreState) (a : Acc) (va n la : Nat)
    (h : isOk ((warm s c).translate a va) = true ∧ (met (warm s c) a va).kind = .hbm ∧ (warm s c).reachable (met (warm s c) a va) = true ∧
      localOf (met (warm s c) a va).pa = la ∧ la % 128 = va % 128 ∧ la < hbmEnd ∧ a.asid = 0 ∧
      (met (warm s c) a va).page = some (Page.mk .hbm 0x20000 4096 0x106000 1 true true true) ∧
      ((sget (warm s c).dir (lineOf la)).any (fun d => bitOf d.present (warm s c).agent)) = true ∧ s.poison = [] ∧ s.ecc = [] ∧ c.l1 = [] ∧ 0 < n ∧ va % 128 + n ≤ 128) :
    (warm s c).laneRead 0 a va n [] = .ok (zread s.mem la n, [], warm s c) := by
  obtain ⟨ok, k, near, home, lv, inside, as, pg, hd, hp, he, hl, hn, hf⟩ := h
  refine laneRead_settled (t := met (warm s c) a va) ⟨?_, ⟨c, rfl, hl⟩, ?_, ?_, hp, he⟩ (eq_okOr _ ok) k near home lv inside hn hf
  · simp only [State.privSectors, warm, List.foldl_append, List.foldl_cons, List.foldl_nil, List.length_replicate]
    rw [if_pos (show Wave.coreKey _ = 0 from rfl)]
    exact Nat.le_add_left ..
  · cases h : sget (warm s c).dir (lineOf la) with
    | none => rw [h] at hd; cases hd
    | some d => rw [h] at hd; exact ⟨d, rfl, hd⟩
  · intro p e
    rw [pg] at e
    cases e
    simp [warm, as]

/-- EXIT and the traps of a lane; a handler's lane with each RESUME, a control word with a bit too many, and one outside a handler. -/
theorem witness_ExitTrapsAndReturn : Solo (solo (lane true [])) foc (wave (lane true [])) 0 (lane true []) ∧ (lane true []).isPriv = true ∧
    (lane true []).inTrap = false ∧ ({ lane true [] with privState := 0xA0000000 } : Lane).inTrap = true ∧
    wbits (0x8000001F#32) 30 5 = 0 ∧ wbits (0x20#32) 30 5 ≠ 0 ∧
    ([0xA0000000#32, 0xA8000000#32, 0xB0000000#32, 0xB8000000#32].map (fun p => wbits p 28 27)) = [0, 1, 2, 3] ∧
    (BitVec.ofNat 64 ((1#32).toNat + 2 ^ 32 * wbits (0xA0000000#32) 24 0) : VA).getLsbD 0 = true :=
  ⟨⟨rfl, rfl, rfl, rfl⟩, by decide +kernel⟩

/-- A zero word is NOP16 and no REGION: TRAPVEC there is no handler; a REGION word there is one, and no trap vector at all is fatal. -/
theorem witness_TrapsTaken :
    let ln := lane false []
    let s := { mem (natLe 4 0x0000001F) ln with ctxs := [(0, Ctx.mk 0x20000 0)] }
    s.wave 0 = some (wave ln) ∧ (wave ln).lane 0 = some ln ∧ ln.inTrap = false ∧ (wave ln).st ≠ .saving ∧ (s.ctx 0).trapVec ≠ 0 ∧
    (s.ctx 0).trapVec.getLsbD 0 = false ∧ s.regionAt (wave ln) (s.ctx 0).trapVec.toNat = true ∧
    ({ solo ln with ctxs := [(0, Ctx.mk 0x20000 0)] } : State).regionAt (wave ln) 0x20000 = false ∧ ((solo ln).ctx 0).trapVec = 0 := by
  decide +kernel

/-- Indices inside and outside the footprint, on both sides of 256; a literal that is fetched, and one that faults. -/
theorem witness_RegisterReads : Solo (solo (lane false [])) foc (wave (lane false [])) 0 (lane false []) ∧ (solo (lane false [])).focus = some foc ∧
    (255#9).toNat < (wave (lane false [])).regs ∧ (wave (lane false [])).regs ≤ (256#9).toNat ∧ (lane false []).isPriv = false ∧
    (wave (lane false [])).die < 6 ∧ isOk ((solo (lane false [])).fetchWord (wave (lane false [])) false 0x20000) = true ∧
    isOk ((solo (lane false [])).fetchWord (wave (lane false [])) false 0x40000) = false :=
  ⟨⟨rfl, rfl, rfl, rfl⟩, by decide +kernel⟩

/-- The page at 0x20000 of a kind and frame, both hosts' features accepted, two packages in the pod. -/
def paged (kind frame : Nat) (ln : Lane) : State :=
  { solo ln with mem := zwrite (solo ln).mem 0x105100 (natLe 8 (0x4F + kind * 16 + frame * 4096)), podsize := 2, hostgib := 1,
                 bringup := { Bringup.reset with drvaccept := 0x1F, accepted := true } }

/-- Pages of the host's memory, of another package, of registers. -/
def hostPage (ln : Lane) : State := paged 1 (hostBase / 4096) ln

def farPage (ln : Lane) : State := paged 2 (2 ^ 35 + 0x106) ln

def regPage (ln : Lane) : State := paged 3 (mmioBase / 4096) ln

/-- LDL of code, of a register page, and of an address that does not translate. -/
theorem witness_Literals :
    let ln := lane false []
    let f := fetchAcc (wave ln).asid ln.isPriv
    let t (s : State) := okOr (s.translate f 0x20000) (Target.mk .info 0 none)
    Single (solo ln) foc (wave ln) 0 ln ∧ ((foc.pc &&& ~~~3#64) + 4 * (0#19).zeroExtend 64).toNat = 0x20000 ∧ isOk ((solo ln).translate f 0x20000) = true ∧
    (t (solo ln)).kind ≠ .mmio ∧ isOk ((solo ln).fetchFrom (wave ln).coreKey f 0x20000 4 (t (solo ln))) = true ∧
    isOk ((regPage ln).translate f 0x20000) = true ∧ (t (regPage ln)).kind = .mmio ∧ (regPage ln).reachable (t (regPage ln)) = true ∧
    (match (solo ln).literal (wave ln) ln.isPriv 0x40000 with | .error e => e.need.isNone && e.cause != 0 | .ok _ => false) = true :=
  ⟨solo_single _ rfl, by decide +kernel⟩

/-- A lane without a descriptor; a descriptor that loads m17 and does not load m16; a privileged lane, and a footprint that ends below m64. -/
theorem witness_RegisterWrites :
    let ln : Lane := { lane true [] with user := { Bank.fresh 0x20000 with curDesc := some 0x20000 } }
    let d := okOr (readDesc (mem (natLe 4 1 ++ natLe 2 0x1100) ln) (wave ln) true 0x20000) (Desc.mk true [] [], State.reset)
    Solo (solo (lane true [])) foc (wave (lane true [])) 0 (lane true []) ∧ (lane true []).bank.curDesc = none ∧ (lane true []).isPriv = true ∧
    ln.bank.curDesc = some 0x20000 ∧ d.1.malformed = false ∧ (∃ e ∈ d.1.loads, e.1 = (17#9).toNat) ∧ (∀ e ∈ d.1.loads, e.1 ≠ (16#9).toNat) ∧
    ({ wave ln with regs := 64 } : Wave).regs ≤ (64#9).toNat ∧ (63#9).toNat < ({ wave ln with regs := 64 } : Wave).regs :=
  ⟨⟨rfl, rfl, rfl, rfl⟩, by decide +kernel⟩

/-- A well-formed descriptor at the PC, in and out of restart mode, one that names m255 in a footprint of 64, and a misaligned one. -/
theorem witness_RegionCommitsAndLoads :
    let ln := lane false []
    let s := mem (natLe 4 1 ++ natLe 2 0xFF00) ln
    let d := okOr (readDesc s (wave ln) false 0x20000) (Desc.mk true [] [], State.reset)
    Solo s foc (wave ln) 0 ln ∧ isOk (currentDesc s (wave ln) ln) = true ∧ isOk (readDesc s (wave ln) false 0x20000) = true ∧ d.1.refused (wave ln) = false ∧
    d.1.refused { wave ln with regs := 64 } = true ∧ (foc.pc + 2 * (0#19).signExtend 64).toNat % 4 = 0 ∧ (foc.pc + 2 * (1#19).signExtend 64).toNat % 4 ≠ 0 ∧
    ln.bank.restart = false :=
  ⟨⟨rfl, rfl, rfl, rfl⟩, by decide +kernel⟩

/-- A lane copy in flight on core 0, translated in generation 0. -/
def flight (lane : Nat) : LaneCopy := LaneCopy.mk 0 lane none true 0x20000 0x106000 false 0 0 0 4 0 3 false 0 []

/-- The package with that copy of the lane's. -/
def copied (ln : Lane) : State := { solo ln with cores := [(0, { CoreState.reset with copies := [flight 0] })] }

/-- Two blocks: the lane's own and one that runs; a saved one; accesses translated before an advance, and none; a handle that is not live; core words in and out of range. -/
theorem witness_PrivilegedFunctions :
    let ln := lane true []
    let other (st : WaveState) : Wave := { codeWave with block := 1, st := st }
    let s (st : WaveState) : State := { solo ln with waves := [(0, wave ln), (1, other st)], objs := [(1, Obj.mk 0 0 (some (.wave 1 false true)))],
                                                     blocks := [(0, codeBlock), (1, codeBlock)] }
    Solo (solo ln) foc (wave ln) 0 ln ∧ ln.isPriv = true ∧ (lane false []).isPriv = false ∧ ln.wait = none ∧
    (s .resident).entry (handleWord 1 0 1) = some (1, .wave 1 false true) ∧ (s .resident).entry 0 = none ∧ (s .resident).wave 1 = some (other .resident) ∧
    (other .resident).block ≠ (wave ln).block ∧ (s .resident).blockRuns 1 = true ∧ (s .saved).blockRuns 1 = false ∧
    (s .saved).waves.any (fun e => e.2.block == 1 && e.2.st == .saved) = true ∧ (s .resident).waves.any (fun e => e.2.block == 1 && e.2.st == .saved) = false ∧
    (solo ln).fenceWait foc.wave 0 .pkg .all = none ∧ ((solo ln).advanceGen 0).olderAccess (some 0) (((solo ln).advanceGen 0).ctx 0).gen = false ∧
    (solo ln).advanceAll.olderAccess none 0 = false ∧ ((copied ln).advanceGen 0).olderAccess (some 0) (((copied ln).advanceGen 0).ctx 0).gen = true ∧
    (copied ln).advanceAll.olderAccess none 0 = true ∧ (copied ln).fenceWait foc.wave 0 .pkg .all = some .copies ∧
    (waiting (.advance (some 0) 1) none []).kind = .advance (some 0) 1 ∧
    ((5#32) &&& 0xFFFFC0F8 = 0 ∧ wbits (5#32) 2 0 < 6 ∧ wbits (5#32) 13 8 < (solo ln).coreCount 5 ∧ (solo ln).ownCore (wave ln) (coreKey 5 0) = false) ∧
    ((0#32) &&& 0xFFFFC0F8 = 0 ∧ (solo ln).ownCore (wave ln) (coreKey 0 0) = true) ∧ (8#32) &&& 0xFFFFC0F8 ≠ 0 ∧ ¬ wbits (6#32) 2 0 < 6 ∧
    ¬ wbits (0x2400#32) 13 8 < (solo ln).coreCount 0 :=
  ⟨⟨rfl, rfl, rfl, rfl⟩, by decide +kernel⟩

/-- A core barrier, OFF, ON below its count, and ON at its count; one of another context; a bad word; a lane in a handler; waiters of it. -/
theorem witness_BarriersChange :
    let ln := lane false [(1, 0x20), (2, 0x28), (3, 0x80)]
    let s (b : Barrier) : State := { solo ln with bars := [(barKey 2 0 0, b)] }
    let on (n k : Nat) : Barrier := { Barrier.off with on := true, expected := n, arrived := k }
    let held : Lane := { lane false [] with wait := some (waiting (.barrier 2 0 0 0) none []) }
    Solo (s Barrier.off) foc (wave ln) 0 ln ∧
    barrierWord (readOpd (wave ln) 0 ln (.b 1)) = some (2, 0) ∧ barrierInst (s Barrier.off) foc.wave (wave ln) 2 = 0 ∧
    barrierForeign ((s (on 2 0)).barrier 2 0 0) 2 (wave ln).asid = false ∧ (s (on 2 0)).heldElsewhere 2 0 = false ∧
    ((s Barrier.off).barrier 2 0 0).on = false ∧ ((s (on 2 0)).barrier 2 0 0).on = true ∧ 0 + 1 < (s (on 2 0)).expectedOf 2 0 (on 2 0) ∧
    (s (on 2 1)).expectedOf 2 0 (on 2 1) ≤ 1 + 1 ∧ barrierForeign { on 2 0 with owner := 7 } 2 (wave ln).asid = true ∧
    [1, 16, 8, 8, 4, 4].getD (wbits (readOpd (wave ln) 0 ln (.b 2)) 6 4) 0 ≤ wbits (readOpd (wave ln) 0 ln (.b 2)) 3 0 ∧
    128 ≤ (readOpd (wave ln) 0 ln (.b 3)).toNat ∧ ln.inTrap = false ∧ ({ ln with privState := 0x20000000 } : Lane).inTrap = true ∧
    ({ s (on 2 1) with waves := [(0, wave held)] } : State).hasWaiters 2 0 0 = true ∧ (s (on 2 1)).hasWaiters 2 0 0 = false :=
  ⟨⟨rfl, rfl, rfl, rfl⟩, by decide +kernel⟩

/-- A barrier is ready for BAR functions; a waiter of the old phase; its own wave's barrier and its block's. -/
theorem witness_BarrierWaits :
    let ln := lane false [(1, 0x20)]
    let b : Barrier := { Barrier.off with on := true, expected := 1, phase := 3, resetPh := some 1 }
    let s : State := { solo ln with bars := [(barKey 2 0 0, b)] }
    ln.wait = none ∧ ln.joined = none ∧ s.barrier 2 0 0 = b ∧ b.phase ≠ 1 ∧ b.resetPh = some 1 ∧
    b.resetPh ≠ some 2 ∧ s.expectedOf 2 0 b ≤ b.arrived + 1 ∧ b.arrived + 1 < s.expectedOf 2 0 { b with expected := 2 } ∧
    s.wave 0 = some (wave ln) ∧ (wave ln).lane 0 = some ln ∧ s.heldElsewhere 2 0 = false ∧
    (s.wave 0).isSome = true ∧ (sget s.blocks 0).isSome = true := by
  decide +kernel

theorem witness_BarrierReady :
    let ln := lane false [(1, 0x20)]
    let b : Barrier := { Barrier.off with on := true, expected := 1, phase := 3, resetPh := some 1 }
    BarrierReady { solo ln with bars := [(barKey 2 0 0, b)] } foc (wave ln) 0 ln (.b 1) 2 0 0 where
  outside := by decide
  word := by decide +kernel
  which := rfl
  mine := by decide +kernel
  here := rfl

/-- A lane that the end of its phase has released. -/
theorem witness_BarrierReleased :
    let held : Lane := { lane false [] with wait := some (waiting (.barrier 1 0 0 3) (some 0) []) }
    Solo (solo held) foc (wave held) 0 held ∧ held.inTrap = false ∧ held.wait = some (waiting (.barrier 1 0 0 3) (some 0) []) ∧ (solo held).blockSpans (wave held) = false :=
  ⟨⟨rfl, rfl, rfl, rfl⟩, by decide +kernel⟩

/-- All lanes of a wave arrive together; one of two arrives, without a prefix and with one whose g mask has the other lane only. -/
theorem witness_CrossLaneResults :
    let a := lane false [(1, 5)]
    GroupRuns (duo a a) foc2 (wave2 a a) ∧ foc2.lanes = skeys (wave2 a a).lanes ∧ instAt (wave2 a a) foc2.pc = none ∧ a.inTrap = false ∧
    (contributors foc2 (wave2 a a) (.b 1) .z).map Arrival.lane = [0, 5] ∧
    (∀ x ∈ contributors foc2 (wave2 a a) (.b 1) .z, fpTraps a (floatTree (fpAdd fp32) (contributors foc2 (wave2 a a) (.b 1) .z) x).2 = false ∧
      uninit a [x.a] = none) ∧
    Solo { duo a a with focus := some foc } foc (wave2 a a) 0 a ∧ (wave2 a a).lane 5 = some a ∧ 5 ≠ 0 ∧
    (let p := PfxFields.mk false false .rne false (.g 9) .z
     let w : Wave := { wave2 a a with g := [(9, 32)] }
     inSet (gMask (some p) w) 0 = false ∧ inSet (gMask (some p) w) 5 = true ∧ inSet (gMask none w) 0 = true ∧ instAt w foc.pc = none ∧
     (arrival none w 0 a (.b 1) .z).contributes = true ∧ uninit a [5] = none ∧ (uninit a [0x7F804803]).isSome = a.fpmode.getLsbD 4) :=
  ⟨duo_runs _ _, by decide +kernel, by decide +kernel, by decide +kernel, rfl, by decide +kernel, ⟨rfl, rfl, rfl, rfl⟩, by decide +kernel⟩

/-- A request that lane 0 of wave 0 has outstanding: a load, or a store that it has gone on from. -/
def request (posted : Option Posted) (op : HomeOp) : OutReq :=
  { client := none, wave := 0, lanes := [(0, 0)], posted := posted, va := 0x20000, pa := 2 ^ 47, size := 4, data := [], expected := 0, op := op, asid := 0, tgen := 0,
    held := false, port := 0, plane := 0, seq := 0, sentAt := 0, suspended := 0, resumes := 0 }

/-- The package with a posted store of the lane's outstanding. -/
def storing (ln : Lane) : State := { solo ln with fabric := { Fabric.reset with out := [(4, request (some (Posted.mk 0x20000 false)) .store)] } }

theorem reaches_tensor (s : State) (w : Wave) (l : Nat) (ln : Lane) (a : Opd) (n va : Nat) (x : Tensor × List Byte)
    (h : let lo := (readOpd w l ln a).toNat
      let hi := (readOpd w l ln (opdPlus a 1)).toNat
      let r := s.readTensor w.asid (hi % 2 ^ 16) false []
      isOk r = true ∧ x = okOr r (Tensor.none, []) ∧ lo % n = 0 ∧ hi / 2 ^ 16 = 0 ∧ x.1.ok = true ∧ lo + n ≤ x.1.span ∧ va = (x.1.live + lo) % 2 ^ 64) :
    Reaches s w l ln .tensor a n va := by
  obtain ⟨ok, e, al, hi, valid, inside, at_⟩ := h
  exact ⟨al, hi, x.1, x.2, e ▸ eq_okOr _ ok, valid, inside, at_⟩

/-- Loads and stores of the page: global, with an offset, and in tensor-relative space at the last word of a tensor. -/
theorem witness_places :
    let ln := lane false (at_ [(6, 60), (7, 0)])
    let s := { mem (natLe 64 (1 + 0 * 2 + 32 + 0x801 * 2 ^ 64 + 0x802 * 2 ^ 115 + 16 * 2 ^ 300)) ln with objs := [(5, space)] }
    let ld (a : Opd) (sp : Space) (hint : Hint) := Instr.ld (.b 8) a .w .acquire .pkg sp hint
    Loads (solo ln) (wave ln) 0 ln (ld (.b 2) .global .normal) (.b 8) .w 0x20000 ∧
    Loads (solo ln) (wave ln) 0 ln (ld (.b 2) .global .streaming) (.b 8) .w 0x20000 ∧
    Loads (solo ln) (wave ln) 0 ln (.ldo (.b 8) (.b 2) .w 31) (.b 8) .w 0x2007C ∧
    Stores (solo ln) (wave ln) 0 ln (.st (.b 8) (.b 2) .w .release .pod .global .normal) (.b 8) .w (some .pod) 0x20000 ∧
    Stores (solo ln) (wave ln) 0 ln (.sto (.b 8) (.b 2) .w 31) (.b 8) .w none 0x2007C ∧
    WideLoad (solo ln) (wave ln) (ld (.b 2) .global .normal) = true ∧
    WideLoad (solo ln) (wave ln) (.ld (.b 8) (.b 2) .w .relaxed .pkg .global .normal) = false ∧
    Loads s (wave ln) 0 ln (ld (.b 6) .tensor .normal) (.b 8) .w 0x2007C ∧
    Stores s (wave ln) 0 ln (.st (.b 8) (.b 6) .w .relaxed .pod .tensor .normal) (.b 8) .w none 0x2007C := by
  intro ln s ld
  refine ⟨.inl ⟨_, _, _, _, _, rfl, ?_⟩, .inl ⟨_, _, _, _, _, rfl, ?_⟩, .inr ⟨_, _, rfl, ?_⟩, .inl ⟨_, _, _, _, _, rfl, rfl, ?_⟩, .inr ⟨_, _, rfl, rfl, ?_⟩,
    by decide +kernel, by decide +kernel,
    .inl ⟨_, _, _, _, _, rfl, reaches_tensor _ _ _ _ _ _ _ (okOr (s.readTensor 0 0 false []) (Tensor.none, [])) (by decide +kernel)⟩,
    .inl ⟨_, _, _, _, _, rfl, rfl, reaches_tensor _ _ _ _ _ _ _ (okOr (s.readTensor 0 0 false []) (Tensor.none, [])) (by decide +kernel)⟩⟩
  all_goals first | (simp only [Reaches]; decide +kernel) | decide +kernel

/-- A word at the page, which no L1 holds; scopes wider than the core and not. -/
theorem witness_GlobalLoads :
    let ln := lane false (at_ [])
    Single (solo ln) foc (wave ln) 0 ln ∧ sget (solo ln).blocks 0 = some codeBlock ∧ (solo ln).l1Serves 0 0x106000 16 = none ∧ (wave ln).gWait = [] ∧
    (solo ln).wide (wave ln) .pkg = true ∧ (solo ln).wide (wave ln) .core = false ∧
    (readOpd (wave ln) 0 ln (.b 3) ++ readOpd (wave ln) 0 ln (.b 2)).toNat = 0x20000 :=
  ⟨solo_single _ rfl, by decide +kernel⟩

theorem witness_loads_land :
    let ln := lane false (at_ [])
    LandsInMemory (solo ln) (wave ln) ln false 0x20000 16 (target (solo ln) ln false 0x20000) 0x106000 ∧
    LandsInMemory (solo ln) (wave ln) ln false ((((0x20000 : Nat) : Int) + (31#10).toInt * 4) % 2 ^ 64).toNat 4 (target (solo ln) ln false 0x2007C) 0x10607C ∧
    LandsInMemory { hostPage ln with host := { HostLink.reset with up := true } } (wave ln) ln true 0x20FFC 4
      (target { hostPage ln with host := { HostLink.reset with up := true } } ln true 0x20FFC) (hostBase + 0xFFC) :=
  ⟨lands _ _ _ _ _ _ (by decide +kernel), lands _ _ _ _ _ _ (by decide +kernel), ⟨eq_okOr _ (by decide +kernel), .inr (by decide +kernel), by decide +kernel,
    by decide +kernel, by decide +kernel, by decide +kernel, by decide +kernel⟩⟩

/-- The last word of the scratchpad and of private memory, the first beyond each, and a misaligned one. -/
theorem witness_ScratchAndPrivateAccesses :
    let ln := lane false [(2, 524284), (3, 524288), (4, 65532), (5, 65536), (6, 2)]
    let p (r : BitVec 5) : Nat := (readOpd (wave ln) 0 ln (.b r)).toNat
    Single (solo ln) foc (wave ln) 0 ln ∧ sget (solo ln).blocks 0 = some codeBlock ∧ p 2 % 4 = 0 ∧ p 2 + 4 ≤ codeBlock.scratchBytes ∧
    p 3 % 4 = 0 ∧ codeBlock.scratchBytes < p 3 + 4 ∧ p 4 % 4 = 0 ∧ p 4 + 4 ≤ (wave ln).privBytes ∧ p 5 % 4 = 0 ∧ (wave ln).privBytes < p 5 + 4 ∧ p 6 % 4 ≠ 0 ∧
    ((solo ln).wide (wave ln) .pkg = true ∧ (solo ln).wide (wave ln) .core = false) ∧
    (∀ sec ∈ (wave ln).privSectors 0 (p 4) 4, (solo ln).badLine (sec / 8) = false ∧ (solo ln).reach (wave ln).die ((solo ln).homeDie (16 * sec)) = true) :=
  ⟨solo_single _ rfl, by decide +kernel⟩

/-- A store of 16 bytes at the page, of a word at its end; a release at .pod behind a store that has not been answered, and none; a lower lane
of the same store that has yet to make it. -/
theorem witness_StoresToHbm :
    let ln := lane false (at_ [])
    let first : Lane := { ln with wait := some (waiting .requests none []) }
    let fo := Focus.mk 0 [5] 0x20000 4 0 none
    let two : State := { solo ln with waves := [(0, wave2 first ln)], focus := some fo }
    Single two fo (wave2 first ln) 5 ln ∧ two.behind fo 5 = true ∧ (solo ln).behind foc 0 = false ∧
    Single (solo ln) foc (wave ln) 0 ln ∧ sget (solo ln).blocks 0 = some codeBlock ∧ (solo ln).releaseWait 0 0 (some .pod) 0 = none ∧
    (storing ln).releaseWait 0 0 (some .pod) 0 = some none ∧ (storing ln).releaseWait 0 0 none 0 = none :=
  ⟨⟨⟨rfl, rfl, rfl, rfl⟩, rfl, rfl⟩, by decide +kernel, by decide +kernel, solo_single _ rfl, by decide +kernel⟩

theorem witness_stores_land :
    let ln := lane false (at_ [])
    LandsInMemory (solo ln) (wave ln) ln true 0x20000 16 (target (solo ln) ln true 0x20000) 0x106000 ∧
    LandsInMemory (solo ln) (wave ln) ln true 0x20FFC 4 (target (solo ln) ln true 0x20FFC) 0x106FFC :=
  ⟨lands _ _ _ _ _ _ (by decide +kernel), lands _ _ _ _ _ _ (by decide +kernel)⟩

/-- A misaligned address, one that no table maps, and one above 57 bits; a line in error; a tensor's first word, one beyond its span, one of an
entry that is none, one of a wrong index, one whose table does not translate. -/
theorem witness_GlobalAccessTraps :
    let ln := lane false (at_ [(4, 0x21000), (5, 0), (6, 0), (7, 0x02000000), (8, 0x20002), (9, 0)])
    let s (bs : List Byte) : State := { mem bs ln with objs := [(5, space)] }
    let e (bs : List Byte) := okOr ((s bs).readTensor 0 0 false []) (Tensor.none, [])
    let good := natLe 64 (1 + 0 * 2 + 32 + 0x801 * 2 ^ 64 + 0x802 * 2 ^ 115 + 16 * 2 ^ 300)
    let bad : State := { solo ln with poison := [0x106000 / 128] }
    (isOk ((s good).readTensor 0 0 false []) = true ∧ (e good).1.ok = true ∧ (e good).1.span < 64 + 4 ∧ isOk ((s []).readTensor 0 0 false []) = true ∧ (e []).1.ok = false ∧
      (match ({ solo ln with objs := [(5, Obj.mk 0 0 (some (.space 0 0x4000 2 1)))] } : State).readTensor 0 0 false [] with
        | .error t => t.need.isNone && t.cause != 0 && t.cause != 0x15 | .ok _ => false) = true) ∧
    (bad.poisoned 0x106000 4 = true ∧ (target bad ln false 0x20000).kind = .hbm ∧ localOf (target bad ln false 0x20000).pa = 0x106000 ∧
      isOk (bad.translate (laneAcc (wave ln) ln false) 0x20000) = true ∧ isOk (bad.translate (laneAcc (wave ln) ln true) 0x20000) = true ∧
      bad.reachable (target bad ln false 0x20000) = true ∧ bad.hostFault 0x106000 = none ∧ bad.l1Serves 0 0x106000 4 = none ∧ bad.behind foc 0 = false) ∧
    let va (r : BitVec 5) : Nat := (readOpd (wave ln) 0 ln (.b (r + 1)) ++ readOpd (wave ln) 0 ln (.b r)).toNat
    Single (solo ln) foc (wave ln) 0 ln ∧ va 4 % 4 = 0 ∧ isOk ((solo ln).translate (laneAcc (wave ln) ln false) (va 4)) = false ∧
    2 ^ 57 ≤ va 6 ∧ va 6 % 4 = 0 ∧ va 8 % 4 ≠ 0 :=
  ⟨by decide +kernel, by decide +kernel, solo_single _ rfl, by decide +kernel⟩

/-- Die links of a package that all retrain. -/
def retraining (s : State) : State := { s with links := List.replicate 12 { LinkRegs.reset with busy := true, announce := true } }

/-- Pages of the host's memory that fails in each way, of another package, of registers, of the information page, and a page across a link that
retrains; a core with 1,536 requests outstanding and with room; a lane in a body and in a tail. -/
theorem witness_AccessesElsewhere :
    let ln := lane false (at_ [(4, 0x10000), (5, 0)])
    let tail : Lane := { ln with user := { ln.user with tail := 1 } }
    let full (s : State) : State := { s with cores := [(0, { CoreState.reset with copies := List.replicate 1536 { flight 0 with remote := true } })] }
    let h (up : Bool) (k : List (Nat × Nat)) : State := { hostPage ln with host := { HostLink.reset with up := up, answers := k } }
    let kind (s : State) (w : Bool) : PageKind := (target s ln w 0x20000).kind
    let ok (s : State) (w : Bool) : Bool := isOk (s.translate (laneAcc (wave ln) ln w) 0x20000) && s.reachable (target s ln w 0x20000)
    Single (farPage ln) foc (wave ln) 0 ln ∧ Single (solo tail) foc (wave tail) 0 tail ∧
    (sget (farPage ln).blocks 0 = some codeBlock ∧ ln.bank.tail = 0 ∧ tail.bank.tail ≠ 0) ∧
    (∀ w ∈ [false, true], kind (farPage ln) w = .remote ∧ kind (regPage ln) w = .mmio ∧ kind (h true []) w = .host ∧
      ok (farPage ln) w = true ∧ ok (regPage ln) w = true ∧ ok (h true []) w = true) ∧
    ((h false []).hostFault hostBase = some 4 ∧ (h true [(hostBase / 128, 3)]).hostFault hostBase = some 3 ∧ (h true [(hostBase / 128, 0)]).hostFault hostBase = some 0 ∧
      localOf (target (h true []) ln false 0x20000).pa = hostBase) ∧
    ((farPage ln).requestRoom 0 = true ∧ (full (farPage ln)).requestRoom 0 = false ∧ (farPage ln).l1Hit 0 0x106000 4 = none ∧
      (retraining (farPage ln)).reachable (target (farPage ln) ln false 0x20000) = false) ∧
    (isOk ((solo ln).translate (laneAcc (wave ln) ln false) 0x10000) = true ∧ (target (solo ln) ln false 0x10000).kind = .info) ∧
    (farPage ln).behind foc 0 = false ∧ (farPage ln).joinable (farPage ln).fabric.nextReq 0 (2 ^ 47) = none ∧ uninit ln [7] = none :=
  ⟨⟨⟨rfl, rfl, rfl, rfl⟩, rfl, rfl⟩, solo_single _ rfl, by decide +kernel⟩

/-- An atomic on a word of the page; one that raises an enabled flag. -/
theorem witness_AtomicsUpdate :
    let ln := lane false (at_ [(1, 7)])
    let up : Lane := { ln with fpmode := 0x3E0 }
    Single (solo ln) foc (wave ln) 0 ln ∧ LandsInMemory (solo ln) (wave ln) ln true 0x20000 4 (target (solo ln) ln true 0x20000) 0x106000 ∧
    (solo ln).fabric.out = [] ∧ (solo ln).fabric.casts = [] ∧ (solo ln).waiting = [] ∧ (solo ln).behind foc 0 = false ∧ uninit ln [7] = none ∧
    fpTraps ln (atomNew .fadd (atomSide .fadd ln 0) (wordAt (zread (solo ln).mem 0x106000 4) 0) 7 (atomSide .fadd ln 0)).2 = false ∧
    fpTraps up (atomNew .fadd (atomSide .fadd up 0) 0x7F7FFFFF 0x7F7FFFFF (atomSide .fadd up 0)).2 = true ∧ (solo ln).wideAtomic (wave ln) .pkg = true :=
  ⟨solo_single _ rfl, lands _ _ _ _ _ _ (by decide +kernel), by decide +kernel⟩

/-- Fences that wait and that do not; a flushed range whose page the core has cached; a line that an L2 holds dirty, of HBM. -/
theorem witness_FencesAndCaches :
    let ln := lane false (at_ [(4, 1)])
    let g := target (solo ln) ln false 0x20000
    let s : State := { solo ln with tlb := [TlbEntry.mk 0 (g.page.getD (Page.mk .hbm 0 0 0 0 false false false))] }
    let h := okOr (s.translate (laneAcc (wave ln) ln false) (0x400 * 128)) g
    let u : State := { solo ln with dir := [(0x106000 / 128, DirLine.mk .m 0 1 [])] }
    Solo (solo ln) foc (wave ln) 0 ln ∧ s.translate (laneAcc (wave ln) ln false) (0x400 * 128) = .ok h ∧ rangeLines 0x20000 1 = [0x400] ∧ ln.wait = none ∧
    h.kind = .hbm ∧ localOf h.pa < hbmEnd ∧ s.reachable h = true ∧ s.badLine (localOf h.pa / 128) = false ∧ s.dirtyLine (localOf h.pa / 128) = false ∧
    s.tlb.contains (TlbEntry.mk 0 (h.page.getD (Page.mk .hbm 0 0 0 0 false false false))) = true ∧ h.page.isSome = true ∧
    (solo ln).fenceWait 0 0 .pod .all = none ∧ (storing ln).fenceWait 0 0 .pod .mem = some (.acks none) ∧
    (0x20000 / 128 % 2 ^ 57 * 128 = 0x20000 ∧ isOk (u.translate (laneAcc (wave ln) ln false) 0x20000) = true ∧ (target u ln false 0x20000).kind = .hbm) ∧
    u.reachable (target u ln false 0x20000) = true ∧ localOf (target u ln false 0x20000).pa / 128 = 0x106000 / 128 ∧ u.badLine (0x106000 / 128) = false ∧
    (sget u.dir (0x106000 / 128)).isSome = true ∧ (DirLine.mk .m 0 1 []).dirty = true ∧ u.lineHome (0x106000 / 128) ≠ 7 ∧ readOpd (wave ln) 0 ln .z = 0 :=
  ⟨⟨rfl, rfl, rfl, rfl⟩, eq_okOr _ (by decide +kernel), by decide +kernel⟩

/-- An object of context 0 whose generation is 0. -/
def obj (b : Body) : Obj := Obj.mk 0 0 (some b)

/-- A port in queue mode, or matched mode, with a capacity. -/
def port (matched : Bool) (cap : Nat) : Port := Port.mk matched false cap 0 0 [] [] [] 0 false none

/-- The page of one tensor entry: 16 elements of a format at 0x20040, its other side at 0x20080. -/
def entry (fmt : Nat) : List Byte := natLe 64 (1 + fmt * 2 + 32 + 0x801 * 2 ^ 64 + 0x802 * 2 ^ 115 + 16 * 2 ^ 300)

/-- The package with a space whose tensor table is the page. -/
def tensors (bs : List Byte) (ln : Lane) : State := { mem bs ln with objs := [(5, space)] }

/-- A tensor entry as read. -/
def tensor (s : State) : Tensor := (okOr (s.readTensor 0 0 false []) (Tensor.none, [])).1

/-- A member write of another package, as its flit, and the same once its group has authenticated. -/
def memberFlit : MemberWrite := { pkg := 1, port := 2, seq := 3, member := 4, asid := 0, winva := 0x20000, winsize := 4, offset := 0, priv := false, data := 7 }

/-- A multicast of wave 0 that waits for two members, and one for one. -/
def cast (ms : List Nat) : CastReq :=
  { wave := 0, lane := 0, priv := false, offset := 0, data := 0, waiting := ms.map (fun m => CastMember.mk m 1 0 0x20000 4 0 0), failed := [], held := false, port := 0,
    plane := 0, seq := 0, sentAt := 0 }

/-- A group without members, with one, with one too small, with one on another package; a misaligned offset and a dead handle. -/
theorem witness_Multicast :
    let ln := lane false [(1, handleWord 6 0 1), (2, 0), (3, 0), (4, 2)]
    let m (n : Nat) : McMember := McMember.mk 0 0 0x20000 n
    let s (ms : List McMember) : State := { solo ln with objs := [(1, obj (.mcgroup ms))] }
    let acc := Acc.mk 0 false true false false
    let g := okOr ((s []).translate acc 0x20000) (Target.mk .info 0 none)
    Single (s []) foc (wave ln) 0 ln ∧ (s []).translate acc 0x20000 = .ok g ∧ (readOpd (wave ln) 0 ln (.b 3) ++ readOpd (wave ln) 0 ln (.b 2)).toNat % 4 = 0 ∧
    (2 : Nat) % 4 ≠ 0 ∧ (s []).live (handleWord 6 0 1) 0 = some (1, .mcgroup []) ∧ (s []).live 0 0 = none ∧ (s [m 4]).live (handleWord 6 0 1) 0 = some (1, .mcgroup [m 4]) ∧
    0 + 4 ≤ (m 4).winSize ∧ (m 3).winSize < 0 + 4 ∧ g.kind = .hbm ∧ localOf g.pa + 4 ≤ hbmEnd ∧ (s []).poisoned (localOf g.pa) 4 = false ∧ (s []).reachable g = true ∧
    (∀ x ∈ [m 3, m 4], x.pkg = (s []).pkgid ∧ (s []).memberLink false 0 x = none) ∧ ((s []).castMembers false 0 7 [m 3, m 4] 0).2.2 = [0] ∧
    ((s []).castMembers false 0 7 [m 4] 0).2.2 = [] ∧ isOk ((s []).translate acc 0x40000) = false ∧ ((s []).engWrite acc 0x20000 (natLe 4 7)).2 = none ∧
    (let far := { s [McMember.mk 1 0 0x20000 4, m 4] with podsize := 2 }
     far.castsAway [McMember.mk 1 0 0x20000 4, m 4] = true ∧ (∀ x ∈ [McMember.mk 1 0 0x20000 4, m 4], far.memberLink false 0 x = none) ∧ far.requestRoom 0 = true ∧
     ({ far with cores := [(0, { CoreState.reset with copies := List.replicate 1536 { flight 0 with remote := true } })] } : State).requestRoom 0 = false) :=
  ⟨⟨⟨rfl, rfl, rfl, rfl⟩, rfl, rfl⟩, eq_okOr _ (by decide +kernel), by decide +kernel⟩

/-- Lanes that their multicast has released, with and without a failed member; one that waits. -/
theorem witness_MulticastWaits :
    let held (st : Option Nat) (v : Word) : Lane := { lane false [] with wait := some { waiting (.multicast 3) st [] with value := v } }
    Solo (solo (held (some 0) 0)) foc (wave (held (some 0) 0)) 0 (held (some 0) 0) ∧
    (held (some 0) 5).wait = some { waiting (.multicast 3) (some 0) [] with value := 5 } ∧ (held none 0).wait = some (waiting (.multicast 3) none []) :=
  ⟨⟨rfl, rfl, rfl, rfl⟩, rfl, rfl⟩

/-- A member write whose group has authenticated, and one whose has not; seen before, and new; its window there; answers of members. -/
theorem witness_MulticastArrives :
    let s (fs : List Flit) (ps : List Performed) (e : Event) : State :=
      given e { solo (lane false []) with fabric := { Fabric.reset with released := fs, windows := [(16 * 1 + 2, ps)], casts := [(6, cast [2, 3]), (7, cast [2])] } }
    let u := s [.member memberFlit] [] (.multicastMemberWrite memberFlit)
    let a := s [.ack 6 2 none, .ack 7 2 (some 0)] [] (.multicastAck 6 2 none)
    (u.takeFlit (.member memberFlit)).isSome = true ∧ (s [] [] (.multicastMemberWrite memberFlit)).takeFlit (.member memberFlit) = none ∧
    u.performed 1 2 3 (some 4) = none ∧ (s [] [Performed.mk 3 (some 4) true []] (.multicastMemberWrite memberFlit)).performed 1 2 3 (some 4) = some (Performed.mk 3 (some 4) true []) ∧
    (u.memberStore 0 false 0x20000 4 0 7).isSome = true ∧ (a.takeFlit (.ack 6 2 none)).isSome = true ∧ (a.takeFlit (.ack 7 2 (some 0))).isSome = true ∧
    (isOk (u.translate (Acc.mk 0 false true false false) 0x20000) = true ∧ isOk (u.translate (Acc.mk 0 false true false false) 0x40000) = false ∧ 3 < 0 + 4 ∧
      (okOr ((farPage (lane false [])).translate (Acc.mk 0 false true false false) 0x20000) (Target.mk .info 0 none)).kind = .remote) ∧
    sget a.fabric.casts 6 = some (cast [2, 3]) ∧ sget a.fabric.casts 7 = some (cast [2]) ∧ (∃ m ∈ (cast [2, 3]).waiting, m.member = 2) ∧
    (cast [2, 3]).waiting.filter (fun m => m.member != 2) ≠ [] ∧ (cast [2]).waiting.filter (fun m => m.member != 2) = [] ∧ (∀ m ∈ (cast [2]).waiting, m.member ≠ 4) := by
  decide +kernel

/-- Sizes 0 and 8,193, and 8,192 in the last class; a free block, an exhausted pool, a chunk left whose pages are mapped; blocks of both quads. -/
theorem witness_MallocAndMfree :
    let ln := lane false (at_ [(1, 8192), (4, 8193)])
    let pages : List Byte := (List.range 16).flatMap (fun i => natLe 8 (0x4F + (0x106 + i) * 4096))
    let s : State := { solo ln with objs := [(5, space)], mem := zwrite (solo ln).mem 0x105100 pages }
    Solo s foc (wave ln) 0 ln ∧ s.spaceOf (wave ln).asid = some (0x800, 2, 1) ∧ (solo ln).spaceOf 0 = none ∧
    (8192 ≤ 64 * 2 ^ 7 ∧ 64 * 2 ^ (7 - 1) < 8192 ∧ 7 < 8) ∧ 8192 < (readOpd (wave ln) 0 ln (.b 4)).toNat ∧
    sgetD (s.alloc 0).free 7 [] = [] ∧ sgetD (s.alloc 0).returned 7 [] = [] ∧ (∃ i, i < 1 ∧ sget (s.alloc 0).taken i = none) ∧
    (∀ i, i < 1 → s.pagesFault (laneAcc (wave ln) ln true) (2 * 2 ^ 16 + i * 2 ^ 16) 65536 17 = none) ∧
    (∀ i, i < 1 → (sget (Alloc.mk [(0, (0, 7))] [(7, [0x20000])] []).taken i).isSome = true) ∧
    sget (Alloc.mk [(0, (0, 7))] [] []).taken (0x20000 / 2 ^ 16 - 2) = some ((wave ln).die * 16 + s.quadOf 0 0, 7) ∧
    sget (Alloc.mk [(0, (1, 7))] [] []).taken (0x20000 / 2 ^ 16 - 2) = some (1, 7) ∧ 1 ≠ (wave ln).die * 16 + s.quadOf 0 0 :=
  ⟨⟨rfl, rfl, rfl, rfl⟩, by decide +kernel⟩

/-- An element of an FP32, a BF16, an FP16, a T8 and a T4 tensor that no L1 holds; the last one and the first beyond; an invalid entry. -/
theorem witness_TensorElements :
    let ln := lane false [(1, 15), (2, 0), (3, 0), (4, 16), (5, 0)]
    let s (fmt : Nat) : State := tensors (entry fmt) ln
    let e (fmt : Nat) : Tensor := tensor (s fmt)
    let i := (e 0).coords 15 0 0
    Single (s 0) foc (wave ln) 0 ln ∧ (∀ f, f ≤ 5 → isOk ((s f).readTensor 0 0 false []) = true ∧ (e f).ok = true ∧ (e f).fmt = f ∧ (e f).inside i = true ∧
      isOk ((s f).elemScale (laneAcc (wave ln) ln false) (e f) i []) = true) ∧
    (e 0).inside ((e 0).coords 16 0 0) = false ∧ (tensor (tensors [] ln)).ok = false ∧
    (e 0).live + (e 0).byteOf ((e 0).index i) = 0x2007C ∧ (s 0).l1Serves 0 0x10607C 4 = none ∧ (wave ln).gWait = [] ∧
    (narrowTo 3 0 false 0x40000000 = .q 2 ∧ narrowTo 4 0 false 0x40000000 = .q 2) ∧
    fpTraps ln (fpConvert fp32 bf16 (FpCtx.mk .rne false false) 0x3F800001).flags = false ∧
    fpTraps { ln with fpmode := 0x3E0 } (fpConvert fp32 fp16 (FpCtx.mk .rne false false) 0x7F000000).flags = true :=
  ⟨⟨⟨rfl, rfl, rfl, rfl⟩, rfl, rfl⟩, by decide +kernel⟩

theorem witness_elements_land :
    let ln := lane false [(1, 15), (2, 0), (3, 0), (4, 16), (5, 0)]
    let s (fmt : Nat) : State := tensors (entry fmt) ln
    LandsInMemory (s 0) (wave ln) ln false 0x2007C 4 (target (s 0) ln false 0x2007C) 0x10607C ∧
    LandsInMemory (s 3) (wave ln) ln true 0x2004F 1 (target (s 3) ln true 0x2004F) 0x10604F :=
  ⟨lands _ _ _ _ _ _ (by decide +kernel), lands _ _ _ _ _ _ (by decide +kernel)⟩

/-- A slot in a state, of a context. -/
def slot (st : SlotState) (asid : Nat) : Slot := Slot.mk st 0 1 8 0 3 0 asid

/-- The package with slot 0 of core 0 so. -/
def slots (x : Slot) (ln : Lane) : State := { solo ln with cores := [(0, { CoreState.reset with slots := [(0, x)] })] }

/-- Slot words of each state and owner, sound and not; extents at their limits. -/
theorem witness_Slots :
    let ln := lane false [(1, 0), (2, 0), (3, 0x8001), (4, 0x40), (5, 255), (6, 0x801)]
    Single (slots (slot .ready 0) ln) foc (wave ln) 0 ln ∧ sget (slots (slot .ready 0) ln).blocks 0 = some codeBlock ∧
    (∀ st ∈ [SlotState.empty, .filling, .ready, .draining, .poisoned], (slots (slot st 0) ln).slot 0 0 = slot st 0 ∧ (slot st 0).asid = (wave ln).asid) ∧
    (slot .ready 7).st ≠ .empty ∧ (slot .ready 7).asid ≠ (wave ln).asid ∧ (readOpd (wave ln) 0 ln (.b 1)) &&& 0xFFFFFEC0 = 0 ∧
    (readOpd (wave ln) 0 ln (.b 4)) &&& 0xFFFFFEC0 ≠ 0 ∧ (readOpd (wave ln) 0 ln (.b 2)).toNat % 256 = 0 ∧ (readOpd (wave ln) 0 ln (.b 5)).toNat % 256 ≠ 0 ∧
    (wbits (readOpd (wave ln) 0 ln (.b 3)) 11 0 = 1 ∧ wbits (readOpd (wave ln) 0 ln (.b 3)) 31 12 = 8 ∧ ¬ 256 * 1 < 8 ∧ ¬ codeBlock.scratchBytes < 0 + 256 * 1) ∧
    2048 < wbits (readOpd (wave ln) 0 ln (.b 6)) 11 0 ∧ ln.wait = none ∧ 7 ≠ 32 :=
  ⟨⟨⟨rfl, rfl, rfl, rfl⟩, rfl, rfl⟩, by decide +kernel⟩

/-- Lanes that the end of their slot has released, with a status and with TILE_POISON. -/
theorem witness_SlotReleased :
    let held (st : Nat) : Lane := { lane false [] with wait := some (waiting (.slotRelease 0 0) (some st) []) }
    Solo (slots (slot .empty 0) (held 7)) foc (wave (held 7)) 0 (held 7) ∧ (held 32).wait = some (waiting (.slotRelease 0 0) (some 32) []) :=
  ⟨⟨rfl, rfl, rfl, rfl⟩, rfl⟩

/-- The package with copies in flight on core 0 and an event for it. -/
def flying (cs : List LaneCopy) (e : Event) : State :=
  given e { slots (slot .filling 0) (lane false []) with cores := [(0, { CoreState.reset with slots := [(0, slot .filling 0)], copies := cs })] }

/-- The outbound copies with which the lanes of one instruction cover a line. -/
def covering : List LaneCopy :=
  (List.range 8).map (fun i => { flight i with inbound := false, pa := 0x106000 + 16 * i, size := 16, data := List.replicate 16 1 })

/-- Copies to and from slots of each state: aligned, misaligned on each side, and beyond the block's range; room for a request and none; the lane whose slot was poisoned. -/
theorem witness_LaneCopies :
    let ln := lane false (at_ [(1, 0), (4, 524288), (5, 8)])
    let s := slots (slot .filling 0) ln
    let lost : Lane := { ln with wait := some (waiting (.slotDrain 0 0) (some 32) []) }
    Solo s foc (wave ln) 0 ln ∧ Solo (slots (slot .empty 0) lost) foc (wave lost) 0 lost ∧ sget s.blocks 0 = some codeBlock ∧ (slot .filling 0).asid = (wave ln).asid ∧ ln.wait = none ∧
    (readOpd (wave ln) 0 ln (.b 1)).toNat % 16 = 0 ∧ (readOpd (wave ln) 0 ln (.b 5)).toNat % 16 ≠ 0 ∧ codeBlock.scratchBytes < (readOpd (wave ln) 0 ln (.b 4)).toNat + 16 ∧
    isOk (s.translate (laneAcc (wave ln) ln true) 0x20000) = true ∧ (target s ln true 0x20000).kind = .hbm ∧ s.requestRoom 0 = true ∧
    ((flying (List.replicate 1536 (flight 0)) .blockPlace).requestRoom 0 = false) :=
  ⟨⟨rfl, rfl, rfl, rfl⟩, ⟨rfl, rfl, rfl, rfl⟩, by decide +kernel⟩

/-- An inbound copy and an outbound one that complete, one that an earlier copy of its lane holds back, and one that covers its line with others. -/
theorem witness_LaneCopiesComplete :
    let e := Event.laneCopyComplete 0 0
    let s (c : LaneCopy) : State := flying [c] e
    let out : LaneCopy := { flight 0 with inbound := false, data := [1, 2, 3, 4] }
    let later : LaneCopy := { flight 0 with ordered := true, issue := 5 }
    let c0 : LaneCopy := covering.headD (flight 0)
    let me := Client.copy 3 0
    (s (flight 0)).input = some e ∧ ((s (flight 0)).core 0).copies[0]? = some (flight 0) ∧ ((s (flight 0)).wave 0).isSome = true ∧ (flight 0).remote = false ∧
    (∀ d ∈ (s (flight 0)).mergedCopies 0 (flight 0), (s (flight 0)).copyHeld d = false) ∧ (s (flight 0)).fabric.out = [] ∧
    ((s (flight 0)).asEngine me 0).reach 0 ((s (flight 0)).homeDie 0x106000) = true ∧ 0x106000 + 128 ≤ hbmEnd ∧ (flight 0).inbound = true ∧ (flight 0).data = [] ∧
    (s (flight 0)).poisoned 0x106000 4 = false ∧ ((s out).mergedCopies 0 out).length ≤ 1 ∧ out.data.length < 128 ∧
    (flying [flight 0, later] e).copyHeld later = true ∧ later ∈ (flying [flight 0, later] e).mergedCopies 0 later ∧
    1 < ((flying covering e).mergedCopies 0 c0).length ∧ c0.pa / 2 ^ 47 = c0.pa / 128 * 128 / 2 ^ 47 ∧ ((flying covering e).core 0).copies[0]? = some c0 := by
  decide +kernel

/-- A job record: an id, kind 2 of one loop of one iteration of 4 bytes between tensors 0 and 0. -/
def jobBytes (id kind : Nat) : List Byte := natLe 128 (id + kind * 2 ^ 32 + 2 ^ 36 + 4 * 2 ^ 96 + 0x803 * 2 ^ 224 + 2 ^ 320)

/-- A job in a phase. -/
def job (ph : JobPhase) : SlipJob := { record := jobBytes 9 2, asid := 0, priv := false, phase := ph, status := 0, bases := none, iter := 0, bytes := 0, cur := none, faultCode := 0, faultVa := 0, faultReason := 0, out := [] }

/-- Records that are sound and not; a channel that is full, empty, with its head faulted or within an iteration; a completion record whose SEQ has come. -/
theorem witness_StreamJobs :
    let ln := lane false (at_ [(1, 9), (4, 0x20080), (5, 0)])
    let good := entry 0 ++ List.replicate 64 0 ++ jobBytes 9 2
    let s (bs : List Byte) (js : List SlipJob) : State := warm (tensors bs ln) { CoreState.reset with jobs := js }
    let c := StreamCmd.ofBytes (zread (tensors good ln).mem 0x106080 128)
    let c2 := StreamCmd.ofBytes (zread (tensors (jobBytes 9 2) ln).mem 0x106000 128)
    let within : State := { s [] [job .running] with fabric := { Fabric.reset with out := [(4, { request none .store with client := some (.slip 0) })] } }
    let f : State := { s [] [] with cores := [(0, { CoreState.reset with copies := [flight 0] })] }
    let q := okOr ((mem (List.replicate 64 0 ++ [1, 0, 0, 0]) ln).engRead (laneAcc (wave ln) ln false) 0x20040 4 []) ([], [], State.reset)
    Single (s [] []) foc (wave ln) 0 ln ∧ (s [] []).laneRead 0 (laneAcc (wave ln) ln false) 0x20000 128 [] = .ok (zread (tensors [] ln).mem 0x106000 128, [], s [] []) ∧
    (s (jobBytes 9 2) []).laneRead 0 (laneAcc (wave ln) ln false) 0x20000 128 [] = .ok (zread (tensors (jobBytes 9 2) ln).mem 0x106000 128, [], s (jobBytes 9 2) []) ∧
    (s good []).laneRead 0 (laneAcc (wave ln) ln false) 0x20080 128 [] = .ok (zread (tensors good ln).mem 0x106080 128, [], s good []) ∧
    ((readOpd (wave ln) 0 ln (.b 3) ++ readOpd (wave ln) 0 ln (.b 2)).toNat = 0x20000 ∧ (readOpd (wave ln) 0 ln (.b 5) ++ readOpd (wave ln) 0 ln (.b 4)).toNat = 0x20080) ∧
    (wave ln).coreKey = 0 ∧ sget (s [] []).blocks 0 = some codeBlock ∧ (s [] []).copying 0 0 = false ∧ f.copying 0 0 = true ∧
    16 ≤ ((s [] (List.replicate 16 (job .queued))).core 0).jobs.length ∧ (StreamCmd.ofBytes (zread (tensors [] ln).mem 0x106000 128)).formed = false ∧
    (c2.formed = true ∧ isOk ((s (jobBytes 9 2) []).sidesOk 0 c2 []) = true ∧ okOr ((s (jobBytes 9 2) []).sidesOk 0 c2 []) true = false) ∧
    (c.formed = true ∧ okOr ((s good []).sidesOk 0 c []) false = true ∧ (s good []).signalOk 0 c.signal = true) ∧
    (job .faulted).cmd.jobId = (readOpd (wave ln) 0 ln (.b 1)).toNat ∧ (job .queued).phase ≠ .faulted ∧ (job .queued).stopping = false ∧
    (((s [] [job .running]).core 0).jobs = [job .running] ∧ (s [] [job .running]).slipBusy 0 = false ∧ within.slipBusy 0 = true ∧ (within.core 0).jobs = [job .running]) ∧ (readOpd (wave ln) 0 ln .z).toNat = 0 ∧
    leNat q.1 = (0 + 1) % 2 ^ 32 ∧ leNat [] ≠ (0 + 1) % 2 ^ 32 ∧ isOk (q.2.2.engRead (laneAcc (wave ln) ln false) 0x20048 1 q.2.1) = true :=
  ⟨⟨⟨rfl, rfl, rfl, rfl⟩, rfl, rfl⟩, reads _ _ _ _ _ _ (by decide +kernel), reads _ _ _ _ _ _ (by decide +kernel),
    reads _ _ _ _ _ _ (by decide +kernel), by decide +kernel⟩

/-- A halo record of one row, its core there and not, unsound, of no rows; its slot in each state; the lane that waited for it. -/
theorem witness_HalosAndTensorEntries :
    let ln := lane false (at_ [])
    let h (rows bytes : Nat) : List Byte := natLe 32 (rows * 2 ^ 16 + bytes * 2 ^ 64)
    let s (bs : List Byte) (st : SlotState) (asid : Nat) : State := warm (mem bs ln) { CoreState.reset with slots := [(0, slot st asid)] }
    let none_ : State := warm { mem (h 1 8) ln with harvest := List.replicate 6 2 } CoreState.reset
    let r (rows bytes : Nat) : Halo := Halo.ofBytes (zread (mem (h rows bytes) ln).mem 0x106000 32)
    let held : Lane := { ln with wait := some (waiting (.slotReady 0 0) (some 0) (h 1 8)) }
    let lost : Lane := { ln with wait := some (waiting (.slotReady 0 0) (some 32) (h 1 8)) }
    Solo (s [] .ready 0) foc (wave ln) 0 ln ∧ Solo (solo held) foc (wave held) 0 held ∧ Solo (solo lost) foc (wave lost) 0 lost ∧
    (none_.laneRead 0 (laneAcc (wave ln) ln false) 0x20000 32 [] = .ok (zread (mem (h 1 8) ln).mem 0x106000 32, [], none_) ∧
    (s (h 1 8) .ready 0).laneRead 0 (laneAcc (wave ln) ln false) 0x20000 32 [] = .ok (zread (mem (h 1 8) ln).mem 0x106000 32, [], s (h 1 8) .ready 0) ∧
    (s (h 0 8) .ready 0).laneRead 0 (laneAcc (wave ln) ln false) 0x20000 32 [] = .ok (zread (mem (h 0 8) ln).mem 0x106000 32, [], s (h 0 8) .ready 0) ∧
    (s (h 1 4) .ready 0).laneRead 0 (laneAcc (wave ln) ln false) 0x20000 32 [] = .ok (zread (mem (h 1 4) ln).mem 0x106000 32, [], s (h 1 4) .ready 0)) ∧
    (wave ln).coreKey = 0 ∧ (readOpd (wave ln) 0 ln (.b 3) ++ readOpd (wave ln) 0 ln (.b 2)).toNat = 0x20000 ∧ sget (s [] .ready 0).blocks 0 = some codeBlock ∧
    none_.logicalCore 0 (4 * none_.quadOf 0 0 + (r 1 8).pos) = none ∧ (s (h 1 8) .ready 0).logicalCore 0 (4 * (s (h 1 8) .ready 0).quadOf 0 0 + (r 1 8).pos) = some 0 ∧
    (r 1 4).rowBytes % 8 ≠ 0 ∧ ((r 1 8).srcPitch % 8 = 0 ∧ (r 1 8).dstPitch % 8 = 0 ∧ (r 1 8).rowBytes = 8 ∧ (r 1 8).rows = 1 ∧ (r 1 8).slot = 0) ∧
    ((r 0 8).srcPitch % 8 = 0 ∧ (r 0 8).dstPitch % 8 = 0 ∧ (r 0 8).rowBytes % 8 = 0 ∧ (r 0 8).rows = 0) ∧
    (((s (h 1 8) .filling 0).slot 0 0).st = .filling ∧ ((s (h 1 8) .poisoned 0).slot 0 0).st = .poisoned ∧ ((s (h 1 8) .ready 3).slot 0 0).asid ≠ (wave ln).asid) ∧
    (((s (h 1 8) .ready 0).slot 0 0).st = .ready ∧ ((s (h 1 8) .ready 0).slot 0 0).asid = (wave ln).asid) ∧
    (r 1 8).srcOff + ((r 1 8).rows - 1) * (r 1 8).srcPitch + (r 1 8).rowBytes ≤ 256 * ((s (h 1 8) .ready 0).slot 0 0).size ∧
    (r 1 8).dst + ((r 1 8).rows - 1) * (r 1 8).dstPitch + (r 1 8).rowBytes ≤ codeBlock.scratchBytes :=
  ⟨⟨rfl, rfl, rfl, rfl⟩, ⟨rfl, rfl, rfl, rfl⟩, ⟨rfl, rfl, rfl, rfl⟩, by and_intros <;> exact reads _ _ _ _ _ _ (by decide +kernel), by decide +kernel⟩

/-- A tensor's record and one that is none, in a context with a table; a table that holds a valid entry, and none; an index beyond it. -/
theorem witness_TensorEntries :
    let ln := lane false (at_ [(4, 65536)])
    let s (bs : List Byte) : State := warm (tensors bs ln) CoreState.reset
    let good := zread (tensors (entry 0) ln).mem 0x106000 64
    let e := okOr ((tensors (entry 0) ln).readTensor 0 0 false []) (Tensor.none, [])
    let old := okOr (((tensors (entry 0) ln).withAcks ln).entryAtomic 0 false e.1.va 0 .and 0xFFFFFFFE) (0, State.reset)
    Single (s []) foc (wave ln) 0 ln ∧ (s (entry 0)).laneRead 0 (laneAcc (wave ln) ln false) 0x20000 64 [] = .ok (good, [], s (entry 0)) ∧
    (s []).laneRead 0 (laneAcc (wave ln) ln false) 0x20000 64 [] = .ok (zread (tensors [] ln).mem 0x106000 64, [], s []) ∧
    (Tensor.ofBytes 0 (zread (tensors [] ln).mem 0x106000 64)).formed = false ∧ (Tensor.ofBytes 0 good).formed = true ∧
    (s (entry 0)).entryVa 0 0 = some 0x20000 ∧ isOk (((s (entry 0)).withAcks ln).writeEntry 0 false 0x20000 (definedEntry good)) = true ∧
    65536 ≤ (readOpd (wave ln) 0 ln (.b 4)).toNat ∧ (readOpd (wave ln) 0 ln .z).toNat = 0 ∧ (tensor (tensors [] ln)).ok = false ∧
    isOk ((tensors [] ln).readTensor 0 0 false []) = true ∧ isOk ((tensors (entry 0) ln).readTensor 0 0 false []) = true ∧ e.1.ok = true ∧
    isOk (((tensors (entry 0) ln).withAcks ln).entryAtomic 0 false e.1.va 0 .and 0xFFFFFFFE) = true ∧ old.1.getLsbD 0 = true :=
  ⟨⟨⟨rfl, rfl, rfl, rfl⟩, rfl, rfl⟩, reads _ _ _ _ _ _ (by decide +kernel), reads _ _ _ _ _ _ (by decide +kernel), by decide +kernel⟩

/-- SPUB with a copy of its own lane in flight, with another lane's, and with none; an entry with a shadow, and no entry; the lane that waited. -/
theorem witness_TensorPublished :
    let ln := lane false (at_ [(4, 65536)])
    let s (bs : List Byte) (cs : List LaneCopy) : State := { tensors bs ln with cores := [(0, { CoreState.reset with copies := cs })] }
    let u := s (entry 0) []
    let t := okOr (u.translate (entryAcc 0 false) 0x20000) (Target.mk .info 0 none)
    let la := localOf t.pa
    let e := Tensor.ofBytes 0x20000 (zread u.mem la 64)
    let adv (u : State) : State := ((u.noteTlb 0 t).stored 0 (la + 8) e.published).advanceGen 0
    let held : Lane := { ln with wait := some (waiting (.advance (some 0) 1) (some 0) [7, 0, 0, 0]) }
    Solo u foc (wave ln) 0 ln ∧ Solo (solo held) foc (wave held) 0 held ∧ u.translate (entryAcc 0 false) 0x20000 = .ok t ∧
    sget u.blocks 0 = some codeBlock ∧ ln.wait = none ∧ (s (entry 0) [flight 0]).copying 0 0 = true ∧ u.copying 0 0 = false ∧ (s (entry 0) [flight 3]).copying 0 0 = false ∧
    65536 ≤ (readOpd (wave ln) 0 ln (.b 4)).toNat ∧ (readOpd (wave ln) 0 ln .z).toNat = 0 ∧ u.entryVa 0 0 = some 0x20000 ∧ t.kind = .hbm ∧ la + 64 ≤ hbmEnd ∧
    u.reachable t = true ∧ u.poisoned la 64 = false ∧ e.publishes = true ∧ (Tensor.ofBytes 0x20000 (zread (s [] []).mem la 64)).publishes = false ∧
    (adv u).olderAccess (some 0) ((adv u).ctx 0).gen = false ∧ (adv (s (entry 0) [flight 3])).olderAccess (some 0) ((adv (s (entry 0) [flight 3])).ctx 0).gen = true :=
  ⟨⟨rfl, rfl, rfl, rfl⟩, ⟨rfl, rfl, rfl, rfl⟩, eq_okOr _ (by decide +kernel), by decide +kernel⟩

/-- A job at the head of a channel in each phase: it starts between tensors, or faults, iterates once, takes its place on the ring, writes
its record, and signals a port. -/
theorem witness_SlipJobsRun :
    let ln := lane false []
    let u (bs : List Byte) (js : List SlipJob) (e : Event) : State := given e { tensors bs ln with cores := [(0, { CoreState.reset with jobs := js })] }
    let s (j : SlipJob) (e : Event) : State := u (entry 0 ++ List.replicate 128 0) [j] e
    let me := Client.slipRing 0 0
    let ran (t : State) : State := t.asEngine (Client.slip 0) 0
    let ranRing (t : State) : State := t.asEngine me 0
    let a := Acc.mk 0 false false false true
    let j : SlipJob := { job .running with bases := some (0x20040, 64, 0x20080, 64) }
    let bad : SlipJob := { job .running with bases := some (0x60040, 64, 0x20080, 64) }
    let c := j.cmd
    let i := digits c.bounds 0
    let r : SlipJob := { job .running with record := natLe 128 (9 + 2 ^ 36 + 2 ^ 39 + 2 ^ 46 + 2 ^ 86 + 4 * 2 ^ 96 + 2 ^ 320) }
    let sl (asid : Nat) : State := { u [] [r] (.slipTileStart 0) with cores := [(0, { CoreState.reset with jobs := [r], slots := [(0, slot .filling asid)] })] }
    let done : SlipJob := { job .ending with record := jobBytes 9 2 }
    let end_ (acks : List Word) : State := { s done (.slipJobComplete 0) with fabric := { Fabric.reset with answers := [(me, { bytes := [], acks := acks, failed := none })] } }
    let t := okOr ((end_ []).translate { a with write := true } 0x200C0) (Target.mk .info 0 none)
    let sig (m : Bool) (cap : Nat) (js : List SlipJob) : State := { u [] js (.slipSignal 0) with objs := [(1, obj (.port (port m cap)))] }
    ((s (job .queued) (.slipJobStart 0)).core 0).jobs = [job .queued] ∧ (s (job .queued) (.slipJobStart 0)).fabric.out = [] ∧ (job .queued).stopping = false ∧
    (s (job .queued) (.slipJobStart 0)).input = some (.slipJobStart 0) ∧ isOk ((ran (s (job .queued) (.slipJobStart 0))).slipBases (job .queued) []) = true ∧
    ((u [] [job .queued, job .ending] (.slipJobStart 0)).core 0).jobs = [job .queued, job .ending] ∧
    (match (ran (u [] [job .queued] (.slipJobStart 0))).slipBases (job .queued) [] with | .error e => e.cause | .ok _ => 0) ≠ 0 ∧
    (r.cmd.srcRing || r.cmd.dstRing) = true ∧ r.cur = none ∧ (r.cmd.slot0 + r.iter / r.cmd.perTile % r.cmd.nslots = 0) ∧
    (((sl 0).slot 0 0).st = (if r.cmd.dstRing then .filling else .draining) ∧ ((sl 0).slot 0 0).asid = r.asid ∧ ((sl 3).slot 0 0).asid ≠ r.asid) ∧
    isOk (tensorSide a 0x20040 64 c.srcOff c.run (strideSum i c.srcStrides 5)) = true ∧
    isOk (tensorSide { a with write := true } 0x20080 64 c.dstOff c.run (strideSum i c.dstStrides 5)) = true ∧ c.srcRing = false ∧ c.dstRing = false ∧
    (match (ran (s j (.slipIteration 0))).engRead a (okOr (tensorSide a 0x20040 64 c.srcOff c.run (strideSum i c.srcStrides 5)) 0) c.run [] with
      | .ok q => (q.2.2.engWrite { a with write := true } (okOr (tensorSide { a with write := true } 0x20080 64 c.dstOff c.run (strideSum i c.dstStrides 5)) 0) q.1).2.isNone
      | .error _ => false) = true ∧ c.total ≤ 0 + 1 ∧
    (match (ran (s bad (.slipIteration 0))).slipSource 0 bad a i (0x60040, 64, 0x20080, 64) [] with | .error e => e.cause | .ok _ => 0) ≠ 0 ∧
    done.cmd.ringVa = 0x200C0 ∧ (match (ranRing (end_ [0])).takeRing a 0x200C0 with
      | .ok q => q.1 == some 0 && isOk (q.2.ringRecord a (0x200C0 + 64 + 64 * (0 % 2 ^ done.cmd.ringLog2)) (done.completion 1))
      | .error _ => false) = true ∧ done.cmd.signal = 0 ∧ done.status ≠ 1 ∧
    ({ done with record := natLe 128 (leNat (jobBytes 9 2) + 7 * 2 ^ 288) } : SlipJob).cmd.signal ≠ 0 ∧
    ({ done with record := natLe 128 (leNat (jobBytes 9 2) + 7 * 2 ^ 288) } : SlipJob).cmd.ringVa = done.cmd.ringVa ∧
    ((end_ []).fabric.answersOf me).acks = [] ∧ isOk ((end_ []).translate { a with write := true } 0x200C0) = true ∧ t.kind = .hbm ∧ localOf t.pa + 8 ≤ hbmEnd ∧
    (ranRing (end_ [])).reachable t = true ∧ ((ranRing (end_ [])).noteTlb 0 t).poisoned (localOf t.pa) 8 = false ∧ (end_ []).pkgid < 512 ∧
    (sig false 1 [job .signalling]).portOf 0 0 = none ∧ (job .signalling).lost = false ∧ ({ job .signalling with status := 1 } : SlipJob).cmd.signal = 0 ∧
    (sig false 0 [job .signalling]).portOf (handleWord 2 0 1) 0 = some (.here 1 (port false 0)) ∧
    (port false 0).matched = false ∧ (port false 0).capacity ≤ (port false 0).queue.length := by
  decide +kernel

/-- TSHAPE of 16 by 16 elements of a format. -/
def shape16 (fmt : Nat) : Word := BitVec.ofNat 32 (16 + 16 * 2 ^ 9 + fmt * 2 ^ 18)

/-- A wave with shapes of tiles 0 to 2 and g8, g9. -/
def tileWave (fa fb fc : Nat) (g : Word) (ln : Lane) : Wave :=
  { wave ln with ctl := [(8, shape16 fa), (9, shape16 fb), (10, shape16 fc)], g := [(8, g), (9, 0)] }

/-- The package with that wave. -/
def tileState (w : Wave) (bs : List Byte) (ln : Lane) : State := { mem bs ln with waves := [(0, w)] }

theorem kln_ready (s : State) (w : Wave) (ln : Lane) (ts : List Nat) (hf : s.focus = some foc) (hw : s.wave 0 = some w) (hl : w.lanes = [(0, ln)])
    (hi : w.insts = []) (ht : ln.inTrap = false) (hc : ∀ t ∈ ts, t < w.tileCount) (hk : w.tileLost = false) : KlnReady s foc w ts where
  runs := ⟨hf, hw, by decide, by intro l h; have : l = 0 := by simpa [foc] using h
                                 subst this; simp [Wave.lane, hl, sget]⟩
  all := by rw [hl]; rfl
  nonempty := by decide
  alone := by simp [instAt, hi]
  outside := by
    intro l h x hx
    have : l = 0 := by simpa [foc] using h
    subst this
    have : ln = x := by simpa [Wave.lane, hl, sget] using hx
    exact this ▸ ht
  tiles := hc
  kept := hk

/-- The package with that wave and a table whose first entry is a tensor's, or none. -/
def tileTensors (w : Wave) (bs : List Byte) (ln : Lane) : State := { tensors bs ln with waves := [(0, w)] }

/-- Tiles of 16 by 16 in FP32, BF16 and T8, ready, with a tensor and without. -/
theorem witness_TilesFilledAndConverted :
    let ln := lane false []
    let w := tileWave 0 1 3 0 ln
    KlnReady (tileTensors w (entry 0) ln) foc w [0, 1] ∧ KlnReady (tileTensors w (entry 0) ln) foc w [0, 2] ∧ KlnReady (tileTensors w (entry 0) ln) foc w [2, 0] ∧
    KlnReady (tileTensors w [] ln) foc w [0, 2] ∧
    (w.shape 0).bad = none ∧ (w.shape 1).bad = none ∧ (w.shape 2).bad = none ∧ (w.shape 0).fmt = 0 ∧ (w.shape 1).fmt = 1 ∧ (w.shape 2).fmt = 3 ∧
    ((w.shape 0).rows = (w.shape 1).rows ∧ (w.shape 0).cols = (w.shape 1).cols ∧ (w.shape 0).rows = (w.shape 2).rows ∧ (w.shape 0).cols = (w.shape 2).cols) ∧
    wbits (w.greg 8) 31 16 = 0 ∧ wbits (w.greg 8) 15 0 = 0 ∧ isOk ((tileTensors w (entry 0) ln).readTensor 0 0 false []) = true ∧
    (tensor (tileTensors w (entry 0) ln)).ok = true ∧ isOk ((tileTensors w [] ln).readTensor 0 0 false []) = true ∧ (tensor (tileTensors w [] ln)).ok = false ∧
    w.tile 0 (w.shape 0) = List.replicate 256 0 ∧ narrowTo 3 0 true (fpConvert fp32 fp32 FpCtx.matrix 0).bits = .q 0 ∧
    (tensor (tileTensors w (entry 0) ln)).scale = 0 ∧ w.lane 0 = some ln :=
  ⟨kln_ready _ _ _ _ rfl rfl rfl rfl rfl (by decide) rfl, kln_ready _ _ _ _ rfl rfl rfl rfl rfl (by decide) rfl,
    kln_ready _ _ _ _ rfl rfl rfl rfl rfl (by decide) rfl, kln_ready _ _ _ _ rfl rfl rfl rfl rfl (by decide) rfl, by decide +kernel⟩

/-- A tile and a READY slot of its four lines, pitch 0 and the least pitch; a drain record for a tile, and one with a reserved bit. -/
theorem witness_TilesMovedAndDrained :
    let ln := lane false []
    let w := tileWave 0 0 0 0 ln
    let x : Slot := { slot .ready 0 with size := 4 }
    let s : State := { tileState w [] ln with cores := [(0, { CoreState.reset with slots := [(0, x)] })] }
    let w2 : Wave := { w with g := [(8, 0x20000), (9, 0)] }
    let r := natLe 64 (2 ^ 17 + 2 ^ 18)
    let d (bs : List Byte) : DrainRec := DrainRec.ofBytes w2 false (zread (tileState w2 bs ln).mem 0x106000 64)
    KlnReady s foc w [0] ∧ KlnReady (warm (tileState w2 r ln) CoreState.reset) foc w2 [0] ∧
    (warm (tileState w2 r ln) CoreState.reset).laneRead 0 (laneAcc w2 ln false) 0x20000 64 [] =
      .ok (zread (tileState w2 r ln).mem 0x106000 64, [], warm (tileState w2 r ln) CoreState.reset) ∧
    (warm (tileState w2 (natLe 64 (2 ^ 31)) ln) CoreState.reset).laneRead 0 (laneAcc w2 ln false) 0x20000 64 [] =
      .ok (zread (tileState w2 (natLe 64 (2 ^ 31)) ln).mem 0x106000 64, [], warm (tileState w2 (natLe 64 (2 ^ 31)) ln) CoreState.reset) ∧
    sget s.blocks 0 = some codeBlock ∧ s.slot 0 0 = x ∧ x.st = .ready ∧ (w.shape 0).bad = none ∧ (w.shape 0).lineBytes = 64 ∧
    64 ≤ 16 * wbits (0x00400000#32) 31 20 ∧ 128 * 0 + ((w.shape 0).lines - 1) * 64 + 64 ≤ 256 * x.size ∧ x.asid = w.asid ∧
    (w2.shape 0).bad = none ∧ ((w2.greg 8).toNat + (w2.greg 9).toNat * 2 ^ 32 = 0x20000) ∧ w2.lane 0 = some ln ∧ (w2.shape 0).fmt = 0 ∧
    (d r).ok = true ∧ (d r).tileTrap w2 0 (w2.shape 0) = none ∧ (d r).toTile = true ∧ (d r).scEn = false ∧ (d r).biEn = false ∧ (d r).resEn = false ∧
    (d r).el.drop = none ∧ (d (natLe 64 (2 ^ 31))).ok = false ∧ ((tileWave 1 0 0 0 ln).shape 0).fmt = 1 ∧ ((tileWave 1 0 0 0 ln).shape 0).bad = none :=
  ⟨kln_ready _ _ _ _ rfl rfl rfl rfl rfl (by decide) rfl, kln_ready _ _ _ _ rfl rfl rfl rfl rfl (by decide) rfl, reads _ _ _ _ _ _ (by decide +kernel),
    reads _ _ _ _ _ _ (by decide +kernel), by decide +kernel⟩

/-- A member of a quad on a core: its lane has yet to arrive, or waits at its complete instance. -/
def quadLane (here : Bool) : Lane := { lane false [] with wait := if here then some (waiting .quad none []) else none }

def quadWave (core : Nat) (here : Bool) : Wave :=
  { tileWave 1 1 0 0 (quadLane here) with
    core := core, insts := if here then [XInst.mk 0x20000 true [0] [Arrival.mk 0 0 0 true false]] else [] }

/-- The four waves of a quad: three have arrived, or all four, and the quad's Kilns have been taken up. -/
def quadState (all : Bool) : State :=
  { solo (lane false []) with
    waves := [(0, quadWave 0 all), (1, quadWave 1 true), (2, quadWave 2 true), (3, quadWave 3 true)],
    blocks := [(0, { codeBlock with waves := [0, 1, 2, 3], quadInsts := [(0x20000, (if all then [(0, 0)] else []) ++ [(1, 1), (2, 2), (3, 3)])],
                                    quadOn := if all then some (0x20000, 2) else none })] }

/-- Shapes and formats that agree and that do not. -/
theorem witness_TilesMultiplied :
    let ln := lane false []
    let w := tileWave 1 1 0 0 ln
    let v := tileWave 1 1 1 0 ln
    let wide : Wave := { w with ctl := [(8, shape16 1), (9, shape16 1), (10, BitVec.ofNat 32 (32 + 16 * 2 ^ 9))] }
    let ok (w : Wave) : Bool := [2, 0, 1].all (fun t => (w.shape t).bad == none)
    KlnReady (tileState w [] ln) foc w [2, 0, 1] ∧ KlnReady (tileState v [] ln) foc v [2, 0, 1] ∧ KlnReady (tileState wide [] ln) foc wide [2, 0, 1] ∧
    ok w ∧ ok v ∧ ok wide ∧ ¬ ((wide.shape 0).cols = (wide.shape 1).rows ∧ (wide.shape 0).rows = (wide.shape 2).rows ∧ (wide.shape 1).cols = (wide.shape 2).cols) ∧
    ((w.shape 0).cols = (w.shape 1).rows ∧ (w.shape 0).rows = (w.shape 2).rows ∧ (w.shape 1).cols = (w.shape 2).cols) ∧
    ((w.shape 0).fmt = 1 ∧ (w.shape 1).fmt = 1 ∧ (w.shape 2).fmt = 0 ∧ (v.shape 2).fmt = 1) ∧
    isOk (multiply 1 1 16 16 16 (w.tile 0 (w.shape 0)) (w.tile 1 (w.shape 1)) (w.tile 2 (w.shape 2))) = true :=
  ⟨kln_ready _ _ _ _ rfl rfl rfl rfl rfl (by decide) rfl, kln_ready _ _ _ _ rfl rfl rfl rfl rfl (by decide) rfl,
    kln_ready _ _ _ _ rfl rfl rfl rfl rfl (by decide) rfl, by decide +kernel⟩

/-- The last wave of a quad that arrives, and the four that have. -/
theorem witness_QuadMultiplied :
    let q := quadState false
    let r := quadState true
    let x := XInst.mk 0x20000 true [0] [Arrival.mk 0 0 0 true false]
    let k := { codeBlock with waves := [0, 1, 2, 3], quadInsts := [(0x20000, [(1, 1), (2, 2), (3, 3)])] }
    let w := tileWave 1 1 0 0 (lane false [])
    let ok (w : Wave) : Bool := [2, 0, 1].all (fun t => (w.shape t).bad == none)
    KlnReady q foc (quadWave 0 false) [2, 0, 1] ∧ GroupRuns r foc (quadWave 0 true) ∧
    (sget q.blocks 0 = some k ∧ q.quadSize (quadWave 0 false) = 4 ∧ q.quadPos (quadWave 0 false) = 0 ∧ (quadWave 0 false).onCore = true ∧ ok (quadWave 0 false) ∧
      q.quadArrived k 0x20000 = [(1, 1), (2, 2), (3, 3)] ∧ q.blocks.length = 1) ∧
    (r.quadSize (quadWave 0 true) = 4 ∧ r.quadPos (quadWave 0 true) = 0 ∧ (quadWave 0 true).tileLost = false ∧ (quadWave 0 true).lanes = [(0, quadLane true)] ∧
      (quadLane true).inTrap = false ∧ (quadLane true).wait = some (waiting .quad none []) ∧
      (sget r.blocks 0).map (fun k => (sgetD k.quadInsts 0x20000 [], k.quadOn)) = some ([(0, 0), (1, 1), (2, 2), (3, 3)], some (0x20000, 2))) ∧
    (∀ i, i < 4 → r.wave i = some (quadWave i true) ∧ (quadWave i true).onCore = true ∧ ok (quadWave i true)) ∧
    (∀ i, i < 4 → instAt (quadWave i true) 0x20000 = some x ∧ x.arrived.map Arrival.lane = skeys (quadWave i true).lanes) ∧
    (∀ i, i < 4 → (quadWave i true).tiles.isEmpty = true ∧ w.tiles.isEmpty = true ∧ [0, 1, 2].map (quadWave i true).shape = [0, 1, 2].map w.shape) ∧
    accFmt 1 = 0 ∧ mmaFormats 1 1 = true :=
  ⟨kln_ready _ _ _ _ rfl rfl rfl rfl rfl (by decide) rfl, ⟨rfl, rfl, by decide, by decide +kernel⟩, by decide +kernel⟩

/-- A tile at and beyond the footprint, lost, and with each bad shape; a quad of four cores and one of fewer. -/
theorem witness_KilnTraps :
    let ln := lane false []
    let w : Wave := { tileWave 1 6 0 0 ln with tileCount := 7 }
    GroupRuns (tileState w [] ln) foc w ∧ skeys w.lanes = [0] ∧ instAt w foc.pc = none ∧ w.lane 0 = some ln ∧ ln.inTrap = false ∧
    (tileState w [] ln).quadSize w = 4 ∧ ({ tileState w [] ln with harvest := List.replicate 6 2 } : State).quadSize w < 4 ∧ (w.shape 0).bad = none ∧
    w.tileCount ≤ (7#3).toNat ∧ (6#3).toNat < w.tileCount ∧ ({ w with tileLost := true } : Wave).tileLost = true ∧ (w.shape 1).bad = some 3 ∧ (w.shape 3).bad = some 1 ∧
    (TileShape.mk 256 256 1 0).bad = some 2 ∧ (TileShape.mk 256 128 1 0).bad = none ∧ (TileShape.mk 16 16 1 2).bad = some 4 :=
  ⟨⟨rfl, rfl, by decide, by decide +kernel⟩, by decide +kernel⟩

/-- A task record of STATE st: WAVE or KILNOP of one loop of 16 by 16 by 16 between tensors 0, and COUNT. -/
def taskBytes (kind st count : Nat) : List Byte :=
  natLe 128 (kind + st * 2 ^ 8 + (if kind = 0 then 2 ^ 16 + 2 ^ 240 + (16 + 16 * 2 ^ 9 + 16 * 2 ^ 18) * 2 ^ 204 else 0) + count * 2 ^ 32)

/-- The page of a task record, and a table of one BF16 entry of 16 by 16 elements at it. -/
def taskPage (kind st count : Nat) : List Byte :=
  taskBytes kind st count ++ natLe 64 (1 + 1 * 2 + 2 * 32 + 0x804 * 2 ^ 64 + 0x804 * 2 ^ 115 + 16 * 2 ^ 300 + 16 * 2 ^ 320 + 16 * 2 ^ 400)

/-- The package with that page, its table behind the record. -/
def tasks (kind st count : Nat) (ln : Lane) : State := { mem (taskPage kind st count) ln with objs := [(5, obj (.space 0 0x802 0 0))] }

/-- A submitted task. -/
def task : Task := Task.mk 0 0x20000 0x106000 true 0 0 false

/-- Records of each STATE, well-formed and not, their entries valid and not, READY or ARMED by COUNT; addresses misaligned and unmapped. -/
theorem witness_TaskFunctions :
    let ln := lane true (at_ [(1, 0), (4, 1), (5, 2), (6, 0x20004), (7, 0), (8, 0x40000), (9, 0)])
    let s (kind st : Nat) : State := tasks kind st 0 ln
    let va (r : BitVec 5) : Nat := (readOpd (wave ln) 0 ln (.b (r + 1)) ++ readOpd (wave ln) 0 ln (.b r)).toNat
    let acc := laneAcc (wave ln) ln true
    let rd (s : State) := okOr (s.engRead (laneAcc (wave ln) ln false) 0x20000 128 []) ([], [], State.reset)
    let f : State := { s 0 0 with cores := [(0, { CoreState.reset with copies := [flight 0] })] }
    Single (s 0 0) foc (wave ln) 0 ln ∧ sget (s 0 0).blocks 0 = some codeBlock ∧ (va 2 = 0x20000 ∧ va 6 % 128 ≠ 0 ∧ va 8 % 128 = 0) ∧
    (1 < (readOpd (wave ln) 0 ln (.b 5)).toNat ∧ readOpd (wave ln) 0 ln (.b 4) = 1 ∧ readOpd (wave ln) 0 ln (.b 1) = 0) ∧
    (match (s 0 0).translate acc (va 8) with | .error e => e.cause | .ok _ => 0) = 0x10 ∧
    isOk ((s 0 0).translate (laneAcc (wave ln) ln false) 0x20000) = true ∧ isOk ((s 0 0).translate acc 0x20000) = true ∧
    ([0, 1, 3, 4, 5, 9].all (fun st => isOk ((s 0 st).engRead (laneAcc (wave ln) ln false) 0x20000 128 []) && (rd (s 0 st)).2.1.isEmpty &&
      bitsOf (leNat (rd (s 0 st)).1) 11 8 == st)) = true ∧
    isOk (((rd (s 0 1)).2.2.withAcks ln).writeState acc 0x20000 (bitsOf (leNat (rd (s 0 1)).1) 14 12) 6) = true ∧
    (rd (s 0 0)).2.2.copying 0 0 = false ∧ (rd f).2.2.copying 0 0 = true ∧
    isOk (((rd (s 0 5)).2.2.withAcks ln).submit acc 0 (Task.mk 0 0x20000 0x106000 true 0 0 true) true) = true :=
  ⟨⟨⟨rfl, rfl, rfl, rfl⟩, rfl, rfl⟩, by decide +kernel⟩

/-- Records that MTASK submits and turns away: each KIND, ARMED and READY, with valid entries and without. -/
theorem witness_TasksSubmitted :
    let ln := lane true (at_ [])
    let s (kind count : Nat) : State := tasks kind 0 count ln
    let acc := laneAcc (wave ln) ln true
    let rd (s : State) := okOr (s.engRead (laneAcc (wave ln) ln false) 0x20000 128 []) ([], [], State.reset)
    let e (s : State) := okOr (((rd s).2.2.withAcks ln).taskEntries 0 false (taskBytes 0 0 0) []) (Tensor.none, Tensor.none, Tensor.none, [])
    let bare : State := { mem (taskBytes 0 0 0) ln with objs := [(5, obj (.space 0 0x802 0 0))] }
    (rd (s 0 0)).1 = taskBytes 0 0 0 ∧ (rd (s 1 0)).1 = taskBytes 1 0 0 ∧ (rd (s 2 0)).1 = taskBytes 2 0 0 ∧ (rd (s 0 1)).1 = taskBytes 0 0 1 ∧ (rd bare).1 = taskBytes 0 0 0 ∧
    taskFormed (taskBytes 0 0 0) = true ∧ taskFormed (taskBytes 1 0 0) = true ∧ taskFormed (taskBytes 2 0 0) = false ∧
    bitsOf (leNat (taskBytes 0 0 0)) 3 0 = 0 ∧ bitsOf (leNat (taskBytes 1 0 0)) 3 0 = 1 ∧ bitsOf (leNat (taskBytes 0 0 0)) 63 32 = 0 ∧ bitsOf (leNat (taskBytes 0 0 1)) 63 32 ≠ 0 ∧
    isOk (((rd (s 1 0)).2.2.withAcks ln).submit acc 0 (Task.mk 0 0x20000 0x106000 true 0 0 false) true) = true ∧
    isOk (((rd (s 0 1)).2.2.withAcks ln).submit acc 0 (Task.mk 0 0x20000 0x106000 true 0 0 false) false) = true ∧
    isOk (((rd (s 0 0)).2.2.withAcks ln).taskEntries 0 false (taskBytes 0 0 0) []) = true ∧ isOk (((rd bare).2.2.withAcks ln).taskEntries 0 false (taskBytes 0 0 0) []) = true ∧
    (entriesOk (taskBytes 0 0 0) (e (s 0 0)).1 (e (s 0 0)).2.1 (e (s 0 0)).2.2.1 = true ∧ formatsOk (e (s 0 0)).1 (e (s 0 0)).2.1 (e (s 0 0)).2.2.1 = true) ∧
    (e bare).1.ok = false := by
  intros; and_intros <;> decide +kernel +revert

/-- The package whose Setter 0 has a READY task, and an event is its input. -/
def readyIn (s : State) (x : Task) (e : Event) : State :=
  given e { s with setters := Setter.mk [x] [] [] 1 :: List.replicate 5 Setter.reset }

def ready (kind : Nat) (e : Event) : State := readyIn (tasks kind 2 0 (lane true [])) task e

/-- A Setter with room; a record that takes its STATE, is poisoned, and cannot be translated. -/
theorem witness_SettersHoldTasks :
    let s := ready 0 (.taskDispatch 0)
    let acc := engAcc 0 true
    let g := okOr (s.translate { acc with write := true } 0x20001) (Target.mk .info 0 none)
    0 < s.setters.length ∧ isOk (s.submit acc 0 task true) = true ∧ isOk (s.submit acc 5 task false) = true ∧ isOk (s.translate { acc with write := true } 0x20001) = true ∧
    0x20001 % 128 + 1 < 128 ∧ (match s.translate { acc with write := true } 0x40000 with | .error e => e.cause | .ok _ => 0) ≠ 0 ∧ g.kind = .hbm ∧
    localOf g.pa = 0x106000 + 1 ∧ localOf g.pa + 1 ≤ hbmEnd ∧ s.reachable g = true ∧ s.poisoned 0x106001 1 = false ∧
    ({ s with poison := [0x106000 / 128] } : State).poisoned 0x106001 1 = true := by
  decide +kernel

/-- No head; a head whose record cannot be read; with a free Kiln and none; its entries as they must be, of formats that do not go together, and gone. -/
theorem witness_HeadsDispatched :
    let ev := Event.taskDispatch 0
    let acc := engAcc 0 true
    let s := ready 0 ev
    let me := Client.dispatch 0
    let ran (s : State) : State := s.asEngine me 6
    let rd (s : State) := okOr ((ran s).taskRead acc 0x20000 128 []) ([], [], State.reset)
    let e (s : State) := okOr ((rd s).2.2.taskEntries 0 true (rd s).1 (rd s).2.1) (Tensor.none, Tensor.none, Tensor.none, [])
    let table (fmt : Nat) : State := readyIn { mem (taskBytes 0 2 0 ++ natLe 64 (1 + fmt * 2 + 2 * 32 + 0x804 * 2 ^ 64 + 16 * 2 ^ 300 + 16 * 2 ^ 320 + 16 * 2 ^ 400)) (lane true []) with
      objs := [(5, obj (.space 0 0x802 0 0))] } task ev
    let bare : State := readyIn { mem (taskBytes 0 2 0) (lane true []) with objs := [(5, obj (.space 0 0x802 0 0))] } task ev
    (s.setter 0).ready = [task] ∧ s.input = some ev ∧ s.fabric.out = [] ∧ ({ s with setters := List.replicate 6 Setter.reset } : State).setter 0 = Setter.reset ∧
    (match (ran (readyIn s { task with va := 0x40000 } ev)).taskRead acc 0x40000 128 [] with | .error e => e.cause | .ok _ => 0) ≠ 0 ∧
    (s.fabric.answersOf me).bytes = [] ∧ isOk ((ran s).taskRead acc 0x20000 128 []) = true ∧ bitsOf (leNat (rd s).1) 3 0 = 0 ∧ (rd s).2.2.freeKiln 0 = some 0 ∧
    (rd { s with harvest := [0, 0, 0, 0, 0, 0] }).2.2.freeKiln 0 = none ∧ isOk ((rd s).2.2.taskEntries 0 true (rd s).1 (rd s).2.1) = true ∧
    entriesOk (rd s).1 (e s).1 (e s).2.1 (e s).2.2.1 = true ∧ formatsOk (e s).1 (e s).2.1 (e s).2.2.1 = true ∧ isOk ((rd s).2.2.writeState acc 0x20000 0 3) = true ∧
    (entriesOk (rd (table 5)).1 (e (table 5)).1 (e (table 5)).2.1 (e (table 5)).2.2.1 = true ∧ formatsOk (e (table 5)).1 (e (table 5)).2.1 (e (table 5)).2.2.1 = false) ∧
    (isOk ((rd bare).2.2.taskEntries 0 true (rd bare).1 (rd bare).2.1) = true ∧ (e bare).1.ok = false) := by
  decide +kernel

theorem newObj_isSome (s : State) (asid : Nat) (b : Body) (h : s.objs = []) : (s.newObj asid b).isSome = true := by
  have hs : ∃ n, tableSize - (1 + Config.freeNat s.freeCtr 1 % (tableSize - 1)) = n + 1 := by
    have : Config.freeNat s.freeCtr 1 % (tableSize - 1) < tableSize - 1 := Nat.mod_lt _ (by decide)
    exact ⟨tableSize - (1 + Config.freeNat s.freeCtr 1 % (tableSize - 1)) - 1, by omega⟩
  obtain ⟨n, hn⟩ := hs
  have hf : s.freeEntry = some (1 + Config.freeNat s.freeCtr 1 % (tableSize - 1)) := by
    simp only [State.freeEntry, h, List.filter_nil, List.map_nil, List.length_nil]
    rw [if_neg (by decide), hn]
    rfl
  simp [State.newObj, hf]

/-- An object table of n objects. -/
def table (n : Nat) : Sparse Obj := (List.range n).map (fun i => (i, obj (.waitset [])))

/-- A package whose object table is full. -/
def crowded (s : State) : State := { s with objs := table tableSize }

theorem crowded_objs (s : State) (c : CoreState) : (warm (crowded s) c).objs = table tableSize := by
  simp only [warm, crowded]

theorem newObj_none (s : State) (asid n : Nat) (b : Body) (h : s.objs = table n) (hn : tableSize - 1 ≤ n) : s.newObj asid b = none := by
  have hf : s.freeEntry = none := by
    have : (table n).filter (fun e => e.2.body.isSome) = table n := by simp [table, obj]
    unfold State.freeEntry
    rw [h, this]
    exact if_pos (by simpa [table] using hn)
  simp [State.newObj, hf]

theorem spawn_isSome (s : State) (asid : Nat) (r : SpawnRec) (prio depth : Nat) (group : Option Nat) (priv shown : Bool) (dies quad : Nat) (h : s.objs = []) :
    (s.spawn asid r prio depth group priv shown dies quad).isSome = true := by
  have := newObj_isSome s asid (.wave s.ticket false shown) h
  unfold State.spawn
  dsimp only
  split
  · next e => rw [e] at this; cases this
  · rfl

theorem spawn_none (s : State) (asid n : Nat) (r : SpawnRec) (prio depth : Nat) (group : Option Nat) (priv shown : Bool) (dies quad : Nat) (h : s.objs = table n)
    (hn : tableSize - 1 ≤ n) : s.spawn asid r prio depth group priv shown dies quad = none := by
  simp [State.spawn, newObj_none s _ n _ h hn]

/-- A head that is a WAVE task: its spawn record sound and not, with cores and without, with room in the object table and none. -/
theorem witness_WavesDispatched :
    let ev := Event.taskDispatch 0
    let acc := engAcc 0 true
    let rec_ := natLe 128 (1 + 2 * 2 ^ 8 + 0x802 * 2 ^ 96)
    let s (entry : Nat) : State := readyIn (mem (rec_ ++ natLe 64 entry) (lane true [])) task ev
    let ran (s : State) : State := s.asEngine (.dispatch 0) 6
    let rd (s : State) := okOr ((ran s).taskRead acc 0x20000 128 []) ([], [], State.reset)
    let sp (s : State) := okOr ((rd s).2.2.engRead acc 0x20080 64 (rd s).2.1) ([], [], State.reset)
    let none_ : State := { s 0x20000 with harvest := [0, 0, 0, 0, 0, 0] }
    isOk ((ran (s 0x20000)).taskRead acc 0x20000 128 []) = true ∧ (rd (s 0x20000)).1 = rec_ ∧ bitsOf (leNat rec_) 3 0 = 1 ∧ bitsOf (leNat rec_) 146 96 * 64 = 0x20080 ∧
    isOk ((rd (s 0x20000)).2.2.engRead acc 0x20080 64 (rd (s 0x20000)).2.1) = true ∧ (SpawnRec.ofBytes (sp (s 1)).1).ok = false ∧
    (SpawnRec.ofBytes (sp (s 0x20000)).1).ok = true ∧ (rd (s 0x20000)).2.2.coreCount 0 ≠ 0 ∧ (rd none_).2.2.coreCount 0 = 0 ∧
    isOk ((rd (s 0x20000)).2.2.writeState acc 0x20000 0 3) = true := by
  decide +kernel

theorem witness_WaveSpawns (s : State) (n asid : Nat) (r : SpawnRec) (prio depth : Nat) (group : Option Nat) (priv shown : Bool) (dies quad : Nat)
    (hn : tableSize - 1 ≤ n) :
    (({ s with objs := [] } : State).spawn asid r prio depth group priv shown dies quad).isSome = true ∧
    ({ s with objs := table n } : State).spawn asid r prio depth group priv shown dies quad = none :=
  ⟨spawn_isSome _ _ _ _ _ _ _ _ _ _ rfl, spawn_none _ _ _ _ _ _ _ _ _ _ _ rfl hn⟩

/-- A KILNOP record of output tiles of one element: NLOOPS 2, with K steps of k, and bounds. -/
def slabRec (k steps tiles : Nat) : List Byte :=
  natLe 128 (2 * 2 ^ 8 + 2 * 2 ^ 16 + (1 + 1 * 2 ^ 9 + k * 2 ^ 18) * 2 ^ 204 + steps * 2 ^ 240 + tiles * 2 ^ 256)

/-- A task on core 0's Kiln with a tensor that its entries name. -/
def onKiln (rec_ : List Byte) (f : Tensor → Tensor) (step : Nat) (i : Event) : State × KilnRun :=
  let s := ready 0 i
  let e := f (okOr (s.readTensor 0 0 true []) (Tensor.none, [])).1
  let k : KilnRun := { KilnRun.begin task rec_ e e e [0, 0, 0, 0] with step := step }
  ({ s with cores := [(0, { CoreState.reset with kiln := some k })] }, k)

/-- The slabs of a task: the first of two of a K step, the last, narrow ones whose residues check and do not, elements that fault, no steps left. -/
theorem witness_KilnTasksRun :
    let ev := Event.wheelSlab 0
    let x := onKiln (slabRec 16 1 1) id 0 ev
    let narrow := onKiln (slabRec 16 1 1) (fun e => { e with fmt := 3 }) 0 ev
    let bad := onKiln (slabRec 16 1 1) (fun e => { e with live := 0x40000 }) 0 ev
    let me := Client.kiln 0
    let acc := engAcc 0 true
    let ran (y : State × KilnRun) : State := y.1.asEngine me 0
    let xs (y : State × KilnRun) := okOr ((ran y).readElems acc y.2.a y.2.a.live (cellsOf 0 0 1 16) []) ([], [], State.reset)
    let both (y : State × KilnRun) : Bool := isOk ((ran y).readElems acc y.2.a y.2.a.live (cellsOf 0 0 1 16) []) &&
      isOk ((xs y).2.2.readElems acc y.2.b y.2.b.live (cellsOf 0 0 16 1) (xs y).2.1)
    (x.1.core 0).kiln = some x.2 ∧ x.1.fabric.out = [] ∧ x.1.input = some ev ∧ x.2.step < taskBound (slabRec 16 1 1) 0 ∧ tileOrigin (slabRec 16 1 1) [0, 0, 0, 0] = (0, 0) ∧
    (taskM (slabRec 16 1 1) = 1 ∧ taskN (slabRec 16 1 1) = 1 ∧ taskK (slabRec 16 1 1) ≤ 16 * (0 + 1) ∧ 16 * (0 + 1) < taskK (slabRec 32 1 1)) ∧
    both x = true ∧ both narrow = true ∧ x.2.a.fmt ≤ 2 ∧ narrow.2.a.fmt = 3 ∧
    (∀ r ∈ (narrow.2.addSlab 1 (List.replicate 16 0) (List.replicate 16 0)).residues, residueOk r = true) ∧
    (∃ r ∈ ({ narrow.2 with residues := [2 ^ 25] }.addSlab 1 (List.replicate 16 0) (List.replicate 16 0)).residues, residueOk r = false) ∧
    (match (ran bad).readElems acc bad.2.a bad.2.a.live (cellsOf 0 0 1 16) [] with | .error e => e.cause | .ok _ => 0) ≠ 0 ∧
    taskBound (slabRec 16 1 1) 0 ≤ (onKiln (slabRec 16 1 1) id 1 ev).2.step := by
  decide +kernel

/-- The drains of a task's tiles: one that is followed by another, the last, one outside its tensor, one whose page does not translate. -/
theorem witness_TilesDrained :
    let ev := Event.taskTileDrain 0
    let x := onKiln (slabRec 16 1 2) id 1 ev
    let bad := onKiln (slabRec 16 1 1) (fun e => { e with live := 0x40000 }) 1 ev
    let acc := engAcc 0 true
    let ran (y : State × KilnRun) : State := y.1.asEngine (.kiln 0) 0
    let vs := okOr ((ran x).taskValues x.2 0 0 []) ([], [])
    x.1.input = some ev ∧ taskBound (slabRec 16 1 2) 0 ≤ x.2.step ∧ tileOrigin (slabRec 16 1 2) x.2.tile = (0, 0) ∧ (ran x).taskPages x.2 0 0 = none ∧
    isOk ((ran x).taskValues x.2 0 0 []) = true ∧ ((ran x).drainTensor { acc with write := true } x.2.c false 0 0 1 vs.1 vs.2).2 = none ∧
    bitOf (leNat (slabRec 16 1 2)) 26 = false ∧ nextTile (slabRec 16 1 2) x.2.tile = some [1, 0, 0, 0] ∧ nextTile (slabRec 16 1 1) x.2.tile = none ∧
    (match (ran bad).taskPages bad.2 0 0 with | some e => e.cause | none => 0) ≠ 0 ∧
    (tileOrigin (natLe 128 (leNat (slabRec 16 1 2) + 0xFFFF * 2 ^ 272)) [1, 0, 0, 0]).1 < 0 := by
  decide +kernel

/-- A record whose first successor is the record at 0x20080. -/
def doneRec : List Byte := natLe 128 (2 * 2 ^ 8 + 0x401 * 2 ^ 805)

/-- A task that has ended, at each stage of its completion; successors that are named and are not, with a COUNT that reaches 0 and that does not. -/
theorem witness_TasksComplete :
    let ev := Event.taskComplete 0 0
    let run (st stage : Nat) : Running := { task := task, core := some 0, wave := none, record := doneRec, outcome := some (st, 0, 0, 0), iters := [], stage := stage }
    let s (count : Nat) (r : Running) : State :=
      { readyIn (mem (doneRec ++ natLe 64 (count * 2 ^ 32)) (lane true [])) task ev with setters := Setter.mk [] [] [r] 1 :: List.replicate 5 Setter.reset }
    let ran (s : State) : State := s.asEngine (.task 0 0x20000) 6
    let acc := engAcc 0 true
    let g := okOr ((s 2 (run 4 2)).translate { acc with write := true } 0x20080) (Target.mk .info 0 none)
    (s 2 (run 5 0)).input = some ev ∧ ((s 2 (run 5 0)).setter 0).running[0]? = some (run 5 0) ∧ (s 2 (run 5 0)).fabric.out = [] ∧
    isOk ((ran (s 2 (run 5 0))).writeFault (run 5 0) 0 0 0) = true ∧ isOk ((ran (s 2 (run 4 1))).writeState acc 0x20000 0 4) = true ∧
    isOk ((ran (s 2 (run 4 2))).successor task doneRec 0 []) = true ∧ successorVa doneRec 0 = 0x20080 ∧ successorVa doneRec 1 = 0 ∧
    isOk ((s 2 (run 4 2)).translate { acc with write := true } 0x20080) = true ∧ g.kind = .hbm ∧ localOf g.pa + 8 ≤ hbmEnd ∧ (s 2 (run 4 2)).reachable g = true ∧
    (s 2 (run 4 2)).poisoned (localOf g.pa) 8 = false ∧ (s 2 (run 4 2)).hostFault (localOf g.pa) = none ∧
    (({ s 2 (run 4 2) with setters := [Setter.mk [] [{ task with va := 0x20080, pa := localOf g.pa }] [run 4 2] 1] } : State).armedTask 0 g.place).isSome = true ∧
    (s 2 (run 4 2)).armedTask 0 g.place = none ∧ ((s 2 (run 4 6)).setter 0).running[0]? = some (run 4 6) := by
  decide +kernel

/-- The package with a record at the page and objects. -/
def world (bs : List Byte) (os : Sparse Obj) (ln : Lane) : State := { mem bs ln with objs := os }

/-- Types 0 and 10, 1, and those between with a record: a port's, one that is none, a multicast group's with its member; room for the object and none. -/
theorem witness_ObjectsMade :
    let ln := lane true (at_ [(1, 2), (4, 6), (5, 1), (6, 0x20020), (7, 0), (8, 10)])
    let good := natLe 64 (2 ^ 16)
    let group := natLe 64 (0x20040 * 2 ^ 64) ++ natLe 16 (0x20000 + 4 * 2 ^ 64)
    let s (bs : List Byte) : State := warm (mem bs ln) CoreState.reset
    let full : State := warm (crowded (mem good ln)) CoreState.reset
    let v (bs : List Byte) : Nat := leNat (zread (mem bs ln).mem 0x106000 64)
    let acc := laneAcc (wave ln) ln false
    Calls (s good) foc (wave ln) 0 ln codeBlock ∧ ((s good).newObj 0 (.waitset [])).isSome = true ∧ full.newObj 0 (.waitset []) = none ∧
    ((s good).laneRead 0 acc 0x20000 64 [] = .ok (zread (mem good ln).mem 0x106000 64, [], s good) ∧
    (s []).laneRead 0 acc 0x20000 64 [] = .ok (zread (mem [] ln).mem 0x106000 64, [], s []) ∧
    full.laneRead 0 acc 0x20000 64 [] = .ok (zread (crowded (mem good ln)).mem 0x106000 64, [], full) ∧
    (s group).laneRead 0 acc 0x20000 64 [] = .ok (zread (mem group ln).mem 0x106000 64, [], s group) ∧
    (s group).laneRead 0 acc 0x20040 16 [] = .ok (zread (mem group ln).mem 0x106040 16, [], s group)) ∧
    (readOpd (wave ln) 0 ln (.b 1)).toNat = 2 ∧ (readOpd (wave ln) 0 ln (.b 4)).toNat = 6 ∧ (readOpd (wave ln) 0 ln (.b 5)).toNat = 1 ∧
    9 < (readOpd (wave ln) 0 ln (.b 8)).toNat ∧ (readOpd (wave ln) 0 ln .z).toNat = 0 ∧ (readOpd (wave ln) 0 ln (.b 7) ++ readOpd (wave ln) 0 ln (.b 6)).toNat % 64 ≠ 0 ∧
    (({ s good with objs := [(0, obj (.wave 0 false false))] } : State).obj (wave ln).obj).body = some (.wave 0 false false) ∧
    isOk ((s good).createBody (wave ln) ln 2 (v good) []) = true ∧ isOk (full.createBody (wave ln) ln 2 (v good) []) = true ∧ isOk ((s []).createBody (wave ln) ln 2 (v []) []) = false ∧
    bitsOf (v group) 127 64 = 0x20040 ∧ 16 * (bitsOf (v group) 4 0 + 1) = 16 ∧
    isOk ((s group).createBody (wave ln) ln 6 (v group) (zread (mem group ln).mem 0x106040 16)) = true ∧
    (mem [] ln).objs.length < 65536 ∧ (mem [] ln).spaceOf 3 = none ∧ ((world [] [(5, obj (.space 3 0 0 0))] ln).spaceOf 3).isSome = true :=
  ⟨⟨⟨⟨rfl, rfl, rfl, rfl⟩, rfl, rfl⟩, by decide +kernel, by decide +kernel⟩, newObj_isSome _ _ _ rfl,
    newObj_none _ _ tableSize _ (crowded_objs ..) (by decide), by and_intros <;> exact reads _ _ _ _ _ _ (by decide +kernel), by decide +kernel⟩

/-- A live handle of each kind and dead ones; a slot of a grant window mapped, and none; accesses that were translated before, and none; the lane that waited for them. -/
theorem witness_ObjectsClosed :
    let ln := lane true (at_ [(4, handleWord 2 0 1), (5, 0x80000001)])
    let g := GrantSlot.mk (Frame.mk 0x107000 0) true
    let p : Port := { port false 4 with gwSlots := 2, slots := [(1, g)] }
    let os := [(1, obj (.port p)), (2, obj (.ref 0 (handleWord 2 0 1) false)), (3, obj (.waitset [])), (4, obj (.timer 0 none 0)),
      (5, obj (.space 3 0 0 0)), (6, obj (.mcgroup [])), (7, obj (.stream (StreamObj.mk 1 [] none))), (8, obj (.taskq 0 1 0)), (9, obj (.pipegroup false none []))]
    let s : State := world [] os ln
    let old : State := { s with cores := [(0, { CoreState.reset with copies := [{ flight 3 with asid := 0 }] })], ctxs := [(0, { s.ctx 0 with gen := 5 })] }
    let grouped : State := { s with waves := [(0, { wave ln with group := some 9 })] }
    let held : Lane := { ln with wait := some (waiting (.advance (some 0) 1) (some 0) (frameBytes [g.frame])) }
    Calls s foc (wave ln) 0 ln codeBlock ∧ CallsAgain (solo held) foc (wave held) 0 held codeBlock (waiting (.advance (some 0) 1) (some 0) (frameBytes [g.frame])) ∧ s.live 0 0 = none ∧
    s.live (handleWord 2 0 1) 0 = some (1, .port p) ∧ s.live (handleWord 2 0 2) 0 = some (2, .ref s.pkgid (handleWord 2 0 1) false) ∧
    (∀ i, i < 10 → 3 ≤ i → (s.live (handleWord i 0 i) 0).isSome = true) ∧ s.groupHas 9 (handleWord 9 0 9) = false ∧ grouped.groupHas 9 (handleWord 9 0 9) = true ∧
    (s.waves.any (fun e => e.2.asid == 3 && e.2.onCore) || s.objs.any (fun e => e.2.asid == 3 && e.2.body.isSome && e.1 != 5)) = false ∧
    ((readOpd (wave ln) 0 ln (.b 5)).toNat = 2 ^ 31 + wbits (readOpd (wave ln) 0 ln (.b 5)) 9 0 ∧ wbits (readOpd (wave ln) 0 ln (.b 5)) 9 0 = 1 ∧ 1 < p.gwSlots ∧
      sget p.slots 1 = some g ∧ g.mapped = true ∧ sget p.slots 0 = none) ∧
    (let u := s.closePort 1 p; u.olderAccess (some 0) (u.ctx 0).gen = false) ∧ (let u := old.closePort 1 p; u.olderAccess (some 0) (u.ctx 0).gen = true) ∧
    (let u := (s.releaseGrant 0 p 1 g).setPort 1 { p with slots := [] }; u.olderAccess (some 0) (u.ctx 0).gen = false) ∧
    (let u := (old.releaseGrant 0 p 1 g).setPort 1 { p with slots := [] }; u.olderAccess (some 0) (u.ctx 0).gen = true) :=
  ⟨⟨⟨⟨rfl, rfl, rfl, rfl⟩, rfl, rfl⟩, by decide +kernel, by decide +kernel⟩, ⟨⟨rfl, rfl, rfl, rfl⟩, by decide +kernel, by decide +kernel⟩, by decide +kernel⟩

/-- A spawn record, a bad one, depths 7 and 8, a part with and without a core, room for the wave and none, a wave of a pipeline group. -/
theorem witness_WavesSpawned :
    let ln := lane true (at_ [(4, 0x20020), (5, 0)])
    let s (bs : List Byte) : State := warm (mem bs ln) CoreState.reset
    let full : State := warm (crowded (mem (natLe 64 0x20000) ln)) CoreState.reset
    let acc := laneAcc (wave ln) ln false
    Calls (s []) foc (wave ln) 0 ln codeBlock ∧ (s (natLe 64 0x20000)).laneRead 0 acc 0x20000 64 [] = .ok (zread (mem (natLe 64 0x20000) ln).mem 0x106000 64, [], s (natLe 64 0x20000)) ∧
    (s (natLe 64 0x20001)).laneRead 0 acc 0x20000 64 [] = .ok (zread (mem (natLe 64 0x20001) ln).mem 0x106000 64, [], s (natLe 64 0x20001)) ∧
    full.laneRead 0 acc 0x20000 64 [] = .ok (zread (crowded (mem (natLe 64 0x20000) ln)).mem 0x106000 64, [], full) ∧
    (∀ r prio depth group priv shown dies quad, (s (natLe 64 0x20000)).spawn 0 r prio depth group priv shown dies quad ≠ none ∧
      full.spawn 0 r prio depth group priv shown dies quad = none) ∧
    (readOpd (wave ln) 0 ln (.b 5) ++ readOpd (wave ln) 0 ln (.b 4)).toNat % 64 ≠ 0 ∧
    (SpawnRec.ofBytes (zread (mem (natLe 64 0x20000) ln).mem 0x106000 64)).ok = true ∧ (SpawnRec.ofBytes (zread (mem (natLe 64 0x20001) ln).mem 0x106000 64)).ok = false ∧
    (wave ln).depth < 8 ∧ (s (natLe 64 0x20000)).anyCore 1 = true ∧ (s (natLe 64 0x20000)).anyCore 0 = false ∧ (wave ln).group = none ∧
    ({ wave ln with depth := 8 } : Wave).depth = 8 ∧ ({ wave ln with group := some 9 } : Wave).group = some 9 :=
  ⟨⟨⟨⟨rfl, rfl, rfl, rfl⟩, rfl, rfl⟩, by decide +kernel, by decide +kernel⟩, reads _ _ _ _ _ _ (by decide +kernel), reads _ _ _ _ _ _ (by decide +kernel), reads _ _ _ _ _ _ (by decide +kernel),
    fun _ _ _ _ _ _ _ _ => ⟨Option.isSome_iff_ne_none.mp (spawn_isSome _ _ _ _ _ _ _ _ _ _ rfl), spawn_none _ _ tableSize _ _ _ _ _ _ _ _ (crowded_objs ..) (by decide)⟩,
    by decide +kernel⟩

/-- A message that no lane takes. -/
def note (grants : List (Nat × Frame)) : Msg := { source := 7, tag := 8, bytes := [1], grants := grants }

/-- A read of no bytes. -/
theorem reads_none (s : State) (core : Nat) (a : Acc) (va : Nat) (rem : List Byte) : s.laneRead core a va 0 rem = .ok ([], rem, s) := rfl

/-- Ports with room and full, closed, away, in matched mode; records inline, by reference, granting, and too long; a lane of the wave that
waits for the port's room before this one; lanes that their sends have released, and one that takes a wait up. -/
theorem witness_MessagesSent :
    let ln := lane true (at_ [(4, handleWord 2 0 1), (6, 0x20020), (7, 0)])
    let h := handleWord 2 0 1
    let p : Port := { port false 2 with queue := [note []] }
    let s (v : Nat) (b : Body) : State := warm (world (natLe 64 v) [(1, obj b)] ln) CoreState.reset
    let rd (v : Nat) (b : Body) : Prop :=
      (s v b).laneRead 0 (laneAcc (wave ln) ln false) 0x20000 64 [] = .ok (zread (world (natLe 64 v) [(1, obj b)] ln).mem 0x106000 64, [], s v b)
    let r (v : Nat) : SendRec := SendRec.ofBytes (zread (mem (natLe 64 v) ln).mem 0x106000 64)
    let held (k : WaitKind) (bs : List Byte) : Lane := { lane true [] with wait := some (waiting k (some 0) bs) }
    let parts : State := { solo (held (.advance none 1) (natLe 8 5)) with objs := [(1, obj (.port p))], arriving := [Arriving.mk 0 5 1 (note [])] }
    let q := Parked.mk ln.pc false (waiting (.send 3) none [])
    let parked : Lane := { ln with parked := [q] }
    let first : Wave := { wave ln with lanes := [(0, ln), (3, { ln with wait := some (waiting (.room 1) none []) })] }
    Calls (s 0 (.port p)) foc (wave ln) 0 ln codeBlock ∧ CallsAgain (solo (held (.send 3) [])) foc (wave (held (.send 3) [])) 0 (held (.send 3) []) codeBlock (waiting (.send 3) (some 0) []) ∧
    CallsAgain parts foc (wave (held (.advance none 1) (natLe 8 5))) 0 (held (.advance none 1) (natLe 8 5)) codeBlock (waiting (.advance none 1) (some 0) (natLe 8 5)) ∧
    Calls (solo parked) foc (wave parked) 0 parked codeBlock ∧ Single { s 0 (.port p) with waves := [(0, first)] } foc first 0 ln ∧
    (rd (2 ^ 66) (.port p) ∧ rd (2 ^ 66) (.port (port false 0)) ∧ rd (2 ^ 66) (.ref 1 h false) ∧ rd (2 ^ 66) (.ref 0 (handleWord 2 0 9) false) ∧
    rd (2 ^ 76) (.port p) ∧ rd (5 * 2 ^ 73) (.port p) ∧ rd (4 * 2 ^ 73) (.port (port true 2)) ∧
    (s (2 ^ 66) (.port p)).laneRead 0 (laneAcc (wave ln) ln false) (0x20000 + 64) 4 [] =
      .ok (zread (world (natLe 64 (2 ^ 66)) [(1, obj (.port p))] ln).mem 0x106040 4, [], s (2 ^ 66) (.port p))) ∧
    ln.takenUp = none ∧ (readOpd (wave ln) 0 ln (.b 7) ++ readOpd (wave ln) 0 ln (.b 6)).toNat % 64 ≠ 0 ∧
    (s 0 (.port p)).portOf h 0 = some (.here 1 p) ∧ (s 0 (.port p)).portOf 0 0 = none ∧ (s 0 (.ref 1 h false)).portOf h 0 = some (.away 1 h) ∧
    (s 0 (.ref 0 (handleWord 2 0 9) false)).portOf h 0 = some .closed ∧ ((r (2 ^ 66)).inLen = 4 ∧ (r (2 ^ 66)).byRef = false ∧ (r (2 ^ 66)).nGrant = 0) ∧
    ((r (2 ^ 76)).byRef = true ∧ (r (2 ^ 76)).inLen = 0 ∧ (r (2 ^ 76)).nGrant = 0) ∧ ((r (4 * 2 ^ 73)).nGrant = 4 ∧ (r (4 * 2 ^ 73)).inLen = 0) ∧ ¬ (r (5 * 2 ^ 73)).nGrant ≤ 4 ∧
    p.matched = false ∧ (port true 2).matched = true ∧ (s 0 (.port p)).queueLen 1 p < p.capacity ∧ (port false 0).capacity ≤ (s 0 (.port p)).queueLen 1 (port false 0) ∧
    (wave ln).sendsBefore 1 0 ln = false ∧ first.sendsBefore 1 0 ln = true ∧
    (parts.arriving.find? (fun x => x.pkg == parts.pkgid && x.seq == leNat ((natLe 8 5).take 8))).isSome = true ∧ parts.portIdx 1 = some p ∧
    parked.parked.find? (fun q => q.pc == parked.pc && q.inTrap == parked.inTrap) = some q :=
  ⟨⟨⟨⟨rfl, rfl, rfl, rfl⟩, rfl, rfl⟩, by decide +kernel, by decide +kernel⟩, ⟨⟨rfl, rfl, rfl, rfl⟩, by decide +kernel, by decide +kernel⟩,
    ⟨⟨rfl, rfl, rfl, rfl⟩, by decide +kernel, by decide +kernel⟩, ⟨⟨⟨rfl, rfl, rfl, rfl⟩, rfl, rfl⟩, by decide +kernel, by decide +kernel⟩, ⟨⟨rfl, rfl, rfl, rfl⟩, rfl, rfl⟩,
    by and_intros <;> exact reads _ _ _ _ _ _ (by decide +kernel), by decide +kernel⟩

/-- A queue with a message and an empty one, with senders and without; a buffer that can be written, and one that cannot. -/
theorem witness_MessagesReceived :
    let ln := lane true (at_ [(4, handleWord 2 0 1), (6, 0x20020), (7, 0)])
    let h := handleWord 2 0 1
    let p : Port := { port false 2 with queue := [note []] }
    let s (b : Body) : State := world [] [(1, obj b)] ln
    let taking : State := { s (.port p) with waves := [(0, wave ln), (1, wave { ln with wait := some (waiting (.remote 4) none []) })] }
    Calls (s (.port p)) foc (wave ln) 0 ln codeBlock ∧ (s (.port p)).portOf 0 0 = none ∧
    (s (.port p)).portOf h 0 = some (.here 1 p) ∧ (s (.port (port false 2))).portOf h 0 = some (.here 1 (port false 2)) ∧
    (s (.ref 1 h false)).portOf h 0 = some (.away 1 h) ∧ (s (.ref 0 (handleWord 2 0 9) false)).portOf h 0 = some .closed ∧
    (readOpd (wave ln) 0 ln (.b 3) ++ readOpd (wave ln) 0 ln (.b 2)).toNat % 64 = 0 ∧ (readOpd (wave ln) 0 ln (.b 7) ++ readOpd (wave ln) 0 ln (.b 6)).toNat % 64 ≠ 0 ∧
    taking.msgHeld { note [] with taker := some (1, 0) } = true ∧ (s (.port p)).waiters (fun k => k == .port 1) = [] ∧ (note []).grants = [] ∧ (s (.port p)).msgHeld (note []) = false ∧
    (port false 2).queue = [] ∧ (port false 2).hadSenders = false ∧ ({ port false 2 with hadSenders := true } : Port).senders = 0 ∧
    (((s (.port p)).withAcks ln).engWrite (laneAcc (wave ln) ln true) 0x20000 (msgHeader p (note []) ++ [1])).2 = none ∧
    ((((s (.port p)).withAcks ln).engWrite (laneAcc (wave ln) ln true) 0x40000 (msgHeader p (note []) ++ [1])).2.map Trap.cause) = some 0x10 :=
  ⟨⟨⟨⟨rfl, rfl, rfl, rfl⟩, rfl, rfl⟩, by decide +kernel, by decide +kernel⟩, by decide +kernel⟩

/-- Sets that hold an object, are full, and are empty; a set with a signalled slot; timers due and not, with and without a period; waits that ended. -/
theorem witness_WaitSetsAndTimers :
    let ln := lane true [(1, handleWord 3 0 1), (2, handleWord 4 0 2), (3, 9)]
    let s (x : Sparse (Word × Word)) (n : Nat) : State := world [] [(1, obj (.waitset x)), (2, obj (.timer 5 none n))] ln
    let held : Sparse (Word × Word) := [(0, (handleWord 4 0 2, 9))]
    let full : Sparse (Word × Word) := (List.range 64).map (fun i => (i, (0, 0)))
    let waits : Lane := { ln with wait := some (waiting (.waitSet 1 (some 7)) none []) }
    let ended (st : Nat) : Lane := { ln with wait := some (waiting (.waitSet 1 none) (some st) []) }
    Calls (s [] 0) foc (wave ln) 0 ln codeBlock ∧ CallsAgain (solo (ended 6)) foc (wave (ended 6)) 0 (ended 6) codeBlock (waiting (.waitSet 1 none) (some 6) []) ∧
    CallsAgain (solo (ended 7)) foc (wave (ended 7)) 0 (ended 7) codeBlock (waiting (.waitSet 1 none) (some 7) []) ∧ (s [] 0).live (handleWord 3 0 1) 0 = some (1, .waitset []) ∧ (s [] 0).live 0 0 = none ∧
    (s [] 0).live (handleWord 4 0 2) 0 = some (2, .timer 5 none 0) ∧ held.any (fun e => e.2.1 == handleWord 4 0 2) = true ∧ firstFree (skeys held) 0 64 = some 1 ∧
    firstFree (skeys full) 0 64 = none ∧ (s held 1).lowestSignalled 1 ln = some (2, 9) ∧ (s held 0).lowestSignalled 1 ln = none ∧
    (s [] 0).time < ((9#32) ++ handleWord 4 0 2).toNat ∧ (0#64).toNat ≤ (s [] 0).time ∧ ln.wait = none ∧
    ({ s [] 0 with waves := [(0, wave waits)], input := some (.kwaitTimeout 0 0) } : State).lane 0 0 = some waits ∧
    (given (.timerExpiry 2) { s [] 0 with objs := [(2, obj (.timer 5 (some 0) 0))] }).input = some (.timerExpiry 2) ∧ bodyType (Body.mcgroup []) = 6 ∧ bodyType (Body.taskq 0 0 0) = 8 :=
  ⟨⟨⟨⟨rfl, rfl, rfl, rfl⟩, rfl, rfl⟩, by decide +kernel, by decide +kernel⟩, ⟨⟨rfl, rfl, rfl, rfl⟩, by decide +kernel, by decide +kernel⟩,
    ⟨⟨rfl, rfl, rfl, rfl⟩, by decide +kernel, by decide +kernel⟩, by decide +kernel⟩

/-- A name record of a name of one byte. -/
def nameRec (x : Byte) : List Byte := 1 :: (List.replicate 15 0 ++ x :: List.replicate 47 0)

/-- A name record, and one of no bytes; a name bound and not, homed here and not, room for a reference and none; a port with a name, without, and a reference. -/
theorem witness_NamesAndRequests :
    let ln := lane true (at_ [(4, handleWord 2 0 1)])
    let h := handleWord 2 0 1
    let n : Name := Name.mk [65] 0 h false
    let named : Port := { port false 1 with name := some [66] }
    let at0 (bs : List Byte) (os : Sparse Obj) (ns : List Name) : State := { world bs os ln with names := ns }
    let far : State := { at0 (nameRec 66) [] [] with podsize := 2 }
    let rd (s : State) : Prop := (warm s CoreState.reset).laneRead 0 (laneAcc (wave ln) ln false) 0x20000 64 [] = .ok (zread s.mem 0x106000 64, [], warm s CoreState.reset)
    let s : State := warm (at0 (nameRec 65) [(1, obj (.port (port false 1)))] [n]) CoreState.reset
    Calls s foc (wave ln) 0 ln codeBlock ∧
    (rd (at0 [] [(1, obj (.port (port false 1)))] []) ∧ rd (at0 (nameRec 65) [(1, obj (.port (port false 1)))] []) ∧ rd (at0 (nameRec 65) [(1, obj (.port (port false 1)))] [n]) ∧
      rd (at0 (nameRec 65) [(1, obj (.port named))] []) ∧ rd (at0 (nameRec 65) [(1, obj (.ref 1 h false))] []) ∧ rd (at0 (nameRec 65) [] [n]) ∧ rd far ∧ rd (crowded (at0 (nameRec 65) [] [n]))) ∧
    ((warm (at0 (nameRec 65) [] [n]) CoreState.reset).newObj 0 (.ref 0 h false)).isSome = true ∧ (warm (crowded (at0 (nameRec 65) [] [n])) CoreState.reset).newObj 0 (.ref 0 h false) = none ∧
    ln.takenUp = none ∧ nameOf (zread (at0 (nameRec 65) [] []).mem 0x106000 64) = some [65] ∧ nameOf (zread (at0 [] [] []).mem 0x106000 64) = none ∧
    nameHome s [65] = s.pkgid ∧ nameOf (zread far.mem 0x106000 64) = some [66] ∧ nameHome far [66] ≠ far.pkgid ∧ s.names.find? (fun x => x.name == [65]) = some n ∧ n.pkg = s.pkgid ∧ n.name = [65] ∧
    s.live h 0 = some (1, .port (port false 1)) ∧ (port false 1).name = none ∧ named.name.isSome = true ∧
    (at0 (nameRec 65) [(1, obj (.ref 1 h false))] []).live h 0 = some (1, .ref 1 h false) ∧ (at0 (nameRec 65) [] []).live h 0 = none :=
  ⟨⟨⟨⟨rfl, rfl, rfl, rfl⟩, rfl, rfl⟩, by decide +kernel, by decide +kernel⟩, by and_intros <;> exact reads _ _ _ _ _ _ (by decide +kernel),
    newObj_isSome _ _ _ rfl, newObj_none _ _ tableSize _ (crowded_objs ..) (by decide), by decide +kernel⟩

/-- Requests of this package whose answers have come and have not; messages of another package that come in order, again, and too early;
behind one of the same source; for ports with room, full, and none. -/
theorem witness_RequestsAnswered :
    let h := handleWord 2 0 1
    let m : PortMessage := PortMessage.mk h 7 8 [1] 1 [] false 0
    let ask (b : KmsgBody) (f : List Flit) (e : Event) : State :=
      given e { world [] [(1, obj (.port (port false 1)))] (lane true []) with
        kmsgs := [(3, { wave := 0, lane := 0, asid := 0, dest := 1, seq := 0, body := b, pages := [], port := 1, sentAt := 0 })], fabric := { Fabric.reset with released := f } }
    let got (seq cap : Nat) (b : KmsgBody) (held : List (Nat × Nat × KmsgBody)) (e : Event) : State :=
      given e { world [] [(1, obj (.port (port false cap)))] (lane true []) with
        kmsgSeen := [(1, [(5, 0), (6, 255)])], kmsgHeld := held, fabric := { Fabric.reset with released := [.kmsg 1 seq b] } }
    let r := Event.kmsgReply 3 0 9
    let d := Event.kmsgDeliver 1 7 (.message m)
    (ask (.lookup [65]) [.kmsgReply 3 0 9] r).input = some r ∧ ((ask (.lookup [65]) [.kmsgReply 3 0 9] r).takeFlit (.kmsgReply 3 0 9)).isSome = true ∧
    (sget (ask (.message m) [] r).kmsgs 3).isSome = true ∧ (ask (.message m) [] r).takeFlit (.kmsgReply 3 0 9) = none ∧
    ((ask (.bind [65] h false) [.kmsgReply 3 5 9] (.kmsgReply 3 5 9)).takeFlit (.kmsgReply 3 5 9)).isSome = true ∧ (ask (.bind [65] h false) [] r).portIdx 1 = some (port false 1) ∧
    (ask (.lookup [65]) [] (.nameTimeout 3)).input = some (.nameTimeout 3) ∧ (ask (.lookup [65]) [] (.kmsgRetransmission 3)).input = some (.kmsgRetransmission 3) ∧
    (got 7 1 (.message m) [] d).input = some d ∧ ((got 7 1 (.message m) [] d).takeFlit (.kmsg 1 7 (.message m))).isSome = true ∧
    (got 7 1 (.message m) [] d).takeFlit (.kmsg 1 8 (.message m)) = none ∧ (got 7 1 (.message m) [] d).isHeld 1 8 = false ∧
    (got 7 1 (.message m) [] d).seen 1 7 = none ∧ ((got 7 1 (.message m) [] d).seen 1 6).isSome = true ∧ (got 5 1 (.message m) [] d).seen 1 5 = some 0 ∧
    (got 6 1 (.message m) [] d).seen 1 6 = some 255 ∧ (got 6 1 (.message m) [] d).isHeld 1 6 = false ∧ (got 9 1 (.message m) [] d).seen 1 8 = none ∧
    ((got 7 1 (.message m) [] d).taken 1 7 (.message m)).heldBefore 1 7 m = false ∧
    ((got 7 1 (.message m) [(1, 6, .message m)] d).taken 1 7 (.message m)).heldBefore 1 7 m = true ∧
    (got 7 1 (.message m) [] d).entry m.port = some (1, .port (port false 1)) ∧ (got 7 1 (.message { m with port := 0 }) [] d).entry 0 = none ∧
    m.byref = false ∧ m.grants = [] ∧ (got 7 1 (.message m) [] d).queueLen 1 (port false 1) < (port false 1).capacity ∧
    (port false 0).capacity ≤ (got 7 0 (.message m) [] d).queueLen 1 (port false 0) := by
  decide +kernel

/-- Work at its first and its last unit, none, and none left; waves in and outside a group, ended and not; a cone at its last core, passive and not. -/
theorem witness_WorkAndTermination :
    let ln := lane true [(1, handleWord 3 0 1)]
    let k : Block := { codeBlock with launch := some 1, index := 3, blocks := 4, workTiles := 3, workK := 5 }
    let s (ended : Bool) (c : Option Cone) : State :=
      { world [] [(1, obj (.waitset [])), (2, obj (.pipegroup ended c []))] ln with blocks := [(0, k)], waves := [(0, { wave ln with group := some 2 })] }
    let c := Cone.mk [0] 0 false
    let idle : Lane := { ln with wait := some (waiting (.idle 1 2) (some 1) []) }
    let at_ : Lane := { ln with wait := some (waiting (.idle 1 2) none []) }
    let p : State := given (.conePass 2) { s false (some c) with waves := [(0, { wave at_ with group := some 2 })] }
    Calls (s false none) foc { wave ln with group := some 2 } 0 ln k ∧ CallsAgain (solo idle) foc (wave idle) 0 idle codeBlock (waiting (.idle 1 2) (some 1) []) ∧
    Single (retraining (solo ln)) foc (wave ln) 0 ln ∧ (retraining (solo ln)).reach 0 6 = false ∧ k.launch.isSome = true ∧
    (3 * 15 / 4 + 0 < 4 * 15 / 4 ∧ 4 * 15 / 4 ≤ 3 * 15 / 4 + 4) ∧ codeBlock.launch = none ∧ (s false none).live (handleWord 3 0 1) 0 = some (1, .waitset []) ∧
    (wave ln).group = none ∧ ((s true none).obj 2).body = some (.pipegroup true none []) ∧ (s false none).anySignalled 1 = false ∧
    (p.obj 2).body = some (.pipegroup false (some c) []) ∧ c.order[c.place]? = some 0 ∧ c.order.length ≤ c.place + 1 ∧ p.passive 2 0 = true ∧ (s false none).passive 2 0 = false ∧
    (∀ x ∈ c.order, p.passive 2 x = true) ∧ p.unplaced 2 = false :=
  ⟨⟨⟨⟨rfl, rfl, rfl, rfl⟩, rfl, rfl⟩, by decide +kernel, by decide +kernel⟩, ⟨⟨rfl, rfl, rfl, rfl⟩, by decide +kernel, by decide +kernel⟩, ⟨⟨rfl, rfl, rfl, rfl⟩, rfl, rfl⟩, by decide +kernel⟩

/-- A receive record that takes every source and tag, of 64 bytes, with a STALLUS; one of a frame, of the streams' sources. -/
def postBytes (stall : Nat) : List Byte := natLe 64 (64 * 2 ^ 288 + stall * 2 ^ 384)

def frameRec (stall map : Nat) : List Byte := natLe 64 (2 * 2 ^ 157 + 7 * 2 ^ 189 + 2 ^ 208 + stall * 2 ^ 384 + map * 2 ^ 448)

/-- A post for tensor 0. -/
def postOf (record : List Byte) (e : Tensor) : Post :=
  { asid := 0, va := 0x20000, record := record, priv := true, entry := e, since := 0, latched := none, firstT := 0, lastT := 0, taken := [], landing := none }

/-- A tensor of bytes of two dimensions, its table entry at the page. -/
def flat (live : Nat) : List Byte := natLe 64 (1 + 3 * 2 + 2 * 32 + live * 2 ^ 64 + 16 * 2 ^ 300 + 16 * 2 ^ 320 + 16 * 2 ^ 400)

/-- A message of two bytes that waits. -/
def queued (sender : Option Sender) (len : Nat) : Unexpected := Unexpected.mk 1 7 8 len [1, 2] sender 0

/-- Records that fit their tensor and one that does not, ports in each mode, away and closed, full and with room, a message that a post takes and one that it does not. -/
theorem witness_PostsAndMessages :
    let ln := lane true (at_ [(4, handleWord 2 0 1), (6, 0x20040), (7, 0), (8, 0x20020), (9, 0)])
    let h := handleWord 2 0 1
    let s0 (cap : Nat) (b : Body) (u : List Unexpected) : State :=
      { tensors (entry 0 ++ natLe 64 (cap * 2 ^ 288)) ln with objs := [(1, obj b), (5, space)], unexpected := u }
    let s (cap : Nat) (b : Body) (u : List Unexpected) : State := warm (s0 cap b u) CoreState.reset
    let rd (cap : Nat) (b : Body) (u : List Unexpected) : Prop :=
      (s cap b u).laneRead 0 (laneAcc (wave ln) ln false) 0x20040 64 [] = .ok (zread (s0 cap b u).mem 0x106040 64, [], s cap b u)
    let en := okOr ((s 64 (.port (port true 4)) []).readTensor 0 0 false []) (Tensor.none, [])
    let q (cap : Nat) : Post := { postOf (zread (s0 cap (.port (port true 4)) []).mem 0x106040 64) en.1 with va := 0x20040 }
    let full : Port := { port true 4 with queue := List.replicate 4096 (note []) }
    Calls (s 64 (.port (port true 4)) []) foc (wave ln) 0 ln codeBlock ∧
    (rd 64 (.port (port true 4)) [] ∧ rd 65 (.port (port true 4)) [] ∧ rd 64 (.port full) [] ∧ rd 64 (.port (port false 4)) [] ∧ rd 64 (.ref 1 h true) [] ∧
      rd 64 (.ref 0 (handleWord 2 0 9) true) [] ∧ rd 64 (.port (port true 4)) [queued none 2]) ∧
    (s 64 (.port (port true 4)) []).portOf h 0 = some (.here 1 (port true 4)) ∧
    (s 64 (.port (port true 4)) []).portOf 0 0 = none ∧ (s 64 (.ref 1 h true) []).portOf h 0 = some (.away 1 h) ∧
    (s 64 (.ref 0 (handleWord 2 0 9) true) []).portOf h 0 = some .closed ∧ (port true 4).matched = true ∧ (port false 4).matched = false ∧
    (readOpd (wave ln) 0 ln (.b 7) ++ readOpd (wave ln) 0 ln (.b 6)).toNat = 0x20040 ∧ (readOpd (wave ln) 0 ln (.b 9) ++ readOpd (wave ln) 0 ln (.b 8)).toNat % 64 ≠ 0 ∧
    isOk ((s 64 (.port (port true 4)) []).readTensor 0 0 false []) = true ∧ (s 64 (.port (port true 4)) []).postOk 1 (q 64) = true ∧
    (s 65 (.port (port true 4)) []).postOk 1 (q 65) = false ∧ (port true 4).posts.length + (port true 4).queue.length < 4096 ∧
    (s 64 (.port (port true 4)) [queued none 2]).uq[0]? = some (queued none 2) ∧ (queued none 2).port = 1 ∧ (q 64).takes 7 8 = true ∧ (s 64 (.port (port true 4)) []).uq = [] :=
  ⟨⟨⟨⟨rfl, rfl, rfl, rfl⟩, rfl, rfl⟩, by decide +kernel, by decide +kernel⟩, by and_intros <;> exact reads _ _ _ _ _ _ (by decide +kernel), by decide +kernel⟩

theorem witness_fullPort (p : Port) (n : Nat) (h : 4096 ≤ n) : 4096 ≤ p.posts.length + ({ p with queue := List.replicate n (note []) } : Port).queue.length := by
  simp only [List.length_replicate]
  omega

/-- Messages for a port with a post that takes them and with none, room in the unexpected queue and none; payloads that fit, are cut, and fault. -/
theorem witness_MessagesArrive :
    let ln := lane true []
    let h := handleWord 2 0 1
    let s (bs : List Byte) (m : PortMessage) (q : List Post) : State := given (.messageArrival m) { tensors bs ln with objs := [(1, obj (.port { port true 4 with posts := q })), (5, space)] }
    let m (source : Word) : PortMessage := PortMessage.mk h source 8 [1, 2] 2 [] false 0
    let q := postOf (postBytes 3) (tensor (tensors (entry 0) ln))
    let u := s (entry 0) (m 7) [q]
    let e (s : State) := okOr (s.postTensor q []) (Tensor.none, [])
    u.input = some (.messageArrival (m 7)) ∧ u.entry h = some (1, .port { port true 4 with posts := [q] }) ∧ (port true 4).matched = true ∧ wbits (0x40000000#32) 31 29 = 2 ∧
    wbits (7#32) 31 29 ≠ 2 ∧ [q].findIdx? (fun x => x.takes 7 8) = some 0 ∧ ([] : List Post).findIdx? (fun x => x.takes 7 8) = none ∧ u.uq.length < 65536 ∧
    isOk (u.postTensor q []) = true ∧ bitsOf (leNat q.record) 271 224 + min 2 (bitsOf (leNat q.record) 319 288) ≤ (e u).1.span ∧
    (e u).1.span < bitsOf (leNat (natLe 64 (64 * 2 ^ 224 + 64 * 2 ^ 288))) 271 224 + min 2 (bitsOf (leNat (natLe 64 (64 * 2 ^ 224 + 64 * 2 ^ 288))) 319 288) ∧
    (u.engWrite q.acc ((e u).1.live + bitsOf (leNat q.record) 271 224) [1, 2]).2 = none ∧
    isOk ((s (flat 0x1801) (m 7) [q]).postTensor q []) = true ∧ ((u.engWrite q.acc (e (s (flat 0x1801) (m 7) [q])).1.live [1, 2]).2.map Trap.cause) = some 0x10 := by
  decide +kernel

theorem witness_fullQueue (s : State) (n : Nat) (h : 65536 ≤ n) : 65536 ≤ ({ s with unexpected := List.replicate n (queued none 2) } : State).uq.length := by
  simpa [State.uq, queued] using h

/-- The stream of a frame of one line of two pixels, and its SRD. -/
def stream (lastDone : Option Nat) : StreamObj := StreamObj.mk 1 (natLe 64 (2 ^ 120 + 2 * 2 ^ 176 + 2 ^ 192)) lastDone

def srd (version line : Nat) : SrdPacket :=
  { eth := 0, group := 0, srcIp := 0, udpPort := 0, sumOk := true, version := version, pt := 0, ssrc := 0, timestamp := 5, field := false, line := line, offset := 0,
    length := 5, data := [1, 2, 3, 4, 5], time := 9 }

/-- Posts with nothing to do, with a payload of each sender, with an SRD, ended before and after the bitmap; their limits of time. -/
theorem witness_PostEvents :
    let ln := lane true []
    let ev := Event.rendezvousLand 1 0
    let q := postOf (postBytes 3) (tensor (tensors (entry 0) ln))
    let s (bs : List Byte) (q : Post) (e : Event) : State := given e { tensors bs ln with objs := [(1, obj (.port { port true 4 with posts := [q] })), (5, space)] }
    let ran (s : State) : State := s.asEngine (.post 1 0) 6
    let there (k : WaitKind) : State := { (s (entry 0) q ev) with waves := [(0, wave { ln with wait := some (waiting k none []) })] }
    let fq : Post := { postOf (frameRec 3 0x20140) (tensor (tensors (flat 0x803) ln)) with latched := some (5, 0x40000002), stream := some (stream none) }
    let got : Post := { fq with srds := [(stream none, srd 2 0)] }
    let ended : Post := { fq with ending := some (Completion.bare 0) }
    let e := okOr ((ran (s (flat 0x803) got ev)).postTensor got []) (Tensor.none, [])
    let r := (Completion.bare 0).record (bitsOf (leNat q.record) 383 320)
    (s (entry 0) q ev).portIdx 1 = some { port true 4 with posts := [q] } ∧ (s (entry 0) q ev).input = some ev ∧ (s (entry 0) q ev).fabric.out = [] ∧
    (q.ending = none ∧ q.landing = none ∧ q.srds = [] ∧ q.closing = false) ∧ (queued (some (.away 2 3)) 9).bytes.length ≠ (queued (some (.away 2 3)) 9).len ∧
    (ran (s (entry 0) q ev)).senderThere (.lane 0 0 3 0x20000) = false ∧ (ran (there (.send 3))).senderThere (.lane 0 0 3 0x20000) = true ∧
    isOk ((ran (there (.send 3))).payload (queued (some (.lane 0 0 3 0x20000)) 2) []) = true ∧
    isOk ((ran (s (entry 0) q ev)).payload (queued none 2) []) = true ∧ isOk ((ran (s (entry 0) q ev)).land q 7 8 [1, 2] 0 []) = true ∧
    isOk ((ran (s (flat 0x803) got ev)).postTensor got []) = true ∧ ((ran (s (flat 0x803) got ev)).engWrites got.acc ((stream none).placement e.1 got (srd 2 0))).2 = none ∧
    ((stream none).linesDone [(0, (stream none).startByte (srd 2 0), 5)]).length = (stream none).height ∧ ((stream none).linesDone []).length ≠ (stream none).height ∧
    ((ran (s (flat 0x803) ended ev)).bitmapOf 1 ended).isSome = true ∧
    (match (ran (s (flat 0x803) ended ev)).bitmapOf 1 ended with | some x => ((ran (s (flat 0x803) ended ev)).engWrite ended.acc x.1 x.2).2.isNone | none => false) = true ∧
    (ran (s (entry 0) q ev)).bitmapOf 1 { q with ending := some (Completion.bare 0) } = none ∧
    ((ran (s (entry 0) q ev)).engWrite q.acc 0x20000 r).2 = none ∧ ((ran (s (entry 0) q ev)).engWrite q.acc 0x40000 r).2.map Trap.cause = some 0x10 ∧
    (s (entry 0) q (.postTimeout 1 0)).input = some (.postTimeout 1 0) ∧ q.frame = false ∧ bitsOf (leNat q.record) 415 384 ≠ 0 ∧ q.live = true ∧ fq.frame = true ∧
    bitsOf (leNat fq.record) 415 384 ≠ 0 ∧ fq.ending = none ∧ (s (entry 0) q (.frameStall 1 0)).input = some (.frameStall 1 0) := by
  decide +kernel

/-- Ethernet accepted and not; a message whose header holds, and ones that are short, too long, for another port number; a frame post that takes an
SRD, a stream that refuses one, a packet of no stream; a lock. -/
theorem witness_EthernetReceives :
    let ln := lane true []
    let b : Bringup := { Bringup.reset with drvaccept := 4, accepted := true }
    let m (len : Nat) : List Byte := natLe 24 (0x54484D31 + (handleWord 2 0 1).toNat * 2 ^ 32 + len * 2 ^ 96)
    let fq : Post := postOf (frameRec 3 0) (tensor (tensors (flat 0x803) ln))
    let s (p : Port) (t : StreamObj) (e : Event) : State :=
      given e { tensors (flat 0x803) ln with bringup := b, objs := [(0, obj (.stream t)), (1, obj (.port p))] }
    let p (eth : Bool) (q : List Post) : Port := { port true 4 with eth := eth, posts := q }
    let u := s (p true [fq]) (stream none) (.srdReceive (srd 2 0))
    (b.accepted = true ∧ bitOf b.drvaccept 2 = true) ∧ ¬ (State.reset.bringup.accepted = true) ∧ (m 0).length = 24 ∧ bitsOf (leNat ((m 0).take 24)) 31 0 = 0x54484D31 ∧
    bitsOf (leNat ((m 4097).take 24)) 127 96 = 4097 ∧ bitsOf (leNat ((m 1).take 24)) 127 96 + 24 ≠ (m 1).length ∧ (0xFFFF#16).toNat ≠ State.reset.ethMsgUdp ∧
    u.entry (BitVec.ofNat 32 (bitsOf (leNat ((m 0).take 24)) 63 32)) = some (1, .port (p true [fq])) ∧ (p true []).matched = true ∧ (p true []).eth = true ∧ (p false []).eth = false ∧
    (postOf (postBytes 3) Tensor.none).takes (BitVec.ofNat 32 (2 ^ 29 + bitsOf (leNat ((m 0).take 24)) 92 64)) (bitsOf (leNat ((m 0).take 24)) 191 128) = true ∧
    u.input = some (.srdReceive (srd 2 0)) ∧ (stream none).accepts (srd 2 0) = true ∧ (stream none).accepts (srd 1 0) = false ∧ { srd 2 0 with sumOk := false }.sumOk = false ∧
    u.portIdx 1 = some (p true [fq]) ∧ (stream (some 5)).refuses (srd 2 0) = true ∧ (stream none).refuses (srd 2 1) = true ∧ (stream none).refuses (srd 2 0) = false ∧
    fq.takes (streamWord 0) (5 * 2 ^ 32 + 0) = true ∧ ({ u with time := max u.time 9 } : State).fitsNow fq (stream none) = true ∧ fq.latched = none ∧
    State.reset.ptpEver = false := by
  decide +kernel

/-- Rates accepted and refused; training that ends either way; spares left and gone, in one direction and both; a window that is full and not, at and
over its limit; a reset whose links train, and have trained; a line to scrub. -/
theorem witness_DieLinks :
    let s := State.reset
    let up : LinkRegs := { LinkRegs.reset with busy := true, trying := 36 }
    let used : LinkRegs := { LinkRegs.reset with spares := List.replicate 16 4, widths := 2 :: 2 :: List.replicate 14 3 }
    let full : LinkRegs := { LinkRegs.reset with flits := 2 ^ 24, window := 17, autofb := true, cur := 36, replayMax := 16 }
    let half : State := { s with linkCtl := { LinkCtl.reset with resetDie := some 5 } }
    s.links.length = 12 ∧ (s.link 11).down = false ∧ wbits (32#32) 7 0 = 32 ∧ (s.link 11).busy = false ∧ ¬ (wbits (33#32) 7 0 = 32) ∧
    (up.busy = true ∧ 36 ≤ up.trying ∧ up.announce = false ∧ up.dead = false ∧ ¬ 36 ≤ { up with trying := 32 }.trying ∧
      { up with widths := List.replicate 16 3 }.dead = true) ∧
    ((s.link 0).widths.length = 16 ∧ (s.link 0).retired.length = 8 ∧ (s.link 0).spares.length = 16 ∧ (s.link 0).moduleWidth 7 ≠ 3 ∧ (s.link 0).widths.getD 15 3 < 2 ∧
      (s.link 0).spares.getD 15 0 < 4) ∧
    (4 ≤ used.spares.getD 0 0 ∧ 2 ≤ used.widths.getD 0 3 ∧ used.moduleWidth 0 ≠ 3 ∧ (∀ n, n < 8 → n ≠ 0 → used.moduleWidth n = 3)) ∧
    ((s.link 0).flits < 2 ^ 24 ∧ 2 ^ 24 ≤ full.flits ∧ full.replayMax < full.window ∧ full.replayMax ≠ 0 ∧ 32 < full.cur ∧ full.busy = false ∧ full.down = false) ∧
    (half.linkCtl.resetDie = some 5 ∧ (half.link 5).busy = false ∧ (half.link 11).busy = false ∧ (half.link 10).busy = false ∧ ((retraining half).link 5).busy = true) ∧
    s.degradedLane = none ∧ s.inHbm 0 = true ∧ s.inHbm hbmEnd = false ∧ (given (.uncrst 5) s).input = some (.uncrst 5) ∧ s.waves = [] := by
  decide +kernel

/-- Flits at the first and the last link of their route, that arrive in order, early and twice, and that a flow sends, and sends again. -/
theorem witness_DieFlits :
    let s := State.reset
    let f (dst seq : Nat) : DieFlit := DieFlit.mk 0 dst .rsp seq [] []
    let routed (dst : Nat) (x : Sys2Proof.Machine.Flow) : State := { s with flows := [(flowKey (f dst 0), x)] }
    let on (dst seq : Nat) (x : Sys2Proof.Machine.Flow) : State := (routed dst x).takeRoute (f dst seq)
    let fresh : Sys2Proof.Machine.Flow := Sys2Proof.Machine.Flow.reset
    let again : Sys2Proof.Machine.Flow := { fresh with next := 5, unacked := [f 1 3, f 1 4], route := [6], resend := [3, 4] }
    let far : State := { s with links := s.links.set 6 { LinkRegs.reset with buffer := [(1, f 2 0)] } }
    (((on 1 0 fresh).flow (flowKey (f 1 0))).route = [6] ∧ ((on 2 0 fresh).flow (flowKey (f 2 0))).route.length = 2 ∧ ((on 1 0 fresh).flow (flowKey (f 1 0))).route.idxOf 7 = 1 ∧
      ((on 1 0 fresh).flow (flowKey (f 1 0))).route.idxOf 6 = 0 ∧ (fresh.send (f 1 0)).isSome = true ∧ fresh.send (f 1 1) = none ∧
      (∃ j ∈ [0, 1], (((on 2 0 fresh).flow (flowKey (f 2 0))).route.getD j 0) = 6) ∧ (far.link 6).buffer.any (fun y => y.2 == f 2 0) = true ∧ s.credit 0 1 .rsp = true ∧
      s.way 0 1 = some [6] ∧ fresh.route ≠ [6] ∧ (s.way 0 1 = some again.route)) ∧
    ({ fresh with awaited := 3 }.awaited ≤ (f 1 3).seq ∧ (f 1 2).seq < { fresh with awaited := 3 }.awaited ∧ (∀ y ∈ fresh.early, y.seq ≠ 3) ∧
      (∃ y ∈ { fresh with early := [f 1 3] }.early, y.seq = 3) ∧ again.send (f 1 5) = none ∧ (again.send (f 1 3)).isSome = true ∧ f 1 3 ∈ again.unacked) ∧
    (∀ e ∈ s.flows, ∀ y ∈ e.2.early, y.seq ≠ e.2.awaited ∨ s.clockMet y = false) := by
  decide +kernel

/-- A channel of one direction that holds as many flits as it has credits. -/
theorem witness_noCredit (f : DieFlit) (h : f.chan = .req) (s : State) (a : Nat) :
    ({ s with links := [{ LinkRegs.reset with buffer := List.replicate (Config.credits 0 (channelCode .req)) (a, f) }] } : State).credit 0 a .req = false := by
  simp [State.credit, State.link, h]

/-- The link trap reaches the wave that was named: its lowest lane waits for nothing. -/
theorem witness_linkTrap :
    let t : State := { solo (lane false []) with linkCtl := { LinkCtl.reset with raised := [(0, 5)] } }
    t.linkCtl.raised = [(0, 5)] ∧ t.wave 0 = some (wave (lane false [])) ∧ (wave (lane false [])).st = .resident ∧ (wave (lane false [])).lanes.head? = some (0, lane false []) ∧
    (lane false []).degradable = true := by
  decide +kernel

/-- Requests that have authenticated and not, seen, held and new, at the end of HBM and beyond, sound and poisoned, of each operation. -/
theorem witness_FabricRequests :
    let r (pa seq : Nat) (op : HomeOp) (data : List Byte) : FabricRequest := FabricRequest.mk 1 2 seq pa 4 op data 0
    let s (x : FabricRequest) (e : Sparse Nat) (busy : Bool) : State := given (.remoteRequest x) { State.reset with
      fabric := { Fabric.reset with windows := [(18, [Performed.mk 9 none true []])], released := [.request x] },
      poison := e.map Prod.fst, links := List.replicate 12 { LinkRegs.reset with busy := busy } }
    let x := r 0x100 3 .load []
    let s1 (x : FabricRequest) (e : Sparse Nat) (busy : Bool) : State := ((s x e busy).takeFlit (.request x)).getD State.reset
    let h : State := { State.reset with fabric := { Fabric.reset with heldIn := [HeldReq.mk (.request x) 5] } }
    (s x [] false).input = some (.remoteRequest x) ∧ ((s x [] false).takeFlit (.request x)).isSome = true ∧ (s x [] false).takeFlit (.request (r 0 3 .load [])) = none ∧
    (s1 x [] false).performed 1 2 9 none = some (Performed.mk 9 none true []) ∧ (s1 x [] false).performed 1 2 3 none = none ∧ (s1 x [] false).pathBusy 0x100 = false ∧
    (s1 x [] true).pathBusy 0x100 = true ∧ (s1 x [] true).fabric.heldIn = [] ∧ localOf (hbmEnd - 4) + 4 ≤ hbmEnd ∧ hbmEnd < localOf (hbmEnd - 3) + 4 ∧
    (s1 x [] false).poisoned 0x100 4 = false ∧ (s1 x [(2, 0)] false).poisoned 0x100 4 = true ∧ x.op = .load ∧ (r 0 3 .store [1, 2, 3, 4]).data.length ≠ 128 ∧
    (r 0 3 (.atomic .add) [1, 2, 3, 4]).op = .atomic .add ∧ h.fabric.heldIn[0]? = some (HeldReq.mk (.request x) 5) ∧ h.fabric.heldIn[1]? = none := by
  decide +kernel

/-- An access of a lane that waits for it, and a posted store of one that has gone on: their replies come, and do not; a notice; the limit. -/
theorem witness_RemoteReplies :
    let ln : Lane := { lane false [] with wait := some (waiting (.remote 4) none []) }
    let u (ln : Lane) (o : OutReq) (f : List Flit) (e : Event) : State := given e { solo ln with fabric := { Fabric.reset with out := [(4, o)], released := f } }
    let o (op : HomeOp) : OutReq := request none op
    let p : OutReq := request (some (Posted.mk 0x20000 false)) .store
    let r (ok : Bool) (d : List Byte) : Event := .remoteReply 4 ok d
    let v := u ln (o .load) [.reply 4 true [1, 2, 3, 4]] (r true [1, 2, 3, 4])
    (sget v.fabric.out 4 = some (o .load) ∧ (o .load).held = false ∧ (o .load).client = none ∧ (o .load).wave = 0 ∧ (o .load).lanes = [(0, 0)] ∧
      v.wave 0 = some (wave ln) ∧ (wave ln).lane 0 = some ln ∧ (o .load).posted = none ∧ ln.wait = some (waiting (.remote 4) none [])) ∧
    v.input = some (r true [1, 2, 3, 4]) ∧ (v.takeFlit (.reply 4 true [1, 2, 3, 4])).isSome = true ∧ v.takeFlit (.reply 4 false [0x14]) = none ∧
    ((u ln (o .store) [.reply 4 true []] (r true [])).takeFlit (.reply 4 true [])).isSome = true ∧
    ((u ln (o .load) [.reply 4 false [0x14]] (r false [0x14])).takeFlit (.reply 4 false [0x14])).isSome = true ∧
    (u ln (o .load) [] (.remoteTimeout 4)).input = some (.remoteTimeout 4) ∧ p.posted = some (Posted.mk 0x20000 false) ∧ (lane false []).late = none ∧
    ((u (lane false []) p [.reply 4 false []] (r false [])).takeFlit (.reply 4 false [])).isSome = true ∧
    (u ln (o .load) [.hold 4] (.holdNotice 4 none)).input = some (.holdNotice 4 none) ∧ ((u ln (o .load) [.hold 4] (.holdNotice 4 none)).takeFlit (.hold 4)).isSome = true := by
  decide +kernel

/-- Key banks in each state, a rekey on its way and none, a session established; groups that authenticate and do not, at an open port; a port that
is up, down, announcing and barred; planes live and dead. -/
theorem witness_FabricKeysAndPorts :
    let s := State.reset
    let f (b0 b1 : KeyState) (i : Nat) : KeyDir := { KeyDir.reset with bank0 := b0, bank1 := b1, discards := i, rekey := true }
    let up : Fabric := { Fabric.reset with ports := List.replicate 16 2 }
    let dead : Fabric := { Fabric.reset with ports := 0 :: 0 :: List.replicate 14 2 }
    let on : State := { s with fabric := up, bringup := { Bringup.reset with drvaccept := 2, accepted := true }, host := { s.host with spdm := [(15, Spdm.mk 5 [])] } }
    let keyed (n : Nat) : State := { on with fabric := { up with keys := up.keys.set 31 { f .active .idle 0 with filled := n } } }
    let o := Outgoing.reply 1 15 3 true []
    s.fabric.keys[2 * 15 + 1]? = some KeyDir.reset ∧ KeyDir.reset.bank0 = .idle ∧
    (on.sessionOpen 15 = true ∧ (on.spdm 15).stage = 5 ∧ (f .idle .active 0).rekey = true ∧ (f .idle .active 0).bank0 = .idle ∧ (f .active .idle 0).bank0 ≠ .idle ∧
      (f .active .idle 0).bank1 = .idle ∧ s.sessionOpen 15 = false) ∧
    ((f .loaded .active 0).bank0 = .loaded ∧ (f .loaded .active 0).bank1 = .active ∧ (f .active .accept 0).bank0 = .active ∧ (f .active .accept 0).bank1 = .accept) ∧
    ({ f .active .accept 0 with due := true }.due = true ∧ (f .active .accept 0).due = false ∧ { f .active .accept 0 with switched := true, proven := true }.switched = true) ∧
    ((keyed 3).exitPort 15 o = some 15 ∧ (keyed 3).fabric.keyed 15 = true ∧ on.exitPort 15 o = none ∧ on.exitPort 15 (.announce 15 0 0) = some 15 ∧ on.fabric.keyed 15 = false ∧
      ((keyed 15).fabric.keys[2 * 15 + 1]?.map KeyDir.filled) = some 15) ∧
    ((15 : Nat) < 16 ∧ ([] : List Flit).length ≤ 16 ∧ on.fabric.ports.getD 15 0 ≠ 0 ∧ on.bringup.accepted = true ∧ bitOf on.bringup.drvaccept 1 = true ∧ s.bringup.accepted = false) ∧
    8 ≤ (f .active .idle 7).discards + 1 ∧ (f .active .idle 6).discards + 1 < 8 ∧ s.fabric.rekeying 0 = false ∧
    ({ s.fabric with keys := s.fabric.keys.set 0 (f .active .idle 0) } : Fabric).rekeying 0 = true ∧ s.fabric.ports.length = 16 ∧ s.fabric.keys.length = 32 ∧
    up.ports.getD 15 0 = 2 ∧ s.fabric.ports.getD 15 0 = 1 ∧ 15 ∉ s.fabric.barred ∧ dead.ports.getD 0 1 = 0 ∧ dead.nextPlane 0 = some 1 ∧ up.planeLive 0 = true ∧
    dead.planeLive 0 = false ∧ dead.anySent (fun _ p _ => p == 0) = false ∧ s.fabric.keys[2 * 0]?.isSome = true := by
  decide +kernel

/-- A queue whose packet lies here, where a line is poisoned and where none is, or on another package; none pending, all launches live; one that
may start, one in ERROR, one over, one with a handle it writes; a record's place here, poisoned, and nowhere; a doorbell. -/
theorem witness_Launches :
    let q (base : Nat) : HostQueue := { HostQueue.reset with en := true, log2 := 4, tail := 1, bells := [(1, 0)], base := base }
    let s (base : Nat) (po : List Nat) (e : Event) : State :=
      given e { State.reset with queues := q base :: List.replicate 63 HostQueue.reset, poison := po, podsize := 1, ctxs := [(0, Ctx.mk 0 0)] }
    let a := s 0 [] .launchRead
    let me := Client.packet 0 0
    let ran (t : State) : State := t.asEngine me 6
    let x : Launch := Launch.mk 0 0 0 true 0 [] false false 0 0 [] 0 none 0 false
    let t (x : Launch) (e : Event) : State := { s 0 [] e with launches := [(7, x)] }
    let st := t x (.launchStart 0 0)
    let ended : Launch := { x with started := true, packet := natLe 128 0, next := 1 }
    let cm (x : Launch) : State := t x (.launchComplete 0 0)
    let full : State := { a with launches := List.replicate 256 (0, x) }
    a.input = some .launchRead ∧ a.nextQueue.map Prod.fst = some 0 ∧ (a.queue 0).base * 4096 + 128 * ((a.queue 0).head % (a.queue 0).ring) = 0 ∧
    State.reset.nextQueue = none ∧ a.fabric.out = [] ∧ isOk ((ran a).readPacket 0 []) = true ∧
    (pkgOf 0 = a.pkgid ∧ localOf 0 + 128 ≤ hbmEnd ∧ (ran a).reachable (ringTarget 0 false) = true ∧ a.poisoned 0 128 = false ∧
      (s 0 [0] .launchRead).poisoned 0 128 = true) ∧
    (let b := s (2 ^ 35) [] .launchRead
     pkgOf ((b.queue 0).base * 4096) ≠ b.pkgid ∧ b.podsize ≤ pkgOf ((b.queue 0).base * 4096) ∧ b.nextQueue.map Prod.fst = some 0) ∧
    256 ≤ full.launches.length ∧ a.launches.length < 256 ∧ (a.queue 0).pending = true ∧ a.queues.length = 64 ∧
    sget ([(3, (some 5, [6]))] : Sparse (Option Nat × List Nat)) (2 ^ 30 * 0 + 3) = some (some 5, [6]) ∧
    (st.input = some (.launchStart 0 0) ∧ st.findLaunch 0 0 = some (7, x) ∧ x.bad = false ∧ x.started = false ∧ (∀ m ∈ x.waitFor, sget st.launches m = none) ∧
      (∀ e ∈ st.launches, e.2.q = x.q → e.2.bad = true ∨ e.2.started = true ∨ 7 ≤ e.1) ∧ ended.started = true) ∧
    ((s 0 [] (.doorbell 63 5)).input = some (.doorbell 63 5) ∧ (63 : Nat) < 64) ∧
    ((cm ended).findLaunch 0 0 = some (7, ended) ∧ ended.count ≤ ended.next ∧ (cm ended).blocks = [] ∧ (cm ended).cores = [] ∧ x.started = false ∧
      (packetHandles (leNat ended.packet)).all (fun h => !h.2) = true ∧
      packetHandles (leNat (natLe 128 (0x80000005 * 2 ^ 512))) = [(5, true)] ∧
      isOk ((ran (cm ended)).writeCompletion 0 (ended.record 0)) = true ∧
      (match (ran (cm ended)).writeCompletion (2 ^ 47) (ended.record 0) with | .error e => e.cause | .ok _ => 0) ≠ 0) ∧
    ((ended.record 0).length = 32 ∧ localOf 0 + 32 ≤ hbmEnd ∧ a.reachable (ringTarget 0 false) = true ∧ a.poisoned 0 32 = false ∧
      (s 0 [0] .launchRead).poisoned 0 32 = true) := by
  decide +kernel

/-- A launch that deals, one that has placed all, one whose block finds no room (its objects' table is full) and one whose block does; a queue of
blocks that fit and none; a wave whose lanes have exited and one that still writes; one that moves; a block that is saved. -/
theorem witness_Blocks :
    let x : Launch := Launch.mk 0 0 0 true 0 (natLe 64 (0x20000 + 2 ^ 160 + 63 * 2 ^ 168)) false true 0 0 [] 0 (some (0, false)) 0 false
    let s : State := given .blockPlace { State.reset with launches := [(7, x)] }
    let e := QueueEntry.mk 0 0 1 0 0
    let b : Block := { codeBlock with placed := false }
    let r : State := { solo (lane false []) with runQueue := [e], blocks := [(0, b)], waves := [(0, { wave (lane false []) with st := .queued })] }
    let gone : Wave := { wave (lane false []) with lanes := [] }
    let w (o : List (Nat × OutReq)) : State := given (.waveEnd 0) { solo (lane false []) with waves := [(0, gone)], fabric := { Fabric.reset with out := o } }
    let v (ln : Lane) : State := given (.waveSaved 0) { solo ln with waves := [(0, { wave ln with st := .saving })] }
    s.dealing = some (7, x) ∧ x.deal = some (0, false) ∧ x.count ≤ { x with next := 1 }.next ∧ x.next < x.count ∧
    (s.coresOf (x.bits 173 168))[0 + 0]? = some (0, 0) ∧ State.reset.dealing = none ∧ State.reset.wanting = [] ∧
    r.dealing = none ∧ r.wanting = [.entry e] ∧ (0, 0) ∈ r.coresOf 63 ∧ bitOf e.dies 0 = true ∧ (r.placeBlock 0 0 0).isSome = true ∧
    (∀ c ∈ r.coresOf 63, bitOf { e with dies := 0 }.dies c.1 = false) ∧
    ((w []).input = some (.waveEnd 0) ∧ (w []).wave 0 = some gone ∧ gone.lanes = [] ∧ gone.onCore = true ∧ (w []).fabric.out = []) ∧
    ((request none .store).client = none ∧ (request none .store).wave = 0 ∧ (request none .store).op ≠ .load ∧ (wave (lane false [])).lanes ≠ []) ∧
    (r.waves.wf = true ∧ ({ wave (lane false []) with st := .moving } : Wave).st = .moving) ∧
    ((v (lane false [])).input = some (.waveSaved 0) ∧ sget (v (lane false [])).blocks 0 = some codeBlock ∧
      (∃ y ∈ (v (lane false [])).waves, y.2.block = 0 ∧ y.2.st = .saving) ∧ (lane false []).wait = none ∧ (lane false []).bank.tail = 0 ∧
      (waiting (.reconv [0]) none []).interruptible = true ∧ (lane false []).inIdle = false ∧ (lane false []).inTrap = false ∧
      ({ (lane false []).bank with tail := 1 } : Bank).tail ≠ 0) := by
  and_intros <;> decide +kernel

/-- A block of one wave finds no room while the table of objects is full. -/
theorem witness_blockDeals (s : State) (m n : Nat) (x : Launch) (die core : Nat) (h : x.bits 167 160 = 1) (full : s.objs = table m) (hm : tableSize - 1 ≤ m) :
    s.dealTo n x die core = none := by
  have e : ∀ b, ({ s with ticket := s.ticket + 1 } : State).newObj x.asid b = none := fun b => newObj_none _ _ m _ full hm
  simp only [State.dealTo, h, List.range_one, State.makeWaves, e]

/-- A line of the host's memory dirty in an L2, a link that is DOWN; phases of bring-up in order, out of order, failed and last; a part that
accepts its features and one that has; MEMSPLIT open and closed; a frame that is sound, and one that overlaps. -/
theorem witness_PackageStarts :
    let s : State := { State.reset with dir := [(hostBase / 128, DirLine.mk .m 0 1 (List.replicate 128 1))], links := List.replicate 12 { LinkRegs.reset with down := true } }
    let done : Bringup := { Bringup.reset with phases := [1, 1, 1, 1, 1], done := true }
    let p (phase : Nat) (r : BitVec 2) : State := given (.bringupPhaseDone phase r) State.reset
    s.dir.wf = true ∧ (∀ e ∈ s.dir, e.2.dirty = true → hostBase ≤ 128 * e.1 → e.2.back.length = 128) ∧ (s.link 11).down = true ∧ (given (.packageReset (some 3)) s).input = some (.packageReset (some 3)) ∧ s.input = none ∧
    s.dirtyLine (lineOf hostBase) = true ∧ s.dirtyLine (lineOf (hostBase + 128)) = false ∧ s.links[11]?.isSome = true ∧ s.links.length = 12 ∧
    ((p 0 1).input = some (.bringupPhaseDone 0 1) ∧ (p 0 1).bringup.phases.length = 5 ∧ (p 0 1).bringup.refused = false ∧
      (p 0 1).bringup.phases.getD 0 0 = 0 ∧ (1#2).toNat ≠ 0 ∧ (p 0 1).bringup.phases.getD 0 0 = 0) ∧
    ((∀ i ∈ dieLinks 5, (s.link i).down = true) ∧ (∀ k ∈ State.reset.links, k.busy = false ∧ k.down = false) ∧ 1 ∈ State.reset.fabric.ports ∧ 0 ∉ State.reset.fabric.ports) ∧
    (done.done = true ∧ done.failed = false ∧ done.accepted = false ∧ { done with accepted := true }.accepted = true ∧ (given (.drvacceptWrite 0x1F) s).input = some (.drvacceptWrite 0x1F)) ∧
    (s.engineLive = false ∧ s.waves = [] ∧ s.cfg.lock = false ∧ ({ s.cfg with lock := true } : MemCfg).lock = true ∧
      (given (.memsplitWrite 0x81) s).input = some (.memsplitWrite 0x81)) ∧
    (given (.registerWrite 0x1008 4 ((5#32).setWidth 64)) s).input = some (.registerWrite 0x1008 4 ((5#32).setWidth 64)) ∧
    (let f := Frame.mk 0x1000 0
     pkgOf f.pa = s.pkgid ∧ localOf f.pa + f.bytes ≤ hbmEnd ∧ f.pa % f.bytes = 0 ∧ s.pool = [] ∧ f = Frame.mk (bitsOf (0x1000#64).toNat 55 12 * 4096) (bitsOf (0x1000#64).toNat 1 0) ∧
       ¬ (f.pa + f.bytes ≤ f.pa ∨ f.pa + f.bytes ≤ f.pa)) := by
  decide +kernel

/-- An image whose digest is not the fused one is refused. -/
theorem witness_imageRefused (f : Firmware) (s : State) (h : s.controller.minVersion = 2) (v : f.version = 1) :
    ¬ (Config.verify f.key (Config.sha3 f.bytes) f.signature = true ∧ Config.sha3 f.key = s.controller.keyDigest ∧ s.controller.minVersion ≤ f.version) := by
  omega

/-- The host's accesses: a line whole and in part, the last of the pool, poisoned and sound, not accepted; a dirty line snooped; sessions at each
stage, of a port that is open and one that is not. -/
theorem witness_HostAccesses :
    let b : Bringup := { Bringup.reset with drvaccept := 18, accepted := true }
    let d (a n : Nat) (w : Bool) (bs : List Byte) : State := given (.hostMemAccess a n w bs) { State.reset with
      bringup := b, poison := [1], host := { HostLink.reset with up := true, spdm := [(15, Spdm.mk 3 []), (16, Spdm.mk 5 []), (17, Spdm.mk 4 []), (18, Spdm.mk 1 []), (19, Spdm.mk 2 [])] },
      dir := [(hostBase / 128, DirLine.mk .m 0 1 [])], fabric := { Fabric.reset with ports := List.replicate 15 1 ++ [2] } }
    let s := d 127 1 false []
    s.input = some (.hostMemAccess 127 1 false []) ∧ s.bringup.accepted = true ∧ bitOf s.bringup.drvaccept 4 = true ∧
    768 * 2 ^ 30 - 128 + 128 ≤ (768 - 6 * s.cfg.wingib) * 2 ^ 30 ∧ s.reach 6 (s.homeDie 127) = true ∧ s.reach 6 (s.homeDie 128) = true ∧
    lineOf (127 + 1 - 1) = lineOf 127 ∧ lineOf (128 + 128 - 1) = lineOf 128 ∧ lineOf 128 ∈ s.poison ∧ lineOf 127 ∉ s.poison ∧ State.reset.bringup.accepted = false ∧
    (List.replicate 128 (0#8)).length = 128 ∧ hostBase ≤ hostBase + 127 ∧ s.host.up = true ∧ s.dirtyLine (lineOf (hostBase + 127)) = true ∧
    s.dirtyLine (lineOf (hostBase + 128)) = false ∧ State.reset.host.up = false ∧
    ((s.spdm 15).stage = 3 ∧ (s.spdm 16).stage = 5 ∧ (s.spdm 17).stage = 4 ∧ (s.spdm 18).stage = 1 ∧ (s.spdm 19).stage = 2 ∧ (s.spdm 20).stage = 0) ∧
    (bitOf s.bringup.drvaccept 1 = true ∧ s.fabric.ports.getD 15 0 = 2 ∧ s.fabric.ports.getD 14 0 ≠ 2) := by
  decide +kernel

/-- An uncorrectable error that an access finds: its line is neither written over nor marked yet. -/
theorem witness_latent : let s : State := { State.reset with ecc := [5] }; lineOf 640 ∉ s.poison ∧ s.ecc = [5] := by decide +kernel

/-- A cached translation of the context, a lane in RECONV, an exchange on its way, a pod barrier held here and one held elsewhere, on and off,
with its messages in reach, and a lane that waits for CXL. -/
theorem witness_TimeLimitsAndExchanges :
    let rec' : Lane := { lane false [] with wait := some (waiting (.reconv [1]) none []) }
    let cxl : Lane := { lane false [] with wait := some (waiting .cxl none (natLe 8 5)) }
    let s : State := { solo rec' with objs := [(5, space)], exchanges := [(0, 0x20000)], allocs := [(0, Alloc.mk [(0, (1, 7))] [] [])], tlb := [TlbEntry.mk 0 (Page.mk .hbm 0x20000 4096 0 1 true true true)] }
    let on : Barrier := { Barrier.off with on := true, expected := 2, owner := 4 }
    let p (i : Nat) (b : Barrier) (m : PodBarrierMsg) : State :=
      given (.podBarrierMessage i m) (({ s with podsize := 2, fabric := { Fabric.reset with released := [.podBarrier i m] } } : State).setBarrier 5 0 i b)
    let comes (i : Nat) (b : Barrier) (m : PodBarrierMsg) : Bool := (p i b m).input == some (.podBarrierMessage i m) && ((p i b m).takeFlit (.podBarrier i m)).isSome
    let a := p 2 on (.arrive 4 1)
    s.wave 0 = some (wave rec') ∧ (wave rec').lane 0 = some rec' ∧ rec'.wait.map Wait.kind = some (.reconv [1]) ∧ (lane false []).wait = none ∧
    0x10000 / 2 ^ 16 < 2 ∧ 2 ≤ 0x20000 / 2 ^ 16 ∧ s.exchanges[0]? = some (0, 0x20000) ∧ s.exchanges[1]? = none ∧ s.spaceOf 0 = some (0x800, 2, 1) ∧ sget (s.alloc 0).taken (0x20000 / 2 ^ 16 - 2) = some (1, 7) ∧
    ((∃ e ∈ s.tlb, e.asid = 0) ∧ (given (.generationAdvance 0) s).input = some (.generationAdvance 0)) ∧
    (a.heldElsewhere 5 2 = false ∧ a.heldElsewhere 5 3 = true ∧ a.takeFlit (.podBarrier 2 (.inval 4)) = none ∧ comes 2 on (.arrive 4 1) = true ∧ comes 4 on (.arrive 4 1) = true) ∧
    (a.barrier 5 0 2 = on ∧ on.arrived + 1 < on.expected ∧ on.dynamic = false ∧ on.owner = 4 ∧ on.owner ≠ 5 ∧ Barrier.off.on = false ∧ on.phase = 0 ∧ on.phase ≠ 1) ∧
    ([.init 4 2, .init 4 0, .init 5 2, .inval 4, .inval 5, .waits 4 0, .waits 4 1, .phaseEnd 0 0, .state true 4 3].all (comes 2 on) = true ∧
      comes 2 Barrier.off (.init 4 2) = true ∧ [.state true 4 3, .phaseEnd 0 0, .phaseEnd 1 0].all (comes 3 on) = true) ∧
    (given (.cxlTimeout 0 0) (solo cxl)).input = some (.cxlTimeout 0 0) ∧ (solo cxl).lane 0 0 = some cxl ∧ (waiting .cxl none (natLe 8 5)).status = none := by
  decide +kernel

/-- A plan that issues the loaded instruction, whose bytes are fetched and decode, and a lane with the failure of an earlier store to take; a launch that deals; a plan
that is an event, from the agenda and from an engine; a canonical memory. -/
theorem witness_StepRunsDecoded :
    let s := State.reset.withFetchWord 32 0x20000219
    let tg := okOr ((s.atDie (codeWave.coreKey / 64)).translate (fetchAcc 0 true) 0x20000) (Target.mk .info 0 none)
    let e : State := { State.reset with agenda := [.step .droopStretch] }
    let j : State := { State.reset with cores := [(0, { CoreState.reset with jobs := [job .queued] })], freeCtr := 1 }
    let late : Lane := { lane false [] with late := some (Late.mk 0x20000 false 0x10 0 0) }
    let x : Launch := Launch.mk 0 0 0 true 0 (natLe 64 (0x20000 + 2 ^ 160 + 63 * 2 ^ 168)) false true 0 0 [] 0 (some (0, false)) 0 false
    (s.begin.pickPart 0).map Group.lanes = some [0] ∧ (s.wave 0).isSome = true ∧ s.degradedLane = none ∧ s.agenda = .issue 0 0 0 :: [] ∧
    isOk ((s.atDie (codeWave.coreKey / 64)).translate (fetchAcc 0 true) 0x20000) = true ∧ tg.kind = .hbm ∧ localOf tg.pa % 128 ≤ 126 ∧ localOf tg.pa < hostBase ∧
    s.poisoned (localOf tg.pa) 2 = false ∧ sget (s.core codeWave.coreKey).icache (lineOf (localOf tg.pa)) = none ∧
    s.reach (codeWave.coreKey / 64) (s.homeDie (localOf tg.pa)) = true ∧ isOk (s.fetchHalf codeWave true 0x20000) = true ∧
    isOk (s.fetchUnit codeWave true 0x20000) = true ∧ (decode (Code.word 0x20000219).bytes).isOk = true ∧ (decode (Code.half 0).bytes).isOk = true ∧
    Memory.wf s.mem = true ∧ isOk (decode1 (.word 0x20000219)) = true ∧ codeLane.lateHere = none ∧ late.lateHere.isSome = true ∧ s.fetchRefused codeWave codeLane = none ∧
    s.dealing = none ∧ ({ s with launches := [(7, x)] } : State).dealing ≠ none ∧ (s.begin.pickPart 0).map Group.unit = some none ∧
    meetTrap codeLane.bank (.ok (Fetched.mk none .nop16 0 2)) true = none ∧ settles .nop16 = false ∧
    (match e.begin.plan with | .event x _ => x == .droopStretch | _ => false) = true ∧ e.degradedLane = none ∧
    j.agenda = [] ∧ j.nextEngine.isSome = true ∧ j.enginesTurn = true ∧ j.degradedLane = none ∧ j.due = none ∧ j.pick = none := by
  decide +kernel

end Sys2Proof.Tests
end

