-- ==== Sys2Proof/Tests/Slice0.lean ====
section
/-! SUPPORT. Tests: an ill-formed term for each check of WellFormed, words of the manual's own encodings, and single steps whose
results the manual states or that follow from it by hand. -/

set_option Elab.async false

namespace Sys2Proof.Tests

open Sys2Proof.Machine

/-- Destinations that no instruction may write: e0, ln, wv (R27), of every form that checks one. -/
theorem test_wf_writable :
    [Instr.iadd .e0 (.b 1) (.b 2), .movi .wv 1, .not .e0 3, .movC16 .ln 3, .movm .e1 3, .movg .e0 3, .movc .e0 0, .ldo .ln (.b 2) .w 0, .lds .e0 (.b 1) .w 0,
      .atom .e0 (.b 2) (.b 3) .add .wave, .ldt .e0 (.b 2) (.b 3), .tinit .e0 (.b 1) (.b 2), .twait .e0 (.b 1), .tready .e0 (.b 1), .scmd .e0 (.b 2), .sresume .e0 (.b 1),
      .shalo .e0 (.b 2), .spub .e0 (.b 1), .spoll .e0 (.b 2) (.b 1), .tdef .e0 (.b 1) (.b 2), .tundef .e0 (.b 1), .mtask .e0 (.b 2) (.b 1), .kclose .e0 (.b 1) .z,
      .ksend .e0 (.b 1) (.b 2), .kwdel .e0 (.b 1) (.b 2), .karm .e0 (.b 1) (.b 2), .kdisarm .e0 (.b 1), .kname .e0 (.b 1) (.b 2), .kidle .e0 (.b 1), .binit .e0 (.b 1) (.b 2),
      .preempt (.b 1) .e0, .fadd .e0 (.b 1) (.b 2), .elect .e0].map WellFormed = List.replicate 33 false := by
  decide

/-- Odd pairs (R28), groups that are no even b register or no multiple of 4 (R29). -/
theorem test_wf_pairs :
    [Instr.ldo (.b 1) (.b 3) .w 0, .sto (.b 1) (.b 3) .w 0, .ldo (.b 3) (.b 2) .w2 0, .ldo (.b 2) (.b 2) .w4 0, .sto (.g 2) (.b 2) .w2 0, .ldo (.g 4) (.b 2) .w4 0,
      .sts (.b 1) (.b 1) .w2 0, .ld (.b 1) (.b 3) .w .relaxed .lane .global .normal, .ld (.b 1) (.b 3) .w .relaxed .lane .tensor .normal,
      .atom (.b 1) (.b 3) (.b 3) .add .wave, .stmc (.b 1) (.b 3) (.b 2), .malloc (.b 3) (.b 1), .mfree (.b 3), .cflush (.b 3) (.b 1), .ldt (.b 1) (.b 3) (.b 1),
      .stt (.b 1) (.b 3) (.b 1), .lcp (.b 1) (.b 3) .s4 false 0 false, .tinit (.b 1) (.b 1) (.b 3), .tstat (.b 2) (.b 1), .scmd (.b 1) (.b 3), .shalo (.b 1) (.b 3),
      .spoll (.b 1) (.b 3) (.b 1), .tdef (.b 1) (.b 1) (.b 3), .mtask (.b 1) (.b 3) (.b 1), .kcreate (.b 3) (.b 1) (.b 2), .kcreate (.b 2) (.b 1) (.b 3),
      .kspawn (.b 3) (.b 2), .ksend (.b 1) (.b 1) (.b 3), .kwait (.b 3) (.b 1) (.b 1), .karm (.b 1) (.b 1) (.b 3), .klookup (.b 3) (.b 2), .kname (.b 1) (.b 1) (.b 3),
      .kwork (.b 2), .ktime (.b 3), .callr (.b 3), .jmpr .e0].map WellFormed = List.replicate 36 false := by
  decide

/-- Indices that no register has (R36, R255), semantics and scopes that no access may name (R37), accumulators that are a source
(R324), an odd record pair (R331), a mask that is no b or g register (R41), and the move that is NOP16 (R32). -/
theorem test_wf_fields :
    [Instr.movm (.b 1) 256, .movmw (.b 1) 256, .movc (.b 1) 29, .movc (.b 1) 266, .movtc (.b 1) 255,
      .ld (.b 1) (.b 2) .w .release .pkg .global .normal, .st (.b 1) (.b 2) .w .acquire .pkg .global .normal, .ld (.b 1) (.b 2) .w .acquire .lane .global .normal,
      .st (.b 1) (.b 2) .w .release .io .global .normal, .tmma 1 1 2 false false, .tmmaq 1 2 1 false false, .tdrain 1 3,
      .pfx (PfxFields.mk false false .dyn false .e0 .z), .movC16 (.b 0) 0].map WellFormed = List.replicate 14 false := by
  decide

/-- A word that the manual writes out. -/
theorem test_decode_movi : (decode1 (.word 0x20000219)).toOption = some (.movi (.b 4) 0x10000) := by decide +kernel

/-- A word that the manual writes out. -/
theorem test_decode_ldo : (decode1 (.word 0x00A08327)).toOption = some (.ldo (.b 6) (.b 4) .w 2) := by decide +kernel

/-- A word that the manual writes out. -/
theorem test_decode_sto : (decode1 (.word 0x00A08329)).toOption = some (.sto (.b 6) (.b 4) .w 2) := by decide +kernel

/-- A word that the manual writes out. -/
theorem test_decode_movhi : (decode1 (.word 0x1234421B)).toOption = some (.movhi (.b 4) 0x91A2) := by decide +kernel

/-- A word that the manual writes out. -/
theorem test_decode_ori : (decode1 (.word 0xB3C08211)).toOption = some (.ori (.b 4) (.b 4) 0x1678) := by decide +kernel

/-- A word that the manual writes out. -/
theorem test_decode_atoma : (decode1 (.word 0x0A5084B1)).toOption = some (.atoma (.b 9) (.b 4) (.b 10) .add .pkg) := by decide +kernel

/-- A word that the manual writes out. -/
theorem test_decode_kpost : (decode1 (.word 0x0C2641C5)).toOption = some (.kpost (.b 3) (.g 2) (.b 4)) := by decide +kernel

/-- A word that the manual writes out. -/
theorem test_decode_tinit : (decode1 (.word 0x0040C13D)).toOption = some (.tinit (.b 2) (.b 6) (.b 8)) := by decide +kernel

/-- A word that the manual writes out. -/
theorem test_decode_scmd : (decode1 (.word 0x000081BF)).toOption = some (.scmd (.b 3) (.b 4)) := by decide +kernel

/-- A word that the manual writes out. -/
theorem test_decode_movm : (decode1 (.word 0x000221A1)).toOption = some (.movm (.b 3) 17) := by decide +kernel

/-- A word that the manual writes out. -/
theorem test_decode_movmw : (decode1 (.word 0x00590121)).toOption = some (.movmw (.b 2) 200) := by decide +kernel

/-- A word that the manual writes out. -/
theorem test_decode_movtc : (decode1 (.word 0x014002A1)).toOption = some (.movtc (.b 5) 0) := by decide +kernel

/-- A word that the manual writes out. -/
theorem test_decode_bfe : (decode1 (.word 0x2A38C283)).toOption = some (.bfe (.b 5) (.b 6) (.b 7)) := by decide +kernel

/-- A word that the manual writes out. -/
theorem test_decode_isetiLtu : (decode1 (.word 0x9FF86117)).toOption = some (.isetiLtu (.b 2) (.b 3) 0x3FF) := by decide +kernel

/-- A word that the manual writes out. -/
theorem test_decode_shiRotl : (decode1 (.word 0x03402095)).toOption = some (.shiRotl (.b 1) (.b 1) 8) := by decide +kernel

/-- A word that the manual writes out. -/
theorem test_decode_fpkh : (decode1 (.word 0x28288305)).toOption = some (.fpkh (.b 6) (.b 4) (.b 5)) := by decide +kernel

/-- A word that the manual writes out. -/
theorem test_decode_hdot2Bf : (decode1 (.word 0x1430A207)).toOption = some (.hdot2Bf (.b 4) (.b 5) (.b 6)) := by decide +kernel

/-- A word that the manual writes out. -/
theorem test_decode_fcvti : (decode1 (.word 0x1E006105)).toOption = some (.fcvti (.b 2) (.b 3)) := by decide +kernel

/-- A word that the manual writes out. -/
theorem test_decode_fredadd : (decode1 (.word 0x1A00210B)).toOption = some (.fredadd (.b 2) (.b 1)) := by decide +kernel

/-- A word that the manual writes out. -/
theorem test_decode_bsync : (decode1 (.word 0x0600C147)).toOption = some (.bsync (.b 2) (.b 6)) := by decide +kernel

/-- A word that the manual writes out. -/
theorem test_decode_tld : (decode1 (.word 0x00080141)).toOption = some (.tld 2 1) := by decide +kernel

/-- A word that the manual writes out. -/
theorem test_decode_mtstat : (decode1 (.word 0x040082C3)).toOption = some (.mtstat (.b 5) (.b 4)) := by decide +kernel

/-- A word that the manual writes out. -/
theorem test_decode_mtask : (decode1 (.word 0x003081C3)).toOption = some (.mtask (.b 3) (.b 4) (.b 6)) := by decide +kernel

/-- A word that the manual writes out. -/
theorem test_decode_fence : (decode1 (.word 0x01B80037)).toOption = some (.fence .sys .sc .mem) := by decide +kernel

/-- A word that the manual writes out. -/
theorem test_decode_kwork : (decode1 (.word 0x1E000245)).toOption = some (.kwork (.b 4)) := by decide +kernel

/-- A word that the manual writes out. -/
theorem test_decode_kidle : (decode1 (.word 0x1C066145)).toOption = some (.kidle (.b 2) (.g 3)) := by decide +kernel

/-- A word that the manual writes out. -/
theorem test_decode_kclose : (decode1 (.word 0x03164245)).toOption = some (.kclose (.b 4) (.g 2) .z) := by decide +kernel

/-- A word that the manual writes out. -/
theorem test_decode_kwdel : (decode1 (.word 0x103621C5)).toOption = some (.kwdel (.b 3) (.g 1) (.b 6)) := by decide +kernel

/-- A word that the manual writes out. -/
theorem test_decode_corerst : (decode1 (.word 0x00286253)).toOption = some (.corerst (.b 4) (.b 3)) := by decide +kernel

/-- A word that the manual writes out. -/
theorem test_decode_engrst : (decode1 (.word 0x00306253)).toOption = some (.engrst (.b 4) (.b 3)) := by decide +kernel

/-- A word that the manual writes out. -/
theorem test_decode_iadd : (decode1 (.word 0x01908183)).toOption = some (.iadd (.b 3) (.b 4) (.g 2)) := by decide +kernel

/-- A word that the manual writes out. -/
theorem test_decode_ffma : (decode1 (.word 0x06102305)).toOption = some (.ffma (.b 6) (.b 1) (.b 2)) := by decide +kernel

/-- A word that the manual writes out. -/
theorem test_decode_bnz : (decode1 (.word 0xFFFF414B)).toOption = some (.bnz (.b 2) 0x7FFFA) := by decide +kernel

/-- A word that the manual writes out. -/
theorem test_decode_region : (decode1 (.word 0x0001401F)).toOption = some (.region 10) := by decide +kernel

/-- A word that the manual writes out. -/
theorem test_decode_ldl : (decode1 (.word 0x0000C09D)).toOption = some (.ldl (.b 1) 6) := by decide +kernel

/-- Prefixes that the manual writes out: sat alone, rna and sat, the mask g4. -/
theorem test_decode_pfx :
    (decode1 (.word 0x00F4517F)).toOption = some (.pfx (PfxFields.mk false true .dyn false .z .z)) ∧
    (decode1 (.word 0x00C4517F)).toOption = some (.pfx (PfxFields.mk false true .rna false .z .z)) ∧
    (decode1 (.word 0x0076917F)).toOption = some (.pfx (PfxFields.mk false false .dyn false (.g 4) .z)) ∧
    (decode1 (.word 0x0010E4FF)).toOption = some (.pfx (PfxFields.mk false false .rtz false (.b 7) (.b 9))) := by
  decide +kernel

/-- The halfword 0 is NOP16 (R32), and words no encoding has are refused. -/
theorem test_decode_refused : (decode1 (.half 0)).toOption = some .nop16 ∧ decodeTableWord 32 0xFFFFFFFF = none ∧ decodeTableWord 32 0x000002D5 = none := by decide +kernel

/-- What a state is after an instruction. -/
def after {α : Type} (i : Instr) (s : State) (f : State → α) : Option α :=
  match exec i s with
  | .next t => some (f t)
  | .fault _ => none
  | .refused _ => none

/-- A b register of lane 0 of wave 0. -/
def breg (r : Nat) (s : State) : Option Word := (s.lane 0 0).map (fun ln => ln.bank.reg r)

/-- A sum wraps at 2^32 (R264). -/
theorem test_iadd_wraps : after (.iadd (.b 1) (.b 1) (.b 2)) (solo (lane false [(1, 0xFFFFFFFF), (2, 3)])) (breg 1) = some (some 2) := by decide +kernel

/-- Under sat it stops at the largest word (R69). -/
theorem test_iadd_sat :
    after (.iadd (.b 1) (.b 1) (.b 2))
      { solo (lane false [(1, 0x7FFFFFFF), (2, 1)]) with focus := some { foc with pfx := some (PfxFields.mk false true .dyn false .z .z) } } (breg 1) =
      some (some 0x7FFFFFFF) := by decide +kernel

/-- The high word of −1 · 1 is −1, of the same words unsigned 0 (R264). -/
theorem test_imulhi : after (.imulhi (.b 1) (.b 1) (.b 2)) (solo (lane false [(1, 0xFFFFFFFF), (2, 1)])) (breg 1) = some (some 0xFFFFFFFF) ∧
    after (.imulhu (.b 1) (.b 1) (.b 2)) (solo (lane false [(1, 0xFFFFFFFF), (2, 1)])) (breg 1) = some (some 0) := by decide +kernel

/-- An immediate of −1 is 0xFFFFFFFF to ISETLTU (R266). -/
theorem test_isetiLtu : after (.isetiLtu (.b 2) (.b 3) 0x3FF) (solo (lane false [(3, 5)])) (breg 2) = some (some 1) := by decide +kernel

/-- Bits 4 to 11 of 0xABCD, signed (R265). -/
theorem test_bfe : after (.bfe (.b 5) (.b 6) (.b 7)) (solo (lane false [(6, 0xABCD), (7, 0x8804)])) (breg 5) = some (some 0xFFFFFFBC) := by decide +kernel

/-- 1.5 + 2.25 = 3.75 (R273). -/
theorem test_fadd : after (.fadd (.b 1) (.b 2) (.b 3)) (solo (lane false [(2, 0x3FC00000), (3, 0x40100000)])) (breg 1) = some (some 0x40700000) := by decide +kernel

/-- The manual's FREDADD: 2^24, 1, 1 and 1 give 2^24 + 2 over the tree, where a sum from the left gives 2^24 (R291). -/
theorem test_fredadd :
    let w : Wave := { codeWave with lanes := [(0, lane false [(1, 0x4B800000)]), (1, lane false [(1, 0x3F800000)]), (2, lane false [(1, 0x3F800000)]), (3, lane false [(1, 0x3F800000)])] }
    after (.fredadd (.b 2) (.b 1)) { State.reset with waves := [(0, w)], focus := some (Focus.mk 0 [0, 1, 2, 3] 0x20000 4 0 none) } (breg 2) = some (some 0x4B800001) := by
  decide +kernel

/-- The manual's KWORK: of 3 tiles of 5 steps over 4 blocks, block 1 first gets (0, 3, 5, fix-up final) (R374). -/
theorem test_kwork :
    let k : Block := { codeBlock with launch := some 1, index := 1, blocks := 4, workTiles := 3, workK := 5 }
    after (.kwork (.b 4)) { solo (lane false []) with blocks := [(0, k)] } (fun t => [breg 4 t, breg 5 t, breg 6 t, breg 7 t]) = some [some 0, some 3, some 5, some 3] := by
  decide +kernel

/-- A store and its load: the low byte lies lowest (R143). -/
theorem test_store_order : after (.sto (.b 1) (.b 2) .w 1) (solo (lane false (at_ [(1, 0x11223344)]))) (fun t => zread t.mem 0x106004 4) = some [0x44, 0x33, 0x22, 0x11] := by
  decide +kernel

/-- A byte load extends its sign, and the unsigned one does not (R143). -/
theorem test_load_byte : after (.ldo (.b 1) (.b 2) .b 0) (mem [0x80] (lane false (at_ []))) (breg 1) = some (some 0xFFFFFF80) ∧
    after (.ldo (.b 1) (.b 2) .bu 0) (mem [0x80] (lane false (at_ []))) (breg 1) = some (some 0x80) := by decide +kernel

/-- An atomic add gives the old word and leaves the sum (R149). -/
theorem test_atom : after (.atom (.b 1) (.b 2) (.b 4) .add .wave) (mem (natLe 4 40) (lane false (at_ [(4, 2)]))) (fun t => (breg 1 t, leNat (zread t.mem 0x106000 4))) =
    some (some 40, 42) := by decide +kernel

/-- SVC with a handler: cause 0x3F, TRAPAUX a, privileged, in a handler, at TRAPVEC; TRAPPC is the SVC's own address (R302, R419). -/
theorem test_svc : after (.svc (.b 1)) { mem (natLe 4 0x1F) (lane false [(1, 77)]) with ctxs := [(0, Ctx.mk 0x20000 0)] }
    (fun t => (t.lane 0 0).map (fun ln => ([ln.cause, ln.aux, ln.trapPc], ln.isPriv && ln.inTrap, ln.pc))) = some (some ([0x3F, 77, 0x20000], true, 0x20000)) := by decide +kernel

/-- A SYS function outside privileged mode traps PRIV (R47), here without a handler: the lane is gone (R423). -/
theorem test_priv : after .tlbgen (solo (lane false [])) (fun t => (t.lane 0 0, t.fatalTraps)) = some (none, 1) := by decide +kernel

/-- A branch that is taken goes twice its offset from its own address (R293). -/
theorem test_bnz : after (.bnz (.b 2) 0x7FFFA) (solo (lane false [(2, 1)])) (fun t => (t.lane 0 0).map Lane.pc) = some (some 0x1FFF4) := by decide +kernel

/-- A call expects a REGION at its target and pushes the next address (R296). -/
theorem test_call : after (.call 8) (solo (lane false [])) (fun t => (t.lane 0 0).map (fun ln => (ln.pc, ln.stack, ln.depth, ln.bank.expect))) =
    some (some (0x20010, [0x20004], 1, 2)) := by decide +kernel

/-- −2 · 3 + 7 of T8 elements through the residues (R86, R87). -/
theorem test_multiply : (multiply 3 3 1 1 1 [0xFE] [3] [7]).toOption = some ([1], false) := by decide +kernel

/-- The last lane to arrive at a barrier of one ends its phase (R307). -/
theorem test_barrive :
    after (.barrive (.b 1) (.b 2)) { solo (lane false [(2, 0x20)]) with bars := [(barKey 2 0 0, { Barrier.off with on := true, expected := 1, phase := 9 })] }
      (fun t => (breg 1 t, (t.barrier 2 0 0).phase)) = some (some 9, 10) := by decide +kernel

/-- The first step after a load from outside runs the instruction: b4 and the PC. -/
theorem test_step_movi : (match step (State.reset.withFetchWord 32 0x20000219) with
    | .next t => (t.lane 0 0).map (fun ln => (ln.bank.reg 4, ln.pc))
    | .fault _ => none
    | .refused _ => none) = some (0x10000, 0x20004) := by decide +kernel

/-- The same for a halfword. -/
theorem test_step_nop16 : (match step (State.reset.withFetchWord 16 0) with
    | .next t => (t.lane 0 0).map Lane.pc
    | .fault _ => none
    | .refused _ => none) = some 0x20002 := by decide +kernel

/-- Reset has a canonical memory. -/
theorem test_reset_wf : Memory.wf State.reset.mem = true := by decide

end Sys2Proof.Tests
end

section
/-! The state after a package reset (R16). -/

namespace Sys2Proof.Machine

/-- Every host queue of reset, whatever its number, is off (R407). -/
theorem queue_reset (q : Nat) : State.reset.queue q = HostQueue.reset := by
  simp only [State.queue, State.reset, List.getElem?_replicate]
  split <;> rfl

/-- Every link of reset is as R166 gives it. -/
theorem link_reset (i : Nat) : State.reset.link i = LinkRegs.reset := by
  simp only [State.link, State.reset, List.getElem?_replicate]
  split <;> rfl

/-- No slot of reset holds anything (R123). -/
theorem slot_reset (c i : Nat) : State.reset.slot c i = Slot.reset := rfl

/-- A barrier of the package is OFF at reset (R305): the table of them is empty. -/
theorem barrier_reset {level : Nat} (h : 2 ≤ level) (inst index : Nat) : State.reset.barrier level inst index = Barrier.off := by
  obtain ⟨k, rfl⟩ := Nat.exists_eq_add_of_le' h
  rfl

/-- Settles O59: the fields of State.reset one by one; the links, barriers, slots and queues by the lemmas above. -/
theorem resetValues : Obligations.ResetValues := by
  have links : ∀ i, i < 12 → (State.reset.link i).word 0x00 = 0x12020 ∧ (State.reset.link i).word 0x04 = 0 ∧ (State.reset.link i).word 0x18 = 16 := by
    intro i _
    rw [link_reset]
    decide
  have barriers : ∀ l i x, 2 ≤ l → (State.reset.barrier l i x).on = false := by
    intro l i x h
    rw [barrier_reset h]
    rfl
  have slots : ∀ c i, (State.reset.slot c i).st = .empty := by
    intro c i
    rw [slot_reset]
    rfl
  have words : State.reset.fabric.word 0x08 = 0x76543210 ∧ State.reset.fabric.word 0x10 = 2000 ∧ State.reset.fabric.word 0x1C = 0 ∧
      State.reset.bringup.word = 0 := by decide
  obtain ⟨planemap, timeout, rekey, bringup⟩ := words
  exact ⟨rfl, wf_reset, rfl, rfl, rfl, rfl, rfl, rfl, rfl, rfl, rfl, rfl, rfl, rfl, links, barriers, slots, planemap, timeout, rekey,
    rfl, rfl, rfl, fun q _ => queue_reset q, bringup, rfl, rfl, rfl, rfl, rfl, rfl⟩

end Sys2Proof.Machine
end

section
/-! A package reset (R16, R426, R448): what it leaves of the host's memory, and which images the boot ROM refuses. -/

namespace Sys2Proof.Machine

variable {β : Type}

/-- A list kept by key: the keys that pass read as before, the others as absent. -/
theorem sget_filter_key (m : Sparse β) (p : Nat → Bool) (a : Nat) : sget (m.filter (fun e => p e.1)) a = if p a then sget m a else none := by
  induction m with
  | nil => simp [sget]
  | cons e r ih =>
    obtain ⟨j, v⟩ := e
    by_cases hj : a = j
    · subst hj
      by_cases hp : p a <;> simp [hp, sget, ih]
    · by_cases hp : p j <;> simp [hp, sget, hj, ih]

/-- The value read at a key stands in the list. -/
theorem mem_of_sget {m : Sparse β} {k : Nat} {v : β} (h : sget m k = some v) : (k, v) ∈ m := by
  induction m with
  | nil => simp [sget] at h
  | cons e r ih =>
    obtain ⟨j, w⟩ := e
    by_cases hk : k = j
    · subst hk
      obtain rfl : w = v := by simpa [sget] using h
      exact List.mem_cons_self ..
    · exact List.mem_cons_of_mem _ (ih (by simpa [sget, hk] using h))

/-- In a list whose keys rise, each entry is what its key reads. -/
theorem sget_of_mem {m : Sparse β} (wf : m.wf = true) {k : Nat} {v : β} (h : (k, v) ∈ m) : sget m k = some v := by
  induction m with
  | nil => simp at h
  | cons e r ih =>
    obtain ⟨above, wfr⟩ := (wf_cons _ _).mp wf
    rcases List.mem_cons.mp h with rfl | h
    · simp [sget]
    · have : e.1 < k := above _ h
      rw [sget, if_neg (by omega)]
      exact ih wfr h

/-- Lines written one after another leave the bytes of every other line. -/
theorem zget_writeLines_other {es : Sparse DirLine} {a : Nat} (full : ∀ e ∈ es, e.2.back.length = 128) (other : ∀ e ∈ es, e.1 ≠ lineOf a)
    (m : List Host.Cell) : zget (es.foldl (fun m e => zwrite m (128 * e.1) e.2.back) m) a = zget m a := by
  induction es generalizing m with
  | nil => rfl
  | cons e r ih =>
    have outside : ¬ (128 * e.1 ≤ a ∧ a < 128 * e.1 + e.2.back.length) := by
      have hl := full e (List.mem_cons_self ..)
      have hn := other e (List.mem_cons_self ..)
      unfold lineOf at hn
      omega
    rw [List.foldl_cons, ih (fun x hx => full x (List.mem_cons_of_mem _ hx)) (fun x hx => other x (List.mem_cons_of_mem _ hx)),
      zget_zwrite, if_neg outside]

/-- Lines written one after another, none twice: each byte of one of them reads as written. -/
theorem zget_writeLines_same {es : Sparse DirLine} {a : Nat} {d : DirLine} (wf : es.wf = true) (full : ∀ e ∈ es, e.2.back.length = 128)
    (h : (lineOf a, d) ∈ es) (m : List Host.Cell) :
    d.back[a % 128]? = some (zget (es.foldl (fun m e => zwrite m (128 * e.1) e.2.back) m) a) := by
  induction es generalizing m with
  | nil => simp at h
  | cons e r ih =>
    obtain ⟨above, wfr⟩ := (wf_cons _ _).mp wf
    have fullr : ∀ x ∈ r, x.2.back.length = 128 := fun x hx => full x (List.mem_cons_of_mem _ hx)
    rw [List.foldl_cons]
    rcases List.mem_cons.mp h with rfl | h
    · have hl : d.back.length = 128 := full _ (List.mem_cons_self ..)
      have inside : 128 * lineOf a ≤ a ∧ a < 128 * lineOf a + d.back.length := by unfold lineOf; omega
      have place : a - 128 * lineOf a = a % 128 := by unfold lineOf; omega
      have lt : a % 128 < d.back.length := by omega
      rw [zget_writeLines_other fullr (fun x hx => Nat.ne_of_gt (above x hx)), zget_zwrite, if_pos inside, place]
      simp [lt]
    · exact ih wfr fullr h _

/-- A line of the directory that a package reset loses (R426): dirty, and of the host's memory. -/
def lostAtReset (e : Nat × DirLine) : Bool := e.2.dirty && decide (hostBase ≤ 128 * e.1)

/-- The host's memory after a reset: its bytes, and over them what the homes of the lines it loses have. -/
theorem hostMemory_eq (s : State) : s.hostMemory = (s.dir.filter lostAtReset).foldl (fun m e => zwrite m (128 * e.1) e.2.back)
    (s.mem.filter (fun c => decide (hostBase ≤ c.1))) := rfl

/-- What stays of the memory before the homes' bytes: the host's. -/
theorem zget_hostPart (m : List Host.Cell) (a : Nat) :
    zget (m.filter (fun c => decide (hostBase ≤ c.1))) a = if hostBase ≤ a then zget m a else 0 := by
  unfold zget sgetD
  rw [sget_filter_key m (fun k => decide (hostBase ≤ k))]
  by_cases h : hostBase ≤ a <;> simp [h]

/-- The line of a byte of the host's memory is of the host's memory, and of no other. -/
theorem hostBase_le_line (a : Nat) : hostBase ≤ 128 * lineOf a ↔ hostBase ≤ a := by
  unfold hostBase lineOf
  omega

/-- The home of every line that a reset loses still has all of its bytes. -/
def State.homesFull (s : State) : Prop := ∀ e ∈ s.dir, e.2.dirty = true → hostBase ≤ 128 * e.1 → e.2.back.length = 128

/-- The same of the lines picked out. -/
theorem lostAtReset_full {s : State} (full : s.homesFull) :
    ∀ e ∈ s.dir.filter lostAtReset, e.2.back.length = 128 := by
  intro e he
  obtain ⟨hm, hu⟩ := List.mem_filter.mp he
  simp only [lostAtReset, Bool.and_eq_true, decide_eq_true_eq] at hu
  exact full e hm hu.1 hu.2

/-- A byte of a line that is not lost: of the host's memory it is as it was, of HBM it is 0 (log entry 2). -/
theorem hostMemory_other {s : State} {a : Nat} (full : s.homesFull)
    (other : ∀ e ∈ s.dir.filter lostAtReset, e.1 ≠ lineOf a) : zget s.hostMemory a = if hostBase ≤ a then zget s.mem a else 0 := by
  rw [hostMemory_eq, zget_writeLines_other (lostAtReset_full full) other, zget_hostPart]

/-- HBM reads 0 after a reset. -/
theorem hostMemory_hbm {s : State} (full : s.homesFull)
    {a : Nat} (h : a < hostBase) : zget s.hostMemory a = 0 := by
  have other : ∀ e ∈ s.dir.filter lostAtReset, e.1 ≠ lineOf a := by
    intro e he hl
    obtain ⟨-, hu⟩ := List.mem_filter.mp he
    simp only [lostAtReset, Bool.and_eq_true, decide_eq_true_eq, hl, hostBase_le_line] at hu
    omega
  rw [hostMemory_other full other, if_neg (by omega)]

/-- A byte of the host's memory whose line no L2 holds dirty stays. -/
theorem hostMemory_clean {s : State} (wf : s.dir.wf = true) (full : s.homesFull)
    {a : Nat} (h : hostBase ≤ a) (clean : s.dirtyLine (lineOf a) = false) : zget s.hostMemory a = zget s.mem a := by
  have other : ∀ e ∈ s.dir.filter lostAtReset, e.1 ≠ lineOf a := by
    intro e he hl
    obtain ⟨hm, hu⟩ := List.mem_filter.mp he
    have hd : sget s.dir (lineOf a) = some e.2 := hl ▸ sget_of_mem wf hm
    simp only [lostAtReset, Bool.and_eq_true] at hu
    simp [State.dirtyLine, hd, hu.1] at clean
  rw [hostMemory_other full other, if_pos h]

/-- A byte of the host's memory whose line an L2 holds dirty is what the home still has (R426). -/
theorem hostMemory_dirty {s : State} (wf : s.dir.wf = true) (full : s.homesFull)
    {a : Nat} {d : DirLine} (h : hostBase ≤ a) (hd : sget s.dir (lineOf a) = some d) (dirty : d.dirty = true) :
    d.back[a % 128]? = some (zget s.hostMemory a) := by
  have mem : (lineOf a, d) ∈ s.dir.filter lostAtReset := by
    refine List.mem_filter.mpr ⟨mem_of_sget hd, ?_⟩
    simp [lostAtReset, dirty, (hostBase_le_line a).mpr h]
  exact zget_writeLines_same (wf_filter wf _) (lostAtReset_full full) mem _

/-- The boot ROM refuses the controller's images when some image fails one of its checks (R448). -/
theorem refuses_iff (c : Controller) : c.refuses = true ↔ ∃ f ∈ c.firmware, ¬ (Config.verify f.key (Config.sha3 f.bytes) f.signature = true ∧
    Config.sha3 f.key = c.keyDigest ∧ c.minVersion ≤ f.version) := by
  simp only [Controller.refuses, List.any_eq_true, Bool.not_eq_true', ← Bool.not_eq_true, Controller.accepts, Bool.and_eq_true,
    beq_iff_eq, decide_eq_true_eq, and_assoc]

/-- No minimum written, none raised (R448). -/
theorem Controller.raise_zero (c : Controller) : c.raise 0 = c := by simp [Controller.raise]

/-- The step of a package reset: the least version raised by what came with it, then the reset. -/
theorem exec_packageReset {s : State} {raised : Option Nat}
    (h : s.input = some (.packageReset raised) ∨ (raised = none ∧ ∀ r, s.input ≠ some (.packageReset r))) :
    exec .packageReset s = .next { s with controller := s.controller.raise (raised.getD 0) }.packageReset := by
  show execPackageReset s = _
  rcases raised with - | v
  · rw [Option.getD_none, Controller.raise_zero]
    unfold execPackageReset
    split
    · next w hw => simp [hw] at h
    · rfl
  · obtain h | ⟨h, -⟩ := h
    · simp [execPackageReset, h]
    · cases h

end Sys2Proof.Machine
end

section
/-! The phases of bring-up (R440, R441): what the links and ports have come to, and when a phase can end. -/

namespace Sys2Proof.Machine

/-- The die links' result, once none trains (R441). -/
def State.linksResult (s : State) : Nat :=
  if ∃ d ∈ List.range 6, ∀ i ∈ dieLinks d, (s.link i).down = true then 3
  else if ∃ k ∈ s.links, k.down = true ∨ ∃ w ∈ k.widths, w ≠ 0 then 2 else 1

/-- The Ilpaip's result, once no port trains (R441). -/
def State.portsResult (s : State) : Nat := if 0 ∈ s.fabric.ports then 2 else 1

/-- A phase's result, once nothing of it trains (R441). -/
def State.settledResult (s : State) (phase result : Nat) : Nat :=
  if phase = 1 then s.linksResult else if phase = 2 then s.portsResult else result

/-- A phase that waits for a link or a port that trains (R441). -/
def State.phaseTrains (s : State) (phase : Nat) : Prop := (phase = 1 ∧ ∃ k ∈ s.links, k.busy = true) ∨ (phase = 2 ∧ 1 ∈ s.fabric.ports)

/-- The phase of the die links ends once none of them trains. -/
theorem linksPhase_eq (s : State) : (s.linksPhase = none ∧ ∃ k ∈ s.links, k.busy = true) ∨
    (s.linksPhase = some s.linksResult ∧ ¬ ∃ k ∈ s.links, k.busy = true) := by
  have busy : s.links.any LinkRegs.busy = true ↔ ∃ k ∈ s.links, k.busy = true := List.any_eq_true
  have cut : (List.range 6).any s.cutOff = true ↔ ∃ d ∈ List.range 6, ∀ i ∈ dieLinks d, (s.link i).down = true := by
    simp only [List.any_eq_true, State.cutOff, List.all_eq_true]
  have worse : s.links.any (fun k => k.down || k.widths.any (fun w => w != 0)) = true ↔
      ∃ k ∈ s.links, k.down = true ∨ ∃ w ∈ k.widths, w ≠ 0 := by
    simp only [List.any_eq_true, Bool.or_eq_true, bne_iff_ne]
  unfold State.linksPhase State.linksResult
  simp only [busy, cut, worse]
  by_cases hb : ∃ k ∈ s.links, k.busy = true
  · exact .inl ⟨if_pos hb, hb⟩
  · refine .inr ⟨?_, hb⟩
    rw [if_neg hb, apply_ite some, apply_ite some]

/-- The phase of the Ilpaip ends once no port trains. -/
theorem portsPhase_eq (s : State) : (s.portsPhase = none ∧ 1 ∈ s.fabric.ports) ∨ (s.portsPhase = some s.portsResult ∧ 1 ∉ s.fabric.ports) := by
  have some_port (n : Nat) : s.fabric.ports.any (fun p => p == n) = true ↔ n ∈ s.fabric.ports := by simp
  unfold State.portsPhase State.portsResult
  simp only [some_port]
  by_cases h : 1 ∈ s.fabric.ports
  · exact .inl ⟨if_pos h, h⟩
  · refine .inr ⟨?_, h⟩
    rw [if_neg h, apply_ite some]

/-- A phase of which something trains has no result yet, any other its settled one. -/
theorem phaseEnd_eq (s : State) (phase result : Nat) : (s.phaseEnd phase result = none ∧ s.phaseTrains phase) ∨
    (s.phaseEnd phase result = some (s.settledResult phase result) ∧ ¬ s.phaseTrains phase) := by
  unfold State.phaseEnd
  split
  · simpa [State.phaseTrains, State.settledResult] using linksPhase_eq s
  · simpa [State.phaseTrains, State.settledResult] using portsPhase_eq s
  · next h1 h2 =>
    refine .inr ⟨?_, ?_⟩
    · rw [State.settledResult, if_neg h1, if_neg h2]
    · rintro (⟨e, -⟩ | ⟨e, -⟩)
      · exact h1 e
      · exact h2 e

/-- The die links' result is one of two bits. -/
theorem linksResult_lt (s : State) : s.linksResult < 4 := by
  unfold State.linksResult
  split
  · decide
  · split <;> decide

/-- The Ilpaip's result is one of two bits. -/
theorem portsResult_lt (s : State) : s.portsResult < 4 := by
  unfold State.portsResult
  split <;> decide

/-- A settled result is one of two bits. -/
theorem settledResult_lt (s : State) (phase : Nat) (result : BitVec 2) : s.settledResult phase result.toNat < 4 := by
  unfold State.settledResult
  split
  · exact linksResult_lt s
  · split
    · exact portsResult_lt s
    · exact result.isLt

/-- The results a phase can have: the die links' phase any, HBM's none degraded, the later ones none failed (R441). -/
theorem phaseResult_iff {phase r : Nat} (h : r < 4) : phaseResult phase r = true ↔ r ≠ 0 ∧ (phase = 0 → r ≠ 2) ∧ (2 ≤ phase → r ≠ 3) := by
  match phase with
  | 0 => simp [phaseResult]; omega
  | 1 => simp [phaseResult]
  | n + 2 => simp [phaseResult]; omega

/-- No phase before one is at 00. -/
theorem earlier_ended {phases : List Nat} {phase : Nat} (h : phase ≤ phases.length) :
    (phases.take phase).any (fun x => x == 0) = false ↔ ∀ p, p < phase → phases.getD p 0 ≠ 0 := by
  have result_at {p : Nat} (hp : p < phases.length) : phases.getD p 0 = phases[p] := by
    rw [List.getD_eq_getElem?_getD, List.getElem?_eq_getElem hp, Option.getD_some]
  rw [← Bool.not_eq_true, List.any_eq_true]
  constructor
  · intro none p hp h0
    refine none ⟨phases.getD p 0, ?_, by simpa using h0⟩
    rw [result_at (by omega)]
    exact List.mem_take_iff_getElem.mpr ⟨p, by omega, rfl⟩
  · rintro all ⟨x, hx, h0⟩
    obtain ⟨p, hp, rfl⟩ := List.mem_take_iff_getElem.mp hx
    refine all p (by omega) ?_
    rw [result_at (by omega)]
    simpa using h0

/-- When the phase in question can end with its settled result (R440, R441, R448). -/
def State.phaseMay (s : State) (phase r : Nat) : Prop :=
  ¬ s.phaseTrains phase ∧ s.bringup.refused = false ∧ phase < 5 ∧ s.bringup.phases.getD phase 0 = 0 ∧
    (∀ p, p < phase → s.bringup.phases.getD p 0 ≠ 0) ∧ r ≠ 0 ∧ (phase = 0 → r ≠ 2) ∧ (2 ≤ phase → r ≠ 3)

/-- Nothing keeps a phase from ending, as the step tests it, once nothing of it trains. -/
theorem phaseMay_iff {s : State} {phase r : Nat} (len : s.bringup.phases.length = 5) (hr : r < 4) (ht : ¬ s.phaseTrains phase) :
    (s.bringup.refused || 5 ≤ phase || !phaseResult phase r || s.bringup.phases.getD phase 0 != 0 ||
      (s.bringup.phases.take phase).any (fun x => x == 0)) = false ↔ s.phaseMay phase r := by
  simp only [Bool.or_eq_false_iff, decide_eq_false_iff_not, Bool.not_eq_false', Nat.not_le, bne_eq_false_iff_eq, phaseResult_iff hr, State.phaseMay]
  constructor
  · rintro ⟨⟨⟨⟨refused, lt⟩, res⟩, at0⟩, before⟩
    exact ⟨ht, refused, lt, at0, (earlier_ended (by omega)).mp before, res⟩
  · rintro ⟨-, refused, lt, at0, before, res⟩
    exact ⟨⟨⟨⟨refused, lt⟩, res⟩, at0⟩, (earlier_ended (by omega)).mpr before⟩

/-- BRINGUP_PHASE_DONE: a phase that may end does, with its settled result; any other stays as it is. -/
theorem exec_bringupPhaseDone {s : State} {phase : Nat} {result : BitVec 2} (h : s.input = some (.bringupPhaseDone phase result))
    (len : s.bringup.phases.length = 5) :
    let r := s.settledResult phase result.toNat
    (s.phaseMay phase r → exec .bringupPhaseDone s = .next { s with
      bringup := { s.bringup with phases := s.bringup.phases.set phase r, failed := s.bringup.failed || r == 3, done := phase == 4 },
      host := { s.host with up := s.host.up || phase == 4 } }) ∧
    (¬ s.phaseMay phase r → exec .bringupPhaseDone s = .next s) := by
  have run : exec .bringupPhaseDone s = execBringupPhaseDone s := rfl
  rw [run]
  unfold execBringupPhaseDone
  simp only [h]
  rcases phaseEnd_eq s phase result.toNat with ⟨hn, ht⟩ | ⟨hs, ht⟩
  · simp only [hn]
    exact ⟨fun may => absurd ht may.1, fun _ => trivial⟩
  · have test := phaseMay_iff len (settledResult_lt s phase result) ht
    simp only [hs]
    exact ⟨fun may => if_neg (Bool.eq_false_iff.mp (test.mpr may)),
      fun no => if_pos (Bool.of_not_eq_false (fun h => no (test.mp h)))⟩

end Sys2Proof.Machine
end

section
/-! DRVACCEPT (R442, R443): the features that are kept, the pod that settles, what the ports announce, and the device information page. -/

namespace Sys2Proof.Machine

/-- What announcing changes: the fabric's announcements and keys, what leaves or waits for a port, and the agenda. -/
def State.Announces (s t : State) : Prop :=
  t = { s with fabric := { s.fabric with announcing := t.fabric.announcing, keys := t.fabric.keys }, sent := t.sent, waiting := t.waiting, agenda := t.agenda }

theorem announces_trans {s t u : State} (h : s.Announces t) (k : t.Announces u) : s.Announces u := by
  unfold State.Announces at h k ⊢
  rw [h] at k
  exact k

/-- A direction's keys are changed, and nothing else. -/
theorem modKeys_announces (s : State) (port : Nat) (tx : Bool) (f : KeyDir → KeyDir) : s.Announces (s.modKeys port tx f) := rfl

/-- A group counted changes the keys, and the agenda where a rekey is due. -/
theorem countGroup_announces (s : State) (port : Nat) (tx : Bool) : s.Announces (s.countGroup port tx) := by
  simp only [State.countGroup]
  split <;> rfl

/-- A group counted leaves what has been announced. -/
theorem countGroup_announcing (s : State) (port : Nat) (tx : Bool) : (s.countGroup port tx).fabric.announcing = s.fabric.announcing := by
  simp only [State.countGroup]
  split <;> rfl

/-- A flit that leaves by a port, or waits for one. -/
theorem sendFlit_announces (s : State) (port : Nat) (o : Outgoing) : s.Announces (s.sendFlit port o) := by
  simp only [State.sendFlit, State.leave]
  repeat' split
  · rfl
  · exact announces_trans (t := { s with sent := .flit _ o.class (s.fabric.txGen _) o :: s.sent }) rfl (countGroup_announces ..)
  · rfl
  · rfl

/-- A flit sent leaves what has been announced. -/
theorem sendFlit_announcing (s : State) (port : Nat) (o : Outgoing) : (s.sendFlit port o).fabric.announcing = s.fabric.announcing := by
  simp only [State.sendFlit, State.leave]
  repeat' split
  · rfl
  · exact countGroup_announcing ..
  · rfl
  · rfl

/-- A port's announcement changes no more than that (R443). -/
theorem announce_announces (s : State) (port : Nat) : s.Announces (s.announce port) := by
  unfold State.announce
  split
  · exact announces_trans (t := { s with fabric := { s.fabric with announcing := port :: s.fabric.announcing } }) rfl (sendFlit_announces ..)
  · rfl

/-- With the Ilpaip accepted, a port that announces joins those that have (R443). -/
theorem announce_announcing {s : State} (h : s.accepted 1 = true) (port : Nat) :
    (s.announce port).fabric.announcing = port :: s.fabric.announcing := by
  unfold State.announce
  rw [if_pos (show (s.bringup.accepted && bitOf s.bringup.drvaccept 1) = true from h), sendFlit_announcing]

/-- Without it no port announces. -/
theorem announce_refused {s : State} (h : s.accepted 1 = false) (port : Nat) : s.announce port = s := by
  unfold State.announce
  exact if_neg (by rw [show (s.bringup.accepted && bitOf s.bringup.drvaccept 1) = false from h]; simp)

/-- The ports of a list that are UP announce, in its order (R443). -/
def State.announceAll (s : State) (ports : List Nat) : State :=
  ports.foldl (fun t p => if t.fabric.ports.getD p 0 = 2 then t.announce p else t) s

theorem announceAll_cons (s : State) (p : Nat) (ps : List Nat) :
    s.announceAll (p :: ps) = (if s.fabric.ports.getD p 0 = 2 then s.announce p else s).announceAll ps := rfl

/-- One port of the list. -/
theorem announceOne_announces (s : State) (p : Nat) : s.Announces (if s.fabric.ports.getD p 0 = 2 then s.announce p else s) := by
  split
  · exact announce_announces s p
  · rfl

theorem announceAll_announces (ps : List Nat) (s : State) : s.Announces (s.announceAll ps) := by
  induction ps generalizing s with
  | nil => rfl
  | cons p ps ih => exact announces_trans (announceOne_announces s p) (ih _)

/-- Announcing changes neither the ports nor what has been accepted. -/
theorem announces_ports {s t : State} (h : s.Announces t) : t.fabric.ports = s.fabric.ports := by rw [h]

theorem announces_pkgid {s t : State} (h : s.Announces t) : t.pkgid = s.pkgid := by rw [h]

theorem announces_podsize {s t : State} (h : s.Announces t) : t.podsize = s.podsize := by rw [h]

theorem announces_accepted {s t : State} (h : s.Announces t) (bit : Nat) : t.accepted bit = s.accepted bit := by rw [h]; rfl

/-- Without the Ilpaip accepted nothing happens. -/
theorem announceAll_refused {s : State} (h : s.accepted 1 = false) (ps : List Nat) : s.announceAll ps = s := by
  induction ps with
  | nil => rfl
  | cons p ps ih => rw [announceAll_cons, announce_refused h, ite_self, ih]

/-- With the Ilpaip accepted, what has been announced stays, and every port of the list that is UP joins. -/
theorem mem_announceAll {ps : List Nat} {s : State} (h : s.accepted 1 = true) {q : Nat}
    (hq : q ∈ s.fabric.announcing ∨ (q ∈ ps ∧ s.fabric.ports.getD q 0 = 2)) : q ∈ (s.announceAll ps).fabric.announcing := by
  induction ps generalizing s with
  | nil => simpa [State.announceAll] using hq
  | cons p ps ih =>
    have one := announceOne_announces s p
    rw [announceAll_cons]
    refine ih (by rw [announces_accepted one, h]) ?_
    rw [announces_ports one]
    by_cases up : s.fabric.ports.getD p 0 = 2
    · rw [if_pos up, announce_announcing h]
      rcases hq with hq | ⟨hq, hu⟩
      · exact .inl (List.mem_cons_of_mem _ hq)
      · rcases List.mem_cons.mp hq with rfl | hq
        · exact .inl (List.mem_cons_self ..)
        · exact .inr ⟨hq, hu⟩
    · rw [if_neg up]
      rcases hq with hq | ⟨hq, hu⟩
      · exact .inl hq
      · rcases List.mem_cons.mp hq with rfl | hq
        · exact absurd hu up
        · exact .inr ⟨hq, hu⟩

/-- The features kept of what a write to DRVACCEPT asks for (R442): those the part has, ST2110 only with ETH. -/
def keptFeatures (v : BitVec 64) : Nat :=
  if bitOf (v.toNat &&& features0) 2 then v.toNat &&& features0 else v.toNat &&& features0 &&& 0x17

theorem bitOf_eq_testBit (v n : Nat) : bitOf v n = v.testBit n := by
  rw [bitOf, Nat.testBit_eq_decide_div_mod_eq]
  rfl

/-- The part has the features 0 to 4 (R440). -/
theorem testBit_features0 (i : Nat) : features0.testBit i = decide (i < 5) := Nat.testBit_two_pow_sub_one 5 i

/-- Of the five features, 0x17 leaves out ST2110, bit 3. -/
theorem testBit_without3 {i : Nat} (h : i < 5) : Nat.testBit 0x17 i = decide (i ≠ 3) := by
  revert i
  decide

theorem bitOf_keptFeatures (v : BitVec 64) (i : Nat) :
    bitOf (keptFeatures v) i = true ↔ (i < 5 ∧ v.getLsbD i = true ∧ (i = 3 → v.getLsbD 2 = true)) := by
  have kept (j : Nat) : (v.toNat &&& features0).testBit j = (v.getLsbD j && decide (j < 5)) := by
    rw [Nat.testBit_and, testBit_features0, BitVec.testBit_toNat]
  have eth : (v.toNat &&& features0).testBit 2 = v.getLsbD 2 := by rw [kept]; simp
  unfold keptFeatures
  rw [bitOf_eq_testBit, bitOf_eq_testBit, eth]
  cases h2 : v.getLsbD 2
  · rw [if_neg Bool.false_ne_true, Nat.testBit_and, kept]
    by_cases h5 : i < 5
    · simp [h5, testBit_without3 h5]
    · simp [h5]
  · rw [if_pos rfl, kept]
    simp [and_comm]

/-- The features kept fit in five bits. -/
theorem keptFeatures_lt (v : BitVec 64) : keptFeatures v < 2 ^ 5 := by
  have h : v.toNat &&& features0 < 2 ^ 5 := Nat.lt_of_le_of_lt Nat.and_le_right (by decide)
  unfold keptFeatures
  split
  · exact h
  · exact Nat.lt_of_le_of_lt Nat.and_le_left h

/-- A field of n bytes at the head of a page, and the page after it. -/
theorem leNat_take_field (n v : Nat) (rest : List Byte) : leNat ((natLe n v ++ rest).take n) = v % 256 ^ n := by
  rw [List.take_left' (natLe_length n v), leNat_natLe]

theorem drop_field (n m v : Nat) (rest : List Byte) : (natLe n v ++ rest).drop (n + m) = rest.drop m := by
  rw [← List.drop_drop, List.drop_left' (natLe_length n v)]

/-- The first fields of the device information page (R22): the rest follows them. -/
theorem infoBytes_fields (s : State) (accept : Nat) : ∃ rest, s.infoBytes accept =
    natLe 4 0x1C090101 ++ (natLe 4 0x00010000 ++ (natLe 4 s.pkgid ++ (natLe 4 s.podsize ++ (natLe 8 accept ++ (natLe 8 1 ++ rest))))) := by
  simp only [State.infoBytes, List.append_assoc]
  exact ⟨_, rfl⟩

/-- What the page says of the part (R22): its identity, PKGID, PODSIZE, the features accepted, and the count after them. -/
theorem infoBytes_says (s : State) (accept : Nat) :
    leNat ((s.infoBytes accept).take 4) = 0x1C090101 ∧ leNat (((s.infoBytes accept).drop 8).take 4) = s.pkgid % 2 ^ 32 ∧
    leNat (((s.infoBytes accept).drop 12).take 4) = s.podsize % 2 ^ 32 ∧ leNat (((s.infoBytes accept).drop 16).take 8) = accept % 2 ^ 64 ∧
    leNat (((s.infoBytes accept).drop 24).take 8) = 1 := by
  obtain ⟨rest, h⟩ := infoBytes_fields s accept
  rw [h]
  refine ⟨leNat_take_field 4 _ _, ?_, ?_, ?_, ?_⟩
  · rw [drop_field 4 4, drop_field 4 0]
    exact leNat_take_field 4 _ _
  · rw [drop_field 4 8, drop_field 4 4, drop_field 4 0]
    exact leNat_take_field 4 _ _
  · rw [drop_field 4 12, drop_field 4 8, drop_field 4 4, drop_field 4 0]
    exact leNat_take_field 8 _ _
  · rw [drop_field 4 20, drop_field 4 16, drop_field 4 12, drop_field 4 8, drop_field 8 0]
    exact leNat_take_field 8 _ _

/-- The state once a write to DRVACCEPT has been taken, before any port announces (R442, R443). -/
def State.accepting (s : State) (v : BitVec 64) : State :=
  let pod := settledPod (bitOf (keptFeatures v) 1) s.pkgid s.podsize
  let t : State := { s with cfg := { s.cfg with lock := true }, pkgid := pod.1, podsize := pod.2,
                            bringup := { s.bringup with drvaccept := keptFeatures v, accepted := true } }
  { t with infoPage := some (t.infoBytes (keptFeatures v)) }

/-- DONE is clear, FAILED set, or a write already taken: the write is ignored (R442). -/
theorem drvaccept_ignored_iff : ∀ done failed accepted : Bool, (!done || failed || accepted) = true ↔
    ¬ (done = true ∧ failed = false ∧ accepted = false) := by decide

/-- A write to DRVACCEPT: taken once, after a good bring-up, when the ports that are UP announce; ignored otherwise. -/
theorem writeDrvaccept_eq (s : State) (v : BitVec 64) :
    s.writeDrvaccept v = if s.bringup.done = true ∧ s.bringup.failed = false ∧ s.bringup.accepted = false
      then (s.accepting v).announceAll (List.range 16) else s := by
  have ignored : (!s.bringup.done || s.bringup.failed || s.bringup.accepted) = true ↔
      ¬ (s.bringup.done = true ∧ s.bringup.failed = false ∧ s.bringup.accepted = false) := by
    exact drvaccept_ignored_iff ..
  by_cases may : s.bringup.done = true ∧ s.bringup.failed = false ∧ s.bringup.accepted = false
  · rw [if_pos may]
    exact if_neg (fun h => ignored.mp h may)
  · rw [if_neg may]
    exact if_pos (ignored.mpr may)

/-- What the write leaves of the pod without the Ilpaip, and with it (R443). -/
theorem accepting_pod_alone {s : State} {v : BitVec 64} (h : bitOf (keptFeatures v) 1 = false) :
    (s.accepting v).pkgid = 0 ∧ (s.accepting v).podsize = 1 := by
  simp [State.accepting, settledPod, h]

theorem accepting_pod {s : State} {v : BitVec 64} (h : bitOf (keptFeatures v) 1 = true) :
    (s.accepting v).podsize = max 1 (min 512 s.podsize) ∧
    (s.accepting v).pkgid = if (s.accepting v).podsize ≤ s.pkgid then 0 else s.pkgid := by
  simp [State.accepting, settledPod, h]

/-- The Ilpaip is accepted when its bit is kept. -/
theorem accepting_accepted (s : State) (v : BitVec 64) : (s.accepting v).accepted 1 = bitOf (keptFeatures v) 1 := rfl

/-- What the taken write leaves beside the pod, the page and what the ports announce. -/
theorem accepting_announceAll (s : State) (v : BitVec 64) (ps : List Nat) :
    let t := (s.accepting v).announceAll ps
    t = { s with cfg := { s.cfg with lock := true }, pkgid := t.pkgid, podsize := t.podsize,
                 infoPage := some ((s.accepting v).infoBytes (keptFeatures v)),
                 bringup := { s.bringup with drvaccept := keptFeatures v, accepted := true },
                 fabric := { s.fabric with announcing := t.fabric.announcing, keys := t.fabric.keys }, sent := t.sent, waiting := t.waiting,
                 agenda := t.agenda } := by
  intro t
  have frame : (s.accepting v).Announces t := announceAll_announces ps (s.accepting v)
  rw [announces_pkgid frame, announces_podsize frame]
  exact frame

end Sys2Proof.Machine
end

section
/-! Writes to the registers of the package (R5, R97, R198, R217, R398, R440). -/

namespace Sys2Proof.Machine

/-- MEMSPLIT is locked, a wave is on a core, or an engine works (R97). -/
theorem memsplit_closed_iff (s : State) : (s.cfg.lock || s.waves.any (fun e => e.2.onCore) || s.engineLive) = true ↔
    s.cfg.lock = true ∨ (∃ e ∈ s.waves, e.2.onCore = true) ∨ s.engineLive = true := by
  simp only [Bool.or_eq_true, List.any_eq_true, or_assoc]

/-- MEMSPLIT_WRITE, by whether the register is open (R97). -/
theorem exec_memsplitWrite {s : State} {v : Word} (h : s.input = some (.memsplitWrite v)) : exec .memsplitWrite s = .next (s.writeMemsplit v) := by
  show execMemsplitWrite s = _
  simp only [execMemsplitWrite, h]

/-- A 4-byte write that is not aligned does nothing. -/
theorem exec_registerWrite_misaligned {s : State} {off : Nat} {v : BitVec 64} (h : s.input = some (.registerWrite off 4 v)) (ha : off % 4 ≠ 0) :
    exec .registerWrite s = .next s := by
  show execRegisterWrite s = _
  simp [execRegisterWrite, h, ha]

/-- An aligned 4-byte write within the registers writes its word. -/
theorem exec_registerWrite_word {s : State} {off : Nat} {v : Word} (h : s.input = some (.registerWrite off 4 (v.setWidth 64)))
    (ha : off % 4 = 0) (hr : off < 2 ^ 32) : exec .registerWrite s = .next (s.mmioWordWrite off v) := by
  have low : (v.setWidth 64).extractLsb' 0 32 = v := by
    ext i hi
    simp [show i < 64 by omega, BitVec.getLsbD_eq_getElem hi]
  show execRegisterWrite s = _
  simp [execRegisterWrite, h, ha, State.mmioWrite, low, show off < 4294967296 from hr]

/-- The low word of CTXROOT replaced: its upper 24 bits stay (R97). -/
theorem root_low (c : MemCfg) (v : Word) :
    bitsOf (setHalf c.root false v.toNat) 55 12 = c.ctxroot / 2 ^ 20 % 2 ^ 24 * 2 ^ 20 + wbits v 31 12 := by
  have hv := v.isLt
  have hb : bitAt c.xlaten 0 ≤ 1 := by unfold bitAt; split <;> simp
  simp only [bitsOf, setHalf, MemCfg.root, wbits, Bool.false_eq_true, if_false]
  omega

/-- Two ranges that share no unit. -/
theorem overlaps_eq_false_iff (a n b m : Nat) : overlaps a n b m = false ↔ a + n ≤ b ∨ b + m ≤ a := by
  simp only [overlaps, Bool.and_eq_false_iff, decide_eq_false_iff_not]
  omega

/-- A frame is sound when it is aligned local HBM that overlaps no frame of the pool (R398). -/
theorem frame_sound_iff (s : State) (f : Frame) :
    (pkgOf f.pa == s.pkgid && decide (localOf f.pa + f.bytes ≤ hbmEnd) && f.pa % f.bytes == 0 &&
      !s.pool.any (fun g => overlaps f.pa f.bytes g.pa g.bytes)) = true ↔
    pkgOf f.pa = s.pkgid ∧ localOf f.pa + f.bytes ≤ hbmEnd ∧ f.pa % f.bytes = 0 ∧
      ∀ g ∈ s.pool, f.pa + f.bytes ≤ g.pa ∨ g.pa + g.bytes ≤ f.pa := by
  simp only [Bool.and_eq_true, beq_iff_eq, decide_eq_true_eq, Bool.not_eq_true', List.any_eq_false, Bool.not_eq_true,
    overlaps_eq_false_iff, and_assoc]

/-- GRANT_POOL_ADD (R398). -/
theorem exec_grantPoolAdd {s : State} {v : BitVec 64} (h : s.input = some (.grantPoolAdd v)) : exec .grantPoolAdd s = .next (s.addFrame v) := by
  show execGrantPoolAdd s = _
  simp only [execGrantPoolAdd, h]

/-- DRVACCEPT_WRITE (R442). -/
theorem exec_drvacceptWrite {s : State} {v : BitVec 64} (h : s.input = some (.drvacceptWrite v)) :
    exec .drvacceptWrite s = .next (s.writeDrvaccept v) := by
  show execDrvacceptWrite s = _
  simp only [execDrvacceptWrite, h]

end Sys2Proof.Machine
end

section
/-! O50, clause by clause. -/

namespace Sys2Proof.Machine

/-- Settles O50: what a reset leaves is State.packageReset field by field, its memory by the directory's dirty lines; a phase's end by what
its links and ports have come to; a write to DRVACCEPT by the features kept and what the ports announce; the registers one by one. -/
theorem packageStarts : Obligations.PackageStarts := by
  unfold Obligations.PackageStarts
  refine ⟨?reset, ⟨?phases, ?accept⟩, ?memsplit, ?registers, ?pool⟩
  case reset =>
    intro s raised h
    refine ⟨_, exec_packageReset h, rfl, refuses_iff _, ?_, ?_⟩
    · intro i k hk
      simp [State.packageReset, hk, LinkRegs.packageReset]
    · intro wf full
      exact ⟨fun _ => hostMemory_hbm full, fun _ => hostMemory_clean wf full, fun _ _ => hostMemory_dirty wf full⟩
  case phases =>
    intro s phase result h len
    exact exec_bringupPhaseDone h len
  case accept =>
    intro s v h
    have run := exec_drvacceptWrite h
    rw [writeDrvaccept_eq] at run
    refine ⟨fun no => by rw [run, if_neg no], fun may => ?_⟩
    rw [if_pos may] at run
    have frame := accepting_announceAll s v (List.range 16)
    have announces := announceAll_announces (List.range 16) (s.accepting v)
    obtain ⟨magic, pkgid, podsize, features, one⟩ := infoBytes_says (s.accepting v) (keptFeatures v)
    refine ⟨_, keptFeatures v, _, run, frame, bitOf_keptFeatures v, ?alone, ?pod, magic, ?_, ?_, ?_, one⟩
    case alone =>
      intro off
      rw [announceAll_refused (by rw [accepting_accepted, off])]
      obtain ⟨id, size⟩ := accepting_pod_alone (s := s) off
      exact ⟨id, size, rfl⟩
    case pod =>
      intro on
      obtain ⟨size, id⟩ := accepting_pod (s := s) on
      rw [announces_pkgid announces, announces_podsize announces]
      exact ⟨size, id, fun p hp up => mem_announceAll (by rw [accepting_accepted, on]) (.inr ⟨List.mem_range.mpr hp, up⟩)⟩
    · rw [announces_pkgid announces, pkgid]
    · rw [announces_podsize announces, podsize]
    · have := keptFeatures_lt v
      rw [features, Nat.mod_eq_of_lt (by omega)]
  case memsplit =>
    intro s v h
    rw [exec_memsplitWrite h]
    exact ⟨fun closed => congrArg _ (if_pos ((memsplit_closed_iff s).mpr closed)),
      fun open' => congrArg _ (if_neg (fun c => open' ((memsplit_closed_iff s).mp c)))⟩
  case registers =>
    intro s off v h
    have word := fun ha hr => exec_registerWrite_word h ha hr
    refine ⟨exec_registerWrite_misaligned h, ?ctxroot, ?evPort, ?timeout, ?authErr, ?rxDrop, ?ethMsgUdp, ?ptpLock, ?readOnly, ?pwrLimit, ?pkgid,
      ?podsize, ?gpReject⟩
    case ctxroot =>
      rintro rfl
      rw [← root_low]
      exact word (by decide) (by decide)
    case readOnly =>
      rintro (rfl | rfl | rfl) <;> exact word (by decide) (by decide)
    all_goals
      rintro rfl
      exact word (by decide) (by decide)
  case pool =>
    intro s v h
    rw [exec_grantPoolAdd h]
    exact ⟨fun sound => congrArg _ (if_pos ((frame_sound_iff s _).mpr sound)),
      fun unsound => congrArg _ (if_neg (fun c => unsound ((frame_sound_iff s _).mp c)))⟩

end Sys2Proof.Machine
end

section
/-! The decoder against the encoder (R25 to R48): O53 and O54. -/

namespace Sys2Proof.Laws

/-- Every instruction reads back from its word: the laws of the single instructions, one beside another. -/
theorem RoundTrip.every (i : Instr) : RoundTrip.Statement i := by
  cases i with
  | nop16 => exact RoundTrip.nop16 | movC16 d s => exact RoundTrip.movC16 d s | iaddC16 d s => exact RoundTrip.iaddC16 d s
  | isubC16 d s => exact RoundTrip.isubC16 d s | imulC16 d s => exact RoundTrip.imulC16 d s | andC16 d s => exact RoundTrip.andC16 d s
  | orC16 d s => exact RoundTrip.orC16 d s | xorC16 d s => exact RoundTrip.xorC16 d s | shlC16 d s => exact RoundTrip.shlC16 d s
  | shrlC16 d s => exact RoundTrip.shrlC16 d s | shraC16 d s => exact RoundTrip.shraC16 d s | faddC16 d s => exact RoundTrip.faddC16 d s
  | fmulC16 d s => exact RoundTrip.fmulC16 d s | fmaxC16 d s => exact RoundTrip.fmaxC16 d s | fminC16 d s => exact RoundTrip.fminC16 d s
  | isetltC16 d s => exact RoundTrip.isetltC16 d s | not d s => exact RoundTrip.not d s | pfx p => exact RoundTrip.pfx p
  | iadd d a b => exact RoundTrip.iadd d a b | isub d a b => exact RoundTrip.isub d a b | imul d a b => exact RoundTrip.imul d a b
  | imulhi d a b => exact RoundTrip.imulhi d a b | imulhu d a b => exact RoundTrip.imulhu d a b | imad d a b => exact RoundTrip.imad d a b
  | imin d a b => exact RoundTrip.imin d a b | imax d a b => exact RoundTrip.imax d a b | umin d a b => exact RoundTrip.umin d a b
  | umax d a b => exact RoundTrip.umax d a b | and d a b => exact RoundTrip.and d a b | or d a b => exact RoundTrip.or d a b
  | xor d a b => exact RoundTrip.xor d a b | andn d a b => exact RoundTrip.andn d a b | shl d a b => exact RoundTrip.shl d a b
  | shrl d a b => exact RoundTrip.shrl d a b | shra d a b => exact RoundTrip.shra d a b | rotl d a b => exact RoundTrip.rotl d a b
  | popc d a => exact RoundTrip.popc d a | clz d a => exact RoundTrip.clz d a | brev d a => exact RoundTrip.brev d a
  | bfe d a b => exact RoundTrip.bfe d a b | bfi d a b => exact RoundTrip.bfi d a b | sel d a b => exact RoundTrip.sel d a b
  | iseteq d a b => exact RoundTrip.iseteq d a b | isetne d a b => exact RoundTrip.isetne d a b | isetlt d a b => exact RoundTrip.isetlt d a b
  | isetle d a b => exact RoundTrip.isetle d a b | isetltu d a b => exact RoundTrip.isetltu d a b | isetleu d a b => exact RoundTrip.isetleu d a b
  | iabs d a => exact RoundTrip.iabs d a | iaddi d a imm => exact RoundTrip.iaddi d a imm | andi d a imm => exact RoundTrip.andi d a imm
  | ori d a imm => exact RoundTrip.ori d a imm | xori d a imm => exact RoundTrip.xori d a imm | shiShl d a n => exact RoundTrip.shiShl d a n
  | shiShrl d a n => exact RoundTrip.shiShrl d a n | shiShra d a n => exact RoundTrip.shiShra d a n | shiRotl d a n => exact RoundTrip.shiRotl d a n
  | isetiEq d a imm => exact RoundTrip.isetiEq d a imm | isetiNe d a imm => exact RoundTrip.isetiNe d a imm
  | isetiLt d a imm => exact RoundTrip.isetiLt d a imm | isetiLe d a imm => exact RoundTrip.isetiLe d a imm
  | isetiLtu d a imm => exact RoundTrip.isetiLtu d a imm | isetiLeu d a imm => exact RoundTrip.isetiLeu d a imm
  | movi d imm => exact RoundTrip.movi d imm | movhi d imm => exact RoundTrip.movhi d imm | ldl d imm => exact RoundTrip.ldl d imm
  | region imm => exact RoundTrip.region imm | movm v idx => exact RoundTrip.movm v idx | movmw v idx => exact RoundTrip.movmw v idx
  | movg v idx => exact RoundTrip.movg v idx | movgw v idx => exact RoundTrip.movgw v idx | movc v idx => exact RoundTrip.movc v idx
  | movtc v idx => exact RoundTrip.movtc v idx | ld v a size sem scope space hint => exact RoundTrip.ld v a size sem scope space hint
  | st v a size sem scope space hint => exact RoundTrip.st v a size sem scope space hint | ldo v a size off => exact RoundTrip.ldo v a size off
  | sto v a size off => exact RoundTrip.sto v a size off | lds v a size off => exact RoundTrip.lds v a size off
  | sts v a size off => exact RoundTrip.sts v a size off | atom d a b op scope => exact RoundTrip.atom d a b op scope
  | atoma d a b op scope => exact RoundTrip.atoma d a b op scope | atoml d a b op scope => exact RoundTrip.atoml d a b op scope
  | atomal d a b op scope => exact RoundTrip.atomal d a b op scope | fence scope kind dom => exact RoundTrip.fence scope kind dom
  | stmc d a b => exact RoundTrip.stmc d a b | malloc d a => exact RoundTrip.malloc d a | mfree a => exact RoundTrip.mfree a
  | cflush a b => exact RoundTrip.cflush a b | cinv a b => exact RoundTrip.cinv a b | pref a b => exact RoundTrip.pref a b
  | ldt d a b => exact RoundTrip.ldt d a b | stt d a b => exact RoundTrip.stt d a b
  | lcp s g size out slot ordered => exact RoundTrip.lcp s g size out slot ordered | tinit d a b => exact RoundTrip.tinit d a b
  | twait d a => exact RoundTrip.twait d a | tstat d a => exact RoundTrip.tstat d a | tready d a => exact RoundTrip.tready d a
  | tempty d a => exact RoundTrip.tempty d a | scmd d a => exact RoundTrip.scmd d a | sresume d a => exact RoundTrip.sresume d a
  | shalo d a => exact RoundTrip.shalo d a | spub d a => exact RoundTrip.spub d a | spoll d a b => exact RoundTrip.spoll d a b
  | tdef d a b => exact RoundTrip.tdef d a b | tundef d a => exact RoundTrip.tundef d a | scancel d a => exact RoundTrip.scancel d a
  | tld t p => exact RoundTrip.tld t p | tst t p => exact RoundTrip.tst t p | tzero t => exact RoundTrip.tzero t
  | tmma c a b ra rb => exact RoundTrip.tmma c a b ra rb | tmmaq c a b ra rb => exact RoundTrip.tmmaq c a b ra rb
  | tdrain t p => exact RoundTrip.tdrain t p | tcvt d a p => exact RoundTrip.tcvt d a p | ttrans d a => exact RoundTrip.ttrans d a
  | tfill d p => exact RoundTrip.tfill d p | mtask d a b => exact RoundTrip.mtask d a b | mtwait d a => exact RoundTrip.mtwait d a
  | mtstat d a => exact RoundTrip.mtstat d a | mtcancel d a => exact RoundTrip.mtcancel d a | kcreate d a b => exact RoundTrip.kcreate d a b
  | kclose d a b => exact RoundTrip.kclose d a b | kspawn d a => exact RoundTrip.kspawn d a | ksend d a b => exact RoundTrip.ksend d a b
  | krecv d a b => exact RoundTrip.krecv d a b | ktryrecv d a b => exact RoundTrip.ktryrecv d a b | kpost d a b => exact RoundTrip.kpost d a b
  | kwadd d a b => exact RoundTrip.kwadd d a b | kwdel d a b => exact RoundTrip.kwdel d a b | kwait d a b => exact RoundTrip.kwait d a b
  | karm d a b => exact RoundTrip.karm d a b | kdisarm d a => exact RoundTrip.kdisarm d a | klookup d a => exact RoundTrip.klookup d a
  | kname d a b => exact RoundTrip.kname d a b | kidle d a => exact RoundTrip.kidle d a | kwork d => exact RoundTrip.kwork d
  | ktime d => exact RoundTrip.ktime d | binit d a b => exact RoundTrip.binit d a b | barrive d a => exact RoundTrip.barrive d a
  | bwait d a b => exact RoundTrip.bwait d a b | bsync d a => exact RoundTrip.bsync d a | binval d a => exact RoundTrip.binval d a
  | bz c off => exact RoundTrip.bz c off | bnz c off => exact RoundTrip.bnz c off | bra off => exact RoundTrip.bra off
  | call off => exact RoundTrip.call off | callr a => exact RoundTrip.callr a | jmpr a => exact RoundTrip.jmpr a | ret => exact RoundTrip.ret
  | reconv => exact RoundTrip.reconv | yield => exact RoundTrip.yield | exitLane => exact RoundTrip.exitLane | nop => exact RoundTrip.nop
  | trapInstr a => exact RoundTrip.trapInstr a | breakTrap => exact RoundTrip.breakTrap | svc a => exact RoundTrip.svc a
  | eret a b => exact RoundTrip.eret a b | tlbinv a => exact RoundTrip.tlbinv a | tlbgen => exact RoundTrip.tlbgen
  | preempt a b => exact RoundTrip.preempt a b | resumew a b => exact RoundTrip.resumew a b | corerst a b => exact RoundTrip.corerst a b
  | engrst a b => exact RoundTrip.engrst a b | fadd d a b => exact RoundTrip.fadd d a b | fsub d a b => exact RoundTrip.fsub d a b
  | fmul d a b => exact RoundTrip.fmul d a b | ffma d a b => exact RoundTrip.ffma d a b | fmin d a b => exact RoundTrip.fmin d a b
  | fmax d a b => exact RoundTrip.fmax d a b | fabs d a => exact RoundTrip.fabs d a | fneg d a => exact RoundTrip.fneg d a
  | fseteq d a b => exact RoundTrip.fseteq d a b | fsetne d a b => exact RoundTrip.fsetne d a b | fsetlt d a b => exact RoundTrip.fsetlt d a b
  | fsetle d a b => exact RoundTrip.fsetle d a b | fsetun d a b => exact RoundTrip.fsetun d a b | fclass d a => exact RoundTrip.fclass d a
  | frnd d a => exact RoundTrip.frnd d a | fcvti d a => exact RoundTrip.fcvti d a | fcvtui d a => exact RoundTrip.fcvtui d a
  | icvtf d a => exact RoundTrip.icvtf d a | ucvtf d a => exact RoundTrip.ucvtf d a | fpkbf d a b => exact RoundTrip.fpkbf d a b
  | fpkh d a b => exact RoundTrip.fpkh d a b | fupbfl d a => exact RoundTrip.fupbfl d a | fupbfh d a => exact RoundTrip.fupbfh d a
  | fuphl d a => exact RoundTrip.fuphl d a | fuphh d a => exact RoundTrip.fuphh d a | hadd2Bf d a b => exact RoundTrip.hadd2Bf d a b
  | hmul2Bf d a b => exact RoundTrip.hmul2Bf d a b | hfma2Bf d a b => exact RoundTrip.hfma2Bf d a b | hmax2Bf d a b => exact RoundTrip.hmax2Bf d a b
  | hmin2Bf d a b => exact RoundTrip.hmin2Bf d a b | hadd2H d a b => exact RoundTrip.hadd2H d a b | hmul2H d a b => exact RoundTrip.hmul2H d a b
  | hfma2H d a b => exact RoundTrip.hfma2H d a b | hmax2H d a b => exact RoundTrip.hmax2H d a b | hmin2H d a b => exact RoundTrip.hmin2H d a b
  | hdot2Bf d a b => exact RoundTrip.hdot2Bf d a b | hdot2H d a b => exact RoundTrip.hdot2H d a b | frcp d a => exact RoundTrip.frcp d a
  | frsq d a => exact RoundTrip.frsq d a | fsqrt d a => exact RoundTrip.fsqrt d a | fex2 d a => exact RoundTrip.fex2 d a
  | flg2 d a => exact RoundTrip.flg2 d a | fsin d a => exact RoundTrip.fsin d a | fcos d a => exact RoundTrip.fcos d a
  | ftanh d a => exact RoundTrip.ftanh d a | fdiv d a b => exact RoundTrip.fdiv d a b | shfli d a b => exact RoundTrip.shfli d a b
  | shflu d a b => exact RoundTrip.shflu d a b | shfld d a b => exact RoundTrip.shfld d a b | shflx d a b => exact RoundTrip.shflx d a b
  | voteall d a => exact RoundTrip.voteall d a | voteany d a => exact RoundTrip.voteany d a | ballot d a => exact RoundTrip.ballot d a
  | redadd d a => exact RoundTrip.redadd d a | redmin d a => exact RoundTrip.redmin d a | redmax d a => exact RoundTrip.redmax d a
  | redand d a => exact RoundTrip.redand d a | redor d a => exact RoundTrip.redor d a | redxor d a => exact RoundTrip.redxor d a
  | fredadd d a => exact RoundTrip.fredadd d a | fredmin d a => exact RoundTrip.fredmin d a | fredmax d a => exact RoundTrip.fredmax d a
  | scanadd d a => exact RoundTrip.scanadd d a | matchLanes d a => exact RoundTrip.matchLanes d a | elect d => exact RoundTrip.elect d
  | active d => exact RoundTrip.active d
  | _ => exact RoundTrip.step_of_agent rfl

/-- The step of another agent has no word. -/
theorem encode_event (e : Event) : encode e.instr = none := by
  cases e <;> rfl

/-- An instruction without a word is the step of another agent. -/
theorem event_of_encode_none {i : Instr} (h : encode i = none) : ∃ e : Event, e.instr = i := by
  cases i with
  | packageReset => exact ⟨.packageReset none, rfl⟩ | bringupPhaseDone => exact ⟨.bringupPhaseDone 0 0, rfl⟩
  | drvacceptWrite => exact ⟨.drvacceptWrite 0, rfl⟩ | memsplitWrite => exact ⟨.memsplitWrite 0, rfl⟩
  | registerWrite => exact ⟨.registerWrite 0 0 0, rfl⟩ | doorbell => exact ⟨.doorbell 0 0, rfl⟩ | launchRead => exact ⟨.launchRead, rfl⟩
  | launchStart => exact ⟨.launchStart 0 0, rfl⟩ | blockPlace => exact ⟨.blockPlace, rfl⟩ | runQueuePlace => exact ⟨.runQueuePlace, rfl⟩
  | launchComplete => exact ⟨.launchComplete 0 0, rfl⟩ | compactorMove => exact ⟨.compactorMove 0, rfl⟩ | moveDone => exact ⟨.moveDone 0, rfl⟩
  | waveEnd => exact ⟨.waveEnd 0, rfl⟩ | waveSaved => exact ⟨.waveSaved 0, rfl⟩ | generationAdvance => exact ⟨.generationAdvance 0, rfl⟩
  | linkDegraded => exact ⟨.linkDegraded, rfl⟩ | remoteTimeout => exact ⟨.remoteTimeout 0, rfl⟩ | holdNoticeSend => exact ⟨.holdNoticeSend 0, rfl⟩
  | holdNotice => exact ⟨.holdNotice 0 none, rfl⟩ | remoteRequest => exact ⟨.remoteRequest (.mk 0 0 0 0 0 .load [] 0), rfl⟩
  | remoteReply => exact ⟨.remoteReply 0 false [], rfl⟩
  | multicastMemberWrite => exact ⟨.multicastMemberWrite (.mk 0 0 0 0 false 0 0 0 0 0), rfl⟩
  | multicastAck => exact ⟨.multicastAck 0 0 none, rfl⟩ | mfreeExchange => exact ⟨.mfreeExchange 0, rfl⟩
  | laneCopyComplete => exact ⟨.laneCopyComplete 0 0, rfl⟩ | slipJobStart => exact ⟨.slipJobStart 0, rfl⟩
  | slipTileStart => exact ⟨.slipTileStart 0, rfl⟩ | slipIteration => exact ⟨.slipIteration 0, rfl⟩
  | slipJobComplete => exact ⟨.slipJobComplete 0, rfl⟩ | slipSignal => exact ⟨.slipSignal 0, rfl⟩ | wheelSlab => exact ⟨.wheelSlab 0, rfl⟩
  | taskDispatch => exact ⟨.taskDispatch 0, rfl⟩ | taskTileDrain => exact ⟨.taskTileDrain 0, rfl⟩ | taskComplete => exact ⟨.taskComplete 0 0, rfl⟩
  | messageArrival => exact ⟨.messageArrival (.mk 0 0 0 [] 0 [] false 0), rfl⟩ | rendezvousLand => exact ⟨.rendezvousLand 0 0, rfl⟩
  | postTimeout => exact ⟨.postTimeout 0 0, rfl⟩ | frameStall => exact ⟨.frameStall 0 0, rfl⟩
  | thruminoMessage => exact ⟨.thruminoMessage 0 [] false 0, rfl⟩ | srdReceive => exact ⟨.srdReceive (.mk 0 0 0 0 false 0 0 0 0 false 0 0 0 [] 0), rfl⟩
  | ptpMessage => exact ⟨.ptpMessage 0 false, rfl⟩ | arpRequest => exact ⟨.arpRequest 0 0, rfl⟩
  | kmsgDeliver => exact ⟨.kmsgDeliver 0 0 (.refOpened 0), rfl⟩ | belvedereBind => exact ⟨.belvedereBind 0 0 [] 0 false, rfl⟩
  | belvedereLookup => exact ⟨.belvedereLookup 0 0 [], rfl⟩ | timerExpiry => exact ⟨.timerExpiry 0, rfl⟩
  | kwaitTimeout => exact ⟨.kwaitTimeout 0 0, rfl⟩ | conePass => exact ⟨.conePass 0, rfl⟩ | reconvTimeout => exact ⟨.reconvTimeout 0 0, rfl⟩
  | lkrateWrite => exact ⟨.lkrateWrite 0 0, rfl⟩ | linkTrainingDone => exact ⟨.linkTrainingDone 0 false, rfl⟩
  | laneFault => exact ⟨.laneFault 0 0 false, rfl⟩ | replayWindow => exact ⟨.replayWindow 0, rfl⟩
  | dieFlitReceive => exact ⟨.dieFlitReceive 0 false (.mk 0 0 .req 0 [] []), rfl⟩ | uncrst => exact ⟨.uncrst 0, rfl⟩
  | poiscrub => exact ⟨.poiscrub 0, rfl⟩ | flitGroupReceive => exact ⟨.flitGroupReceive 0 0 false [], rfl⟩
  | portLost => exact ⟨.portLost 0 false none, rfl⟩ | portTrained => exact ⟨.portTrained 0, rfl⟩ | planeRemap => exact ⟨.planeRemap 0, rfl⟩
  | planemapWrite => exact ⟨.planemapWrite 0, rfl⟩ | fabrekey => exact ⟨.fabrekey 0, rfl⟩ | rekeyGroupCount => exact ⟨.rekeyGroupCount 0 false, rfl⟩
  | loadConfirm => exact ⟨.loadConfirm 0 false, rfl⟩ | receiverAck => exact ⟨.receiverAck 0 false, rfl⟩ | getVersion => exact ⟨.getVersion 0, rfl⟩
  | getCapabilities => exact ⟨.getCapabilities 0, rfl⟩ | negotiateAlgorithms => exact ⟨.negotiateAlgorithms 0 [], rfl⟩
  | getDigests => exact ⟨.getDigests 0, rfl⟩ | getCertificate => exact ⟨.getCertificate 0 0, rfl⟩ | keyExchange => exact ⟨.keyExchange 0 [], rfl⟩
  | finish => exact ⟨.finish 0 false, rfl⟩ | keyUpdate => exact ⟨.keyUpdate 0 false, rfl⟩ | heartbeat => exact ⟨.heartbeat 0, rfl⟩
  | endSession => exact ⟨.endSession 0, rfl⟩ | getMeasurements => exact ⟨.getMeasurements 0 0, rfl⟩ | challenge => exact ⟨.challenge 0 [], rfl⟩
  | grantPoolAdd => exact ⟨.grantPoolAdd 0, rfl⟩ | hostMemAccess => exact ⟨.hostMemAccess 0 0 false [], rfl⟩
  | cxlTimeout => exact ⟨.cxlTimeout 0 0, rfl⟩ | cxlLinkDown => exact ⟨.cxlLinkDown, rfl⟩ | cxlLinkUp => exact ⟨.cxlLinkUp, rfl⟩
  | droopStretch => exact ⟨.droopStretch, rfl⟩ | powerStretch => exact ⟨.powerStretch, rfl⟩ | ptpLockLoss => exact ⟨.ptpLockLoss, rfl⟩
  | kmsgReply => exact ⟨.kmsgReply 0 0 0, rfl⟩ | nameTimeout => exact ⟨.nameTimeout 0, rfl⟩
  | kmsgRetransmission => exact ⟨.kmsgRetransmission 0, rfl⟩ | podBarrierMessage => exact ⟨.podBarrierMessage 0 (.inval 0), rfl⟩
  | cxlCacheSnoop => exact ⟨.cxlCacheSnoop 0 false [], rfl⟩
  | _ => exact absurd h (Option.some_ne_none _)

/-- Settles O53: each instruction by its own law of decoding its word; without a word are exactly the steps of other agents. -/
theorem encodingsReadBack : Obligations.EncodingsReadBack := by
  refine ⟨RoundTrip.every, fun i => ⟨event_of_encode_none, ?_⟩⟩
  rintro ⟨e, rfl⟩
  exact encode_event e

/-- Refutes O54: the decoder of one word reads bits [31:1] alone. Bit 0, which tells a word from a halfword (R25), is 1 in every word that the
encoder makes; the word 2, bit 0 clear, decodes to IADD b0, b0, b0, whose encoding is the word 3. -/
theorem not_decodingsAreEncodings : ¬ Obligations.DecodingsAreEncodings := by
  intro h
  have decoded : decode1 (.word 2) = .ok (.iadd (.b 0) (.b 0) (.b 0)) := rfl
  have encoded : encode (.iadd (.b 0) (.b 0) (.b 0)) = some (.word 3) := rfl
  obtain ⟨-, same⟩ := h _ _ decoded
  rw [encoded] at same
  injection same with same
  injection same with bits
  exact absurd bits (by decide)

end Sys2Proof.Laws
end

section
/-! TLBGEN and the cached non-leaf entries (R108, R430): O12. -/

namespace Sys2Proof.Machine

/-- Contexts touched one after another leave the cached non-leaf entries. -/
theorem tables_modCtxs (as : List Nat) (s : State) : (as.foldl (fun t a => t.modCtx a (fun c => c)) s).tables = s.tables := by
  induction as generalizing s with
  | nil => rfl
  | cons a as ih => rw [List.foldl_cons, ih]; rfl

/-- The advance of every context drops the cached translations, and keeps every cached non-leaf entry. -/
theorem tables_advanceAll (s : State) : s.advanceAll.tables = s.tables := tables_modCtxs s.busyCtxs s

/-- A package whose privileged lane runs, with one non-leaf entry cached. -/
def cachedTable : State :=
  { State.reset with waves := [(0, codeWave)], focus := some (Focus.mk 0 [0] 0x20000 4 0 none), tables := [TableEntry.mk 0 5 0 0x100] }

/-- Refutes O12: after TLBGEN's advance of every generation no cached non-leaf entry is to be left, but the model's advance keeps them all, as
for cachedTable's. -/
theorem not_privilegedFunctions : ¬ Obligations.PrivilegedFunctions := by
  intro h
  obtain ⟨-, -, tlbgen, -⟩ := h
  have solo : Solo cachedTable (Focus.mk 0 [0] 0x20000 4 0 none) codeWave 0 codeLane := ⟨rfl, rfl, rfl, rfl⟩
  obtain ⟨-, -, -, -, -, empty, -⟩ := tlbgen _ _ _ _ _ solo rfl
  rw [tables_advanceAll] at empty
  cases empty

end Sys2Proof.Machine
end

section
/-! Instructions without a result (R32, R300, R301): O5. -/

namespace Sys2Proof.Machine

/-- An instruction all of whose lanes only go on. -/
theorem runPure_passes {s : State} {fo : Focus} {w : Wave} (h : GroupRuns s fo w) :
    GroupEnds s (runPure s (fun _ _ _ => .done none [] 0)) fo w (fun _ ln => ln.advance fo.next) (fun _ => none) := by
  have ends := runLanes_ends h (fun s _ _ _ => (s, .done none [] 0)) (fun _ ln => ln.advance fo.next) (fun _ => none) (by
    intro l _ ln _
    refine ⟨_, fun _ => rfl, ?_⟩
    have := LocalOut.none (fo := fo) (ln := ln) 0
    rwa [raise_zero] at this)
  have nothing : gTo (fo.lanes.findSome? (fun _ => (none : Option (Nat × Word)))) = fun _ => none := by
    rw [List.findSome?_eq_none_iff.mpr (fun _ _ => rfl)]
    rfl
  rwa [nothing] at ends

/-- A lane that RECONV waits for and that is there has met it: it is the lane itself, stands there, or has been there (R300). -/
theorem reconvMet_iff {w : Wave} {ln : Lane} {l : Nat} {pc : VA} {j : Nat} :
    reconvMet w ln [l] pc j = true ↔ ∀ x, w.lane j = some x → j = l ∨ x.pc = pc ∨ (pc, j) ∈ ln.met := by
  unfold reconvMet
  cases w.lane j with
  | none => simp
  | some x => simp [or_assoc]

/-- A lane waits at another instruction (R300). -/
theorem reconvCut_iff {w : Wave} {pc : VA} {j : Nat} :
    reconvCut w pc j = true ↔ ∃ x, w.lane j = some x ∧ x.pc ≠ pc ∧ x.waitsElsewhere = true := by
  unfold reconvCut
  cases w.lane j <;> simp

/-- When a lane in RECONV goes on (R300). -/
theorem reconvGo_iff {w : Wave} {ln : Lane} {l : Nat} {pc : VA} : reconvGo w ln [l] pc = true ↔
    (∀ j ∈ ln.split, ∀ x, w.lane j = some x → j = l ∨ x.pc = pc ∨ (pc, j) ∈ ln.met) ∨
      (∃ j ∈ ln.split, ∃ x, w.lane j = some x ∧ x.pc ≠ pc ∧ x.waitsElsewhere = true) := by
  simp only [reconvGo, Bool.or_eq_true, List.all_eq_true, List.any_eq_true, reconvMet_iff, reconvCut_iff]

/-- One lane has reached a RECONV: each lane split from it records that, once. -/
theorem lane_reached (w : Wave) (l : Nat) (pc : VA) (j : Nat) : (w.reached [l] pc).lane j = (w.lane j).map (fun x =>
    if l ∈ x.split ∧ (pc, l) ∉ x.met then { x with met := (pc, l) :: x.met } else x) := by
  have h := sget_map w.lanes (fun _ x => { x with met := (([l].filter (fun j => x.split.contains j && !x.met.contains (pc, j))).map (fun j => (pc, j))) ++ x.met }) j
  refine h.trans ?_
  congr 1
  funext x
  by_cases new : l ∈ x.split ∧ (pc, l) ∉ x.met
  · simp [new]
  · rw [if_neg new]
    have : ([l].filter (fun j => x.split.contains j && !x.met.contains (pc, j))) = [] := by simpa using new
    rw [this]
    rfl

/-- RECONV of a lane that waits for nothing (R300): it goes on with nothing split from it, or waits. -/
theorem exec_reconv {s : State} {fo : Focus} {w : Wave} {l : Nat} {ln : Lane} (h : Solo s fo w l ln) (free : ln.wait = none) :
    let s1 := s.modWave fo.wave (fun x => x.reached [l] fo.pc)
    exec .reconv s = .next (if reconvGo w ln [l] fo.pc then (s1.modLane fo.wave l (fun x => { x with split := [], met := [] })).passes fo l
      else s1.waitWith fo.wave l (.reconv ln.split) 0 (natLe 8 s.freeCtr)) := by
  intro s1
  show execReconv s = _
  rw [execReconv, runLanes_solo h]
  simp only [h.focus, h.lanes, free, Bool.false_or]
  cases reconvGo w ln [l] fo.pc
  · rfl
  · simp only [if_true, applyOut_pass]
    rfl

/-- Settles O5: the three by what a group does whose lanes only go on, RECONV by what the lanes split from its lane do, a prefix by its meaning. -/
theorem noEffectInstructions : Obligations.NoEffectInstructions := by
  refine ⟨?nop, ?nop16, ?yield, ?reconv, ?pfx⟩
  case nop => exact fun s fo w h _ => ⟨_, rfl, runPure_passes h⟩
  case nop16 => exact fun s fo w h _ => ⟨_, rfl, runPure_passes h⟩
  case yield => exact fun s fo w h _ => ⟨_, rfl, runPure_passes h⟩
  case reconv =>
    intro s fo w l ln h free s1 go
    have run := exec_reconv h free
    refine ⟨fun goes => ?_, fun stays => ?_, lane_reached w l fo.pc⟩
    · rw [run, if_pos (reconvGo_iff.mpr goes)]
    · rw [run, if_neg (fun goes => stays (reconvGo_iff.mp goes))]
  case pfx =>
    intro p s fo h
    show Host.Outcome.next _ = _
    rw [h]
    rfl

end Sys2Proof.Machine
end

section
/-! Every instruction and every step answers a next state: O57. -/

namespace Sys2Proof.Machine

/-- An outcome with a next state. -/
def Proceeds (o : Host.Outcome State Fault Refusal) : Prop := ∃ t, o = .next t

theorem Proceeds.next (t : State) : Proceeds (.next t) := ⟨t, rfl⟩

/-- The meaning of an instruction is one next state, or for the instructions named here, most of them steps of other agents, a choice among
next states, each taken by itself. -/
theorem exec_proceeds (i : Instr) (s : State) : Proceeds (exec i s) := by
  cases i with
  | remoteReply | remoteTimeout | holdNotice | remoteRequest | multicastMemberWrite | holdNoticeSend | multicastAck | portLost | portTrained
  | planeRemap | planemapWrite | fabrekey | rekeyGroupCount | loadConfirm | receiverAck | flitGroupReceive | podBarrierMessage | lkrateWrite
  | linkTrainingDone | laneFault | replayWindow | dieFlitReceive | linkDegraded | poiscrub | laneCopyComplete | waveEnd | waveSaved | compactorMove
  | moveDone | uncrst | memsplitWrite | drvacceptWrite | grantPoolAdd | doorbell | registerWrite | cxlTimeout | mfreeExchange | cflush a b
  | stt d a b | generationAdvance | slipJobStart | slipTileStart | slipIteration | slipJobComplete | slipSignal | rendezvousLand | messageArrival
  | thruminoMessage | postTimeout | frameStall | srdReceive | ptpMessage | arpRequest | kwaitTimeout | timerExpiry | kmsgDeliver | belvedereBind
  | belvedereLookup | kmsgReply | nameTimeout | kmsgRetransmission | conePass | kwork d | taskDispatch | wheelSlab | taskTileDrain | taskComplete
  | launchRead | launchStart | launchComplete | packageReset | bringupPhaseDone | hostMemAccess | cxlCacheSnoop | reconvTimeout | getVersion
  | getCapabilities | negotiateAlgorithms | getDigests | getCertificate | keyExchange | finish | keyUpdate | heartbeat | endSession | getMeasurements
  | challenge =>
    simp only [exec,
      execRemoteReply, execRemoteTimeout, execHoldNotice, execRemoteRequest, execMulticastMemberWrite, execHoldNoticeSend, execMulticastAck,
      execPortLost, execPortTrained, execPlaneRemap, execPlanemapWrite, execFabrekey, execRekeyGroupCount, execLoadConfirm, execReceiverAck,
      execFlitGroupReceive, execPodBarrierMessage, execLkrateWrite, execLinkTrainingDone, execLaneFault, execReplayWindow, execDieFlitReceive,
      execLinkDegraded, execPoiscrub, execLaneCopyComplete, execWaveEnd, execWaveSaved, execCompactorMove, execMoveDone, execUncrst,
      execMemsplitWrite, execDrvacceptWrite, execGrantPoolAdd, execDoorbell, execRegisterWrite, execCxlTimeout, execMfreeExchange, execCflush,
      execStt, execGenerationAdvance, execSlipJobStart, execSlipTileStart, execSlipIteration, execSlipJobComplete, execSlipSignal,
      execRendezvousLand, execMessageArrival, execThruminoMessage, execPostTimeout, execFrameStall, execSrdReceive, execPtpMessage, execArpRequest,
      execKwaitTimeout, execTimerExpiry, execKmsgDeliver, execBelvedereBind, execBelvedereLookup, execKmsgReply, execNameTimeout,
      execKmsgRetransmission, execConePass, execKwork, execTaskDispatch, execWheelSlab, execTaskTileDrain, execTaskComplete, execLaunchRead,
      execLaunchStart, execLaunchComplete, execPackageReset, execBringupPhaseDone, execHostMemAccess, execCxlCacheSnoop, execReconvTimeout,
      execGetVersion, execGetCapabilities, execNegotiateAlgorithms, execGetDigests, execGetCertificate, execKeyExchange, execFinish, execKeyUpdate,
      execHeartbeat, execEndSession, execGetMeasurements, execChallenge]
    repeat' split
    all_goals exact .next _
  | _ => exact .next _

/-- The instructions of a unit answer one after another. -/
theorem runAll_proceeds (is : List Instr) (s : State) : Proceeds (runAll is s) := by
  induction is generalizing s with
  | nil => exact .next s
  | cons i rest ih =>
    obtain ⟨t, ran⟩ := exec_proceeds i s
    rw [runAll, ran]
    exact ih t

/-- Whatever the next step is: an event, the unit of a group, or nothing. -/
theorem Plan.run_proceeds (p : Plan) : Proceeds p.run := by
  cases p with
  | event e s => exact exec_proceeds e.instr _
  | issue s is => exact runAll_proceeds is s
  | idle s => exact .next s

/-- Settles O57: each instruction by its meaning, a step by what its plan runs. -/
theorem everyStepAnswers : Obligations.EveryStepAnswers :=
  ⟨exec_proceeds, fun s => s.begin.plan.run_proceeds⟩

end Sys2Proof.Machine
end

section
/-! A unit of one or two words (R25, R42): taking it from its bytes, and fetching it. -/

namespace Sys2Proof.Machine

/-- Bit 0 of an instruction's first byte gives its length (R25): clear in a halfword, set in a word. -/
def lengthBitOk (c : Code) : Prop :=
  match c with
  | .half h => h.getLsbD 0 = false
  | .word w => w.getLsbD 0 = true

/-- A code whose length bit is right is taken whole from its bytes. -/
theorem takeCode_bytes {c : Code} (ok : lengthBitOk c) (rest : List Byte) : takeCode (c.bytes ++ rest) = some (c, rest) := by
  cases c with
  | half h =>
    have low : (h.extractLsb' 0 8).getLsbD 0 = false := by simpa [lengthBitOk] using ok
    simp only [Code.bytes, List.cons_append, List.nil_append, takeCode, low, Bool.false_eq_true, if_false,
      BitVec.extractLsb'_append_extractLsb'_eq_extractLsb', BitVec.extractLsb'_eq_self]
  | word w =>
    have low : (w.extractLsb' 0 8).getLsbD 0 = true := by simpa [lengthBitOk] using ok
    simp only [Code.bytes, List.cons_append, List.nil_append, takeCode, low, if_true,
      BitVec.extractLsb'_append_extractLsb'_eq_extractLsb', BitVec.extractLsb'_eq_self]

/-- A unit of one code, decoded from its bytes. -/
theorem decodeUnit_of_decode {c : Code} {f : Fetched} (ok : lengthBitOk c) (h : decode c.bytes = .ok (f, [])) : decodeUnit c none = .ok f := by
  have taken := takeCode_bytes ok []
  rw [List.append_nil] at taken
  have nothing : takeCode [] = none := rfl
  simp only [decode, taken, nothing] at h
  split at h
  · next g e => rw [e]; cases h; rfl
  · cases h

/-- A unit of two codes, decoded from their bytes. -/
theorem decodeUnit_of_decode_two {c d : Code} {f : Fetched} (okc : lengthBitOk c) (okd : lengthBitOk d)
    (h : decode (c.bytes ++ d.bytes) = .ok (f, [])) : decodeUnit c (some d) = .ok f := by
  have taken := takeCode_bytes okd []
  rw [List.append_nil] at taken
  simp only [decode, takeCode_bytes okc, taken] at h
  split at h
  · next g e =>
    rw [e]
    injection h with pair
    injection pair with same
    rw [same]
  · cases h

/-- A unit with a prefix starts with the prefix word. -/
theorem decode1_of_pfx {c : Code} {o : Option Code} {f : Fetched} (h : decodeUnit c o = .ok f) (hp : f.pfx.isSome = true) :
    ∃ p, decode1 c = .ok (.pfx p) := by
  unfold decodeUnit at h
  split at h
  · cases h
  · next p e => exact ⟨p, e⟩
  · cases h; cases hp

/-- A prefix word alone is no unit. -/
theorem decode1_ne_pfx {c : Code} {f : Fetched} (h : decodeUnit c none = .ok f) (p : PfxFields) : decode1 c ≠ .ok (.pfx p) := by
  intro e
  simp [decodeUnit, e] at h

theorem fetchUnit_one {s t : State} {w : Wave} {priv : Bool} {va : Nat} {c : Code} {f : Fetched} (hc : s.fetchCode w priv va = .ok (c, t))
    (hf : decodeUnit c none = .ok f) : s.fetchUnit w priv va = .ok (.ok f, t) := by
  unfold State.fetchUnit
  rw [hc]
  dsimp only
  split
  · next p e => exact absurd e (decode1_ne_pfx hf p)
  · rw [hf]

theorem fetchUnit_two {s t u : State} {w : Wave} {priv : Bool} {va : Nat} {c d : Code} {f : Fetched} (hc : s.fetchCode w priv va = .ok (c, t))
    (hd : t.fetchCode w priv (va + 4) = .ok (d, u)) (hp : f.pfx.isSome = true) (hf : decodeUnit c (some d) = .ok f) :
    s.fetchUnit w priv va = .ok (.ok f, u) := by
  obtain ⟨p, e⟩ := decode1_of_pfx hf hp
  simp only [State.fetchUnit, hc, e, hd, hf]

theorem fetchCode_half {s t : State} {w : Wave} {priv : Bool} {va : Nat} {h : BitVec 16} (hf : s.fetchHalf w priv va = .ok (h, t))
    (hb : h.getLsbD 0 = false) : s.fetchCode w priv va = .ok (.half h, t) := by
  simp only [State.fetchCode, hf, hb, Bool.not_false, if_true]

theorem fetchCode_word {s t u : State} {w : Wave} {priv : Bool} {va : Nat} {lo hi : BitVec 16} (hl : s.fetchHalf w priv va = .ok (lo, t))
    (hb : lo.getLsbD 0 = true) (hh : t.fetchHalf w priv (va + 2) = .ok (hi, u)) : s.fetchCode w priv va = .ok (.word (hi ++ lo), u) := by
  simp only [State.fetchCode, hl, hb, hh, Bool.not_true, Bool.false_eq_true, if_false]

/-! A halfword fetched from the HBM of the package. -/

/-- Bytes of one line, taken out of a copy of it. -/
theorem sliceOf_line (m : List Host.Cell) {la n : Nat} (h : la % 128 + n ≤ 128) : sliceOf (zread m (lineOf la * 128) 128) la n = zread m la n := by
  have base : lineOf la * 128 + la % 128 = la := by unfold lineOf; omega
  have cut := zread_append m (lineOf la * 128) (la % 128) (n + (128 - la % 128 - n))
  rw [base, show la % 128 + (n + (128 - la % 128 - n)) = 128 by omega, ← zread_append] at cut
  rw [sliceOf, ← cut, List.drop_left' (zread_length ..), List.take_left' (zread_length ..)]

/-- What reading lines into an L2 changes of the package. -/
theorem receives_rest (a : Nat) (ls : List Nat) (s : State) :
    ∃ d x c, ls.foldl (fun u n => u.receiveBy a n) s = { s with dir := d, sent := x, corrected := c } := by
  induction ls generalizing s with
  | nil => exact ⟨s.dir, s.sent, s.corrected, rfl⟩
  | cons n ls ih =>
    obtain ⟨d, x, c, h⟩ := ih (s.receiveBy a n)
    refine ⟨d, x, c, ?_⟩
    rw [List.foldl_cons, h, receiveBy_rest]

/-- What caching a translation changes of the package. -/
theorem noteTlb_rest (s : State) (asid : Nat) (t : Target) :
    ∃ tl tb d x c, s.noteTlb asid t = { s with tlb := tl, tables := tb, dir := d, sent := x, corrected := c } := by
  unfold State.noteTlb
  split
  · exact ⟨s.tlb, s.tables, s.dir, s.sent, s.corrected, rfl⟩
  · split
    · exact ⟨s.tlb, s.tables, s.dir, s.sent, s.corrected, rfl⟩
    · obtain ⟨d, x, c, h⟩ := receives_rest s.agent _ _
      exact ⟨_, _, d, x, c, h⟩

/-- The same as an agent of a die does it. -/
theorem noteAt_rest (s : State) (die asid : Nat) (t : Target) :
    ∃ tl tb d x c, s.noteAt die asid t = { s with tlb := tl, tables := tb, dir := d, sent := x, corrected := c } := by
  obtain ⟨tl, tb, d, x, c, h⟩ := noteTlb_rest (s.atDie die) asid t
  refine ⟨tl, tb, d, x, c, ?_⟩
  unfold State.noteAt
  rw [h]
  rfl

/-- A fetch that the instruction cache does not serve: the home's bytes, and the line is cached. -/
theorem fetchBytes_miss {s : State} {core la : Nat} (n : Nat) (miss : sget (s.core core).icache (lineOf la) = none) :
    (s.fetchBytes core la n).1 = sliceOf (s.lineBytes (lineOf la)) la n ∧
    ∃ cs d x c, (s.fetchBytes core la n).2 = { s with cores := cs, dir := d, sent := x, corrected := c } := by
  simp only [State.fetchBytes, miss, true_and]
  rw [receiveBy_rest]
  exact ⟨_, _, _, _, rfl⟩

/-- A halfword within a line of the package's HBM that is sound, not cached and within reach (R26, R366). -/
theorem fetchHalf_hbm {s : State} {w : Wave} {priv : Bool} {va : Nat} {tg : Target}
    (translated : (s.atDie (w.coreKey / 64)).translate (fetchAcc w.asid priv) va = .ok tg) (kind : tg.kind = .hbm) (inLine : localOf tg.pa % 128 ≤ 126)
    (home : localOf tg.pa < hostBase) (sound : s.poisoned (localOf tg.pa) 2 = false) (miss : sget (s.core w.coreKey).icache (lineOf (localOf tg.pa)) = none)
    (near : s.reach (w.coreKey / 64) (s.homeDie (localOf tg.pa)) = true) :
    ∃ cs tl tb d x c, s.fetchHalf w priv va = .ok (BitVec.ofNat 16 (leNat (zread s.mem (localOf tg.pa) 2)),
      { s with cores := cs, tlb := tl, tables := tb, dir := d, sent := x, corrected := c }) := by
  obtain ⟨bytes, cs, d, x, c, filled⟩ := fetchBytes_miss 2 miss
  obtain ⟨tl, tb, d', x', c', noted⟩ := noteAt_rest (s.fetchBytes w.coreKey (localOf tg.pa) 2).2 (w.coreKey / 64) w.asid tg
  have asid : (fetchAcc w.asid priv).asid = w.asid := rfl
  have served : s.hostFault (localOf tg.pa) = none := by simp [State.hostFault, home]
  refine ⟨cs, tl, tb, d', x', c', ?_⟩
  simp only [State.fetchHalf, State.fetchAt, translated, State.fetchFrom, kind, State.homeOf, State.fetchCached, miss, near, sound, served, Bool.not_true,
    Bool.and_false, Bool.false_eq_true, if_false, asid, noted, bytes, State.lineBytes, State.home]
  rw [sliceOf_line _ (by omega), filled]

end Sys2Proof.Machine
end

section
/-! A group of one lane at its instruction, and what the next step is (R42, R416; log entry 7). -/

namespace Sys2Proof.Machine

/-- Coming to its instruction changes neither a lane's bank nor its privilege. -/
@[simp] theorem arriveAt_bank (ln : Lane) : ln.arriveAt.bank = ln.bank := by
  unfold Lane.arriveAt
  repeat' split
  all_goals rfl

@[simp] theorem arriveAt_isPriv (ln : Lane) : ln.arriveAt.isPriv = ln.isPriv := by
  unfold Lane.arriveAt
  repeat' split
  all_goals rfl

/-- The unit at a group's PC: fetched, or the one its lanes wait in. -/
def State.UnitIs (s : State) (g : Group) (w : Wave) (priv : Bool) (f : Fetched) (v : State) : Prop :=
  (g.unit = none ∧ s.fetchUnit w priv g.pc.toNat = .ok (.ok f, v)) ∨ (g.unit = some f ∧ v = s)

theorem unitAt_eq {s v : State} {g : Group} {w : Wave} {ln : Lane} {f : Fetched} (h : s.UnitIs g w ln.isPriv f v) :
    s.unitAt g w ln = .ok (.ok f, v) := by
  rcases h with ⟨none, fetched⟩ | ⟨some, rfl⟩
  · rw [State.unitAt, none]; exact fetched
  · rw [State.unitAt, some]

section
variable {c v : State} {g : Group} {l : Nat} {w : Wave} {ln : Lane} {f : Fetched}

/-- A lane with the failure of an earlier store takes that trap. -/
theorem meetLane_late {e : Late} (hw : c.wave g.wave = some w) (hl : w.lane l = some ln) (late : ln.lateHere = some e) :
    meetLane g (c, none, []) l = (c.takeLate g.wave w l ln e, none, []) := by
  simp [meetLane, hw, hl, late]

/-- A lane that closes its region waits for the answers to its stores (R187). -/
theorem meetLane_settling (hw : c.wave g.wave = some w) (hl : w.lane l = some ln) (late : ln.lateHere = none) (given : c.fetchRefused w ln = none)
    (unit : (c.modLane g.wave l Lane.arriveAt).UnitIs g w ln.isPriv f v) (settling : settles f.instr = true) (free : ln.arriveAt.wait = none)
    (posted : v.posted g.wave l none = true) :
    meetLane g (c, none, []) l = (v.waitWith g.wave l (.acks none) 2 [], none, []) := by
  have at_ := unitAt_eq (ln := ln.arriveAt) (by simpa using unit)
  simp [meetLane, hw, hl, late, given, at_, settling, free, posted]

/-- Any other lane that nothing traps goes on with its unit. -/
theorem meetLane_runs (hw : c.wave g.wave = some w) (hl : w.lane l = some ln) (late : ln.lateHere = none) (given : c.fetchRefused w ln = none)
    (unit : (c.modLane g.wave l Lane.arriveAt).UnitIs g w ln.isPriv f v)
    (settled : settles f.instr = false ∨ ln.arriveAt.wait ≠ none ∨ v.posted g.wave l none = false) (sound : meetTrap ln.bank (.ok f) ln.isPriv = none) :
    meetLane g (c, none, []) l = (v.modLane g.wave l (fun x => x.take w f (closes f.instr) (isRegion f.instr)), some f, [l]) := by
  have at_ := unitAt_eq (ln := ln.arriveAt) (by simpa using unit)
  have through : (settles f.instr && ln.arriveAt.wait.isNone && v.posted g.wave l none) = false := by
    rcases settled with h | h | h
    · simp [h]
    · simp [h]
    · simp [h]
  simp [meetLane, hw, hl, late, given, at_, through, sound]

end

/-- The step of a state whose plan is a group's issue. -/
theorem step_of_planGroup {s u : State} {g : Group} {second : Option Nat} (plan : s.begin.plan = u.planGroup g second) :
    step s = runAll (u.issueGroup g second).2 (u.issueGroup g second).1 := by
  rw [step, plan]
  rfl

/-- A group none of whose lanes goes on: the step leaves what they met. -/
theorem step_stops {s u t : State} {g : Group} {second : Option Nat} {l : Nat} (plan : s.begin.plan = u.planGroup g second) (one : g.lanes = [l])
    (met : meetLane g (u.selectGroup g second, none, []) l = (t, none, [])) : step s = .next t := by
  rw [step_of_planGroup plan]
  simp [State.issueGroup, one, met, runAll]

/-- A group whose lane goes on: the step runs its instruction. -/
theorem step_runs {s u t : State} {g : Group} {second : Option Nat} {l : Nat} {f : Fetched} (plan : s.begin.plan = u.planGroup g second)
    (one : g.lanes = [l]) (met : meetLane g (u.selectGroup g second, none, []) l = (t, some f, [l])) (alone : f.pfx = none) :
    step s = runAll [f.instr] { t.yielding g f [l] with focus := some (Focus.mk g.wave [l] g.pc f.len f.word none) } := by
  rw [step_of_planGroup plan]
  simp only [State.issueGroup, one, List.foldl_cons, List.foldl_nil, met, alone, List.nil_append]

/-- With a prefix, that runs first. -/
theorem step_runs_prefixed {s u t : State} {g : Group} {second : Option Nat} {l : Nat} {f : Fetched} {p : PfxFields} {x : Word}
    (plan : s.begin.plan = u.planGroup g second) (one : g.lanes = [l])
    (met : meetLane g (u.selectGroup g second, none, []) l = (t, some f, [l])) (pfx : f.pfx = some (p, x)) :
    step s = runAll [.pfx p, f.instr] { t.yielding g f [l] with focus := some (Focus.mk g.wave [l] g.pc f.len f.word none) } := by
  rw [step_of_planGroup plan]
  simp only [State.issueGroup, one, List.foldl_cons, List.foldl_nil, met, pfx, List.cons_append, List.nil_append]

/-- One instruction is run to its end. -/
theorem runAll_one (i : Instr) (s : State) : runAll [i] s = exec i s := by
  obtain ⟨t, ran⟩ := exec_proceeds i s
  rw [runAll, ran]
  rfl

/-- The second of two runs where the first has ended. -/
theorem runAll_two {i : Instr} {s t : State} (j : Instr) (ran : exec i s = .next t) : runAll [i, j] s = exec j t := by
  rw [runAll, ran]
  exact runAll_one j t

/-- Only YIELD counts as a selection (R301). -/
theorem yielding_other {s : State} {g : Group} {f : Fetched} {ls : List Nat} (h : f.instr ≠ .yield) : s.yielding g f ls = s := by
  unfold State.yielding
  split
  · next e => exact absurd e h
  · rfl

/-! What the next step is (log entry 7). -/

theorem plan_dealing {s : State} (h : s.dealing ≠ none) : s.plan = .event .blockPlace s := by
  rw [State.plan, if_pos (Option.isSome_iff_ne_none.mpr h)]

theorem plan_free {s : State} (h : s.dealing = none) : s.plan = s.planFree := by
  simp [State.plan, h]

theorem planFree_degraded {s : State} (h : s.degradedLane ≠ none) : s.planFree = .event .linkDegraded s := by
  unfold State.planFree
  split
  · rfl
  · next e => exact absurd e h

theorem planFree_step {s : State} {e : Event} {rest : List Turn} (sound : s.degradedLane = none) (h : s.agenda = .step e :: rest) :
    s.planFree = .event e { s with agenda := rest } := by
  simp [State.planFree, sound, h]

theorem planFree_issue {s : State} {d c p : Nat} {rest : List Turn} {g : Group} (sound : s.degradedLane = none) (h : s.agenda = .issue d c p :: rest)
    (hg : ({ s with agenda := rest, slot2 := none } : State).pickPart (12 * coreKey d c + p) = some g) :
    s.planFree = ({ s with agenda := rest, slot2 := none } : State).planGroup g none := by
  simp [State.planFree, sound, h, hg]

theorem planFree_agents {s : State} (sound : s.degradedLane = none) (h : s.agenda = []) : s.planFree = s.planAgents := by
  simp [State.planFree, sound, h]

/-- The agents' turn. -/
theorem planAgents_engine {s : State} {e : Event} (he : s.nextEngine = some e) (turn : s.enginesTurn = true) : s.planAgents = .event e s := by
  simp [State.planAgents, turn, he]

/-- No agent in its turn. -/
theorem no_engine {s : State} (h : s.enginesTurn = false ∨ s.nextEngine = none) : (if s.enginesTurn then s.nextEngine else none) = none := by
  rcases h with h | h <;> simp [h]

theorem planAgents_due {s : State} {e : Event} (h : s.enginesTurn = false ∨ s.nextEngine = none) (hd : s.due = some e) : s.planAgents = .event e s := by
  simp [State.planAgents, no_engine h, hd]

theorem planAgents_issue {s : State} (h : s.enginesTurn = false ∨ s.nextEngine = none) (hd : s.due = none) : s.planAgents = s.planIssue := by
  simp [State.planAgents, no_engine h, hd]

theorem planIssue_engine {s : State} {e : Event} (he : s.nextEngine = some e) (hp : s.pick = none) : s.planIssue = .event e s := by
  simp [State.planIssue, hp, he]

theorem planIssue_group {s : State} {g : Group} {second : Option Nat} (hp : s.pick = some (g, second)) :
    ∃ x, s.planIssue = ({ s with slot2 := x } : State).planGroup g second :=
  ⟨_, by rw [State.planIssue, hp]⟩

end Sys2Proof.Machine
end

section
/-! The step issues the unit at the PC of its group: O56. -/

namespace Sys2Proof.Machine

/-- A word whose low half has bit 0 set. -/
theorem lengthBitOk_word {hi lo : BitVec 16} (h : lo.getLsbD 0 = true) : lengthBitOk (.word (hi ++ lo)) := by
  rw [lengthBitOk, BitVec.getLsbD_append, if_pos (by decide)]
  exact h

/-- Settles O56: the fetch by what it reads, the unit by its bytes, the issue by what the group's lane meets, and what goes first by the order of
the plan. -/
theorem stepRunsDecoded : Obligations.StepRunsDecoded := by
  refine ⟨?fetch, ?half, ?word, ?prefixed, ?issue, ?late, ?settling, ?event, ?order⟩
  case fetch =>
    intro s w priv va tg translated kind inLine home sound miss near
    obtain ⟨cs, tl, tb, d, x, c, fetched⟩ := fetchHalf_hbm translated kind inLine home sound miss near
    exact ⟨_, _, fetched, rfl, rfl⟩
  case half =>
    intro s t w priv va h f fetched bit decoded
    exact fetchUnit_one (fetchCode_half fetched bit) (decodeUnit_of_decode bit decoded)
  case word =>
    intro s t u w priv va lo hi f low bit high decoded
    exact fetchUnit_one (fetchCode_word low bit high) (decodeUnit_of_decode (lengthBitOk_word bit) decoded)
  case prefixed =>
    intro s t u w priv va p c f first second pfx bit halfBit wordBit decoded
    have ok : lengthBitOk c := by
      cases c with
      | half h => exact halfBit h rfl
      | word x => exact wordBit x rfl
    exact fetchUnit_two first second pfx (decodeUnit_of_decode_two bit ok decoded)
  case issue =>
    intro s u v g second l w ln f plan one chosen come hw hl late given unit settled sound met at_
    have runs := meetLane_runs hw hl late given unit settled sound
    refine ⟨yielding_other, fun alone => ?_, fun p x pfx => ?_⟩
    · exact (step_runs plan one runs alone).trans (runAll_one f.instr at_)
    · obtain ⟨t, opened⟩ := exec_proceeds (.pfx p) at_
      rw [opened]
      exact (step_runs_prefixed plan one runs pfx).trans (runAll_two f.instr opened)
  case late =>
    intro s u g second l w ln e plan one hw hl late
    exact step_stops plan one (meetLane_late hw hl late)
  case settling =>
    intro s u v g second l w ln f plan one chosen come hw hl late given unit settling free posted
    exact step_stops plan one (meetLane_settling hw hl late given unit settling free posted)
  case event =>
    intro s u e plan
    rw [step, plan]
    rfl
  case order =>
    intro s
    refine ⟨plan_dealing, fun free degraded => ?_, fun free sound => ?_⟩
    · rw [plan_free free, planFree_degraded degraded]
    · rw [plan_free free]
      refine ⟨?_, ?_, ?_, ?_, ?_, ?_⟩
      · exact fun e rest agenda => planFree_step sound agenda
      · exact fun d c p rest g agenda picked => planFree_issue sound agenda picked
      · exact fun e agenda next turn => by rw [planFree_agents sound agenda, planAgents_engine next turn]
      · exact fun e agenda none due => by rw [planFree_agents sound agenda, planAgents_due none due]
      · intro e agenda next due nobody
        rw [planFree_agents sound agenda]
        cases turn : s.enginesTurn with
        | true => exact planAgents_engine next turn
        | false => rw [planAgents_issue (.inl turn) due, planIssue_engine next nobody]
      · intro g second agenda none due picked
        rw [planFree_agents sound agenda, planAgents_issue none due]
        exact planIssue_group picked

end Sys2Proof.Machine
end

section
/-! What the integer operations compute (R264 to R266), each as its rule says it. -/

namespace Sys2Proof.Machine

/-- R69 by cases: an exact result wrapped, or clamped under sat. -/
theorem intResult_eq_stored (p : Option PfxFields) (x : Int) : intResult (satBit p) x = stored p x := by
  unfold intResult stored
  cases satBit p with
  | false => simp
  | true =>
    by_cases low : x < -2147483648
    · have high : ¬ 2147483647 < x := by omega
      simp [low, high]
    · simp [low]

/-- Without a prefix nothing clamps. -/
theorem stored_none (x : Int) : stored none x = (BitVec.ofInt 32 x, 0) := rfl

/-- The exact difference, wrapped. -/
theorem ofInt_toInt_sub (x y : Word) : BitVec.ofInt 32 (x.toInt - y.toInt) = x - y :=
  BitVec.eq_of_toInt_eq (by rw [BitVec.toInt_ofInt, BitVec.toInt_sub])

/-- A shift immediate is its own amount. -/
@[simp] theorem amount_zimm (n : BitVec 5) : amount (zimm n) = n.toNat := by
  have := n.isLt
  simp only [amount, zimm, BitVec.toNat_setWidth]
  omega

theorem zimm_eq {n : Nat} (i : BitVec n) : zimm i = BitVec.ofNat 32 i.toNat := (BitVec.ofNat_toNat 32 i).symm

/-- A sign-extended immediate keeps its value. -/
theorem toInt_simm {n : Nat} (h : n ≤ 32) (i : BitVec n) : (simm i).toInt = i.toInt := BitVec.toInt_signExtend_of_le h

/-- The exact value of SHL. -/
theorem shlExact_eq (x y : Word) : shlExact x y = x.toInt * 2 ^ amount y := congrArg (x.toInt * ·) (Int.natCast_pow 2 (amount y))

theorem minS_eq (x y : Word) : minS x y = if x.sle y then x else y :=
  ite_congr (propext BitVec.sle_iff_toInt_le.symm) (fun _ => rfl) (fun _ => rfl)

theorem maxS_eq (x y : Word) : maxS x y = if x.sle y then y else x :=
  ite_congr (propext BitVec.sle_iff_toInt_le.symm) (fun _ => rfl) (fun _ => rfl)

theorem clz_eq (x : Word) : clz x = if x = 0 then 32 else BitVec.ofNat 32 (31 - Nat.log2 x.toNat) :=
  apply_ite (BitVec.ofNat 32) ..

theorem sel_eq (x y c : Word) : sel x y c = if c = 0 then y else x := by
  by_cases h : c = 0 <;> simp [sel, h]

/-! Comparisons: the word of a truth value (R68). -/

theorem ofBool_decide (p : Prop) [Decidable p] : Word.ofBool (decide p) = if p then 1 else 0 := by
  simp only [Word.ofBool, decide_eq_true_eq]

theorem setEq_eq (x y : Word) : setEq x y = if x = y then 1 else 0 := ofBool_decide (x = y)

theorem setNe_eq (x y : Word) : setNe x y = if x = y then 0 else 1 := by
  by_cases h : x = y <;> simp [setNe, Word.ofBool, h]

theorem setLt_eq (x y : Word) : setLt x y = if x.toInt < y.toInt then 1 else 0 := ofBool_decide _

theorem setLe_eq (x y : Word) : setLe x y = if x.toInt ≤ y.toInt then 1 else 0 := ofBool_decide _

theorem setLtU_eq (x y : Word) : setLtU x y = if x.toNat < y.toNat then 1 else 0 := ofBool_decide _

theorem setLeU_eq (x y : Word) : setLeU x y = if x.toNat ≤ y.toNat then 1 else 0 := ofBool_decide _

theorem setLt_slt (x y : Word) : setLt x y = if x.slt y then 1 else 0 := by
  simp only [setLt_eq, BitVec.slt_iff_toInt_lt]

theorem setLe_sle (x y : Word) : setLe x y = if x.sle y then 1 else 0 := by
  simp only [setLe_eq, BitVec.sle_iff_toInt_le]

/-! Bit fields (R265): POS is bits [4:0] of the second source, LEN bits [13:8], cut off at bit 31. -/

theorem wbits_pos (y : Word) : wbits y 4 0 = y.toNat % 32 := by
  simp [wbits, bitsOf]

theorem fieldLen_eq (y : Word) : fieldLen y = min (y.toNat / 256 % 64) (32 - y.toNat % 32) := by
  simp [fieldLen, wbits, bitsOf]

/-- A number below 2^n read as signed from its top bit: the word whose bits above it are copies of that bit. -/
theorem ofInt_signed {n f : Nat} (hn : n ≤ 32) (hf : f < 2 ^ n) :
    BitVec.ofInt 32 (signed n f) = if 2 ^ (n - 1) ≤ f then BitVec.ofNat 32 (f + (2 ^ 32 - 2 ^ n)) else BitVec.ofNat 32 f := by
  have top : 2 ^ n ≤ 2 ^ 32 := Nat.pow_le_pow_right (by decide) hn
  unfold signed
  rw [Nat.mod_eq_of_lt hf]
  by_cases h : 2 ^ (n - 1) ≤ f
  · have wraps : ((f : Int) - ((2 ^ n : Nat) : Int)) = ((f + (2 ^ 32 - 2 ^ n) : Nat) : Int) - (2 ^ 32 : Nat) := by omega
    rw [if_neg (by omega), if_pos h, wraps]
    generalize f + (2 ^ 32 - 2 ^ n) = v
    apply BitVec.eq_of_toNat_eq
    simp only [BitVec.toNat_ofInt, BitVec.toNat_ofNat]
    omega
  · rw [if_pos (by omega), if_neg h, BitVec.ofInt_natCast]

theorem bfe_eq (x y : Word) : bfe x y =
    let pos := y.toNat % 32
    let len := min (y.toNat / 256 % 64) (32 - pos)
    let f := x.toNat / 2 ^ pos % 2 ^ len
    if len = 0 then 0
    else if y.getLsbD 15 ∧ 2 ^ (len - 1) ≤ f then BitVec.ofNat 32 (f + (2 ^ 32 - 2 ^ len)) else BitVec.ofNat 32 f := by
  extract_lets pos len f
  have short : len ≤ 32 := by omega
  have below : f < 2 ^ len := Nat.mod_lt _ (Nat.two_pow_pos _)
  have unfolded : bfe x y = if len = 0 then 0 else if y.getLsbD 15 then BitVec.ofInt 32 (signed len f) else BitVec.ofNat 32 f := by
    simp only [bfe, fieldLen_eq, wbits_pos, pos, len, f]
  rw [unfolded, ofInt_signed short below]
  cases y.getLsbD 15 <;> simp

/-- The mask of a field of n bits from a position. -/
theorem getLsbD_fieldMask (n pos i : Nat) (h : i < 32) :
    (BitVec.ofNat 32 ((2 ^ n - 1) * 2 ^ pos)).getLsbD i = decide (pos ≤ i ∧ i < pos + n) := by
  rw [BitVec.getLsbD_ofNat, Nat.testBit_mul_two_pow, Nat.testBit_two_pow_sub_one]
  simp only [h, decide_true, Bool.true_and, ← Bool.decide_and]
  exact decide_eq_decide.mpr (by omega)

/-- A word whose bits are given one by one. -/
theorem eq_ofBoolListLE {v : Word} {f : Nat → Bool} (h : ∀ i, i < 32 → v.getLsbD i = f i) : v = BitVec.ofBoolListLE ((List.range 32).map f) := by
  have bit : ∀ i, i < 32 → (BitVec.ofBoolListLE ((List.range 32).map f)).getLsbD i = f i := by
    intro i hi
    exact BitVec.getLsbD_ofBoolListLE.trans (by simp [hi])
  exact BitVec.eq_of_getLsbD_eq fun i hi => (h i hi).trans (bit i hi).symm

theorem bfi_eq (x y c : Word) : bfi x y c =
    let pos := y.toNat % 32
    let len := min (y.toNat / 256 % 64) (32 - pos)
    BitVec.ofBoolListLE ((List.range 32).map (fun i => if pos ≤ i ∧ i < pos + len then x.getLsbD (i - pos) else c.getLsbD i)) := by
  extract_lets pos len
  have unfolded : bfi x y c =
      (c &&& ~~~BitVec.ofNat 32 ((2 ^ len - 1) * 2 ^ pos)) ||| ((x <<< pos) &&& BitVec.ofNat 32 ((2 ^ len - 1) * 2 ^ pos)) := by
    simp only [bfi, fieldLen_eq, wbits_pos, pos, len]
  rw [unfolded]
  apply eq_ofBoolListLE
  intro i hi
  simp only [BitVec.getLsbD_or, BitVec.getLsbD_and, BitVec.getLsbD_not, BitVec.getLsbD_shiftLeft, getLsbD_fieldMask _ _ _ hi, hi,
    decide_true, Bool.true_and]
  by_cases within : pos ≤ i ∧ i < pos + len
  · have : ¬ i < pos := by omega
    simp [within, this]
  · simp [within]

/-- MOVHI's word: the immediate in bits [31:13]. -/
theorem append_zeros13 (k : BitVec 19) : k ++ 0#13 = BitVec.ofNat 32 (k.toNat * 2 ^ 13) := by
  apply BitVec.eq_of_toNat_eq
  have := k.isLt
  rw [BitVec.toNat_append, BitVec.toNat_ofNat, BitVec.toNat_ofNat, Nat.shiftLeft_eq, Nat.zero_mod, Nat.or_zero]
  omega

end Sys2Proof.Machine
end

section
/-! The integer instructions in a group, by operand form (R44, R246), and O1. -/

namespace Sys2Proof.Machine

/-- An instruction that gives every lane what a function of its registers computes completes as result-writing. -/
theorem writes_of_result {i : Instr} {d : Opd} {v : LaneFn} (run : ∀ s, exec i s = .next (resultInstr s d (fun p w l ln => .ok (v p w l ln)))) :
    Writes i d v :=
  fun s _ _ group _ => ⟨_, run s, resultInstr_ends group d _ _ _ (fun _ _ _ _ _ => rfl)⟩

section
variable {i : Instr} {d a b : Opd}

theorem writes_op1 {g f : Word → Word} (run : ∀ s, exec i s = .next (op1 s d a g)) (same : ∀ x, g x = f x) : Writes i d (one a f) :=
  writes_of_result (fun s => by rw [← funext same]; exact run s)

theorem writes_op2 {g f : Word → Word → Word} (run : ∀ s, exec i s = .next (op2 s d a b g)) (same : ∀ x y, g x y = f x y) :
    Writes i d (two a b f) :=
  writes_of_result (fun s => by rw [← funext (fun x => funext (same x))]; exact run s)

theorem writes_opImm {k : Word} {g : Word → Word → Word} {f : Word → Word} (run : ∀ s, exec i s = .next (opImm s d a k g))
    (same : ∀ x, g x k = f x) : Writes i d (one a f) :=
  writes_of_result (fun s => by rw [← funext same]; exact run s)

/-- Of two sources and the accumulator. -/
theorem writes_acc {g f : Word → Word → Word → Word}
    (run : ∀ s, exec i s = .next (resultInstr s d (fun p w l ln => .ok (g (readOpd w l ln a) (readOpd w l ln b) (readOpd w l ln (accOpd p d)), 0))))
    (same : ∀ x y c, g x y c = f x y c) : Writes i d (three d a b f) :=
  writes_of_result (fun s => by rw [← funext (fun x => funext (fun y => funext (same x y)))]; exact run s)

theorem writes_opSat {g f : Option PfxFields → Wave → Nat → Lane → Int} (run : ∀ s, exec i s = .next (opSat s d g))
    (same : ∀ p w l ln, g p w l ln = f p w l ln) : Writes i d (fun p w l ln => stored p (f p w l ln)) :=
  writes_of_result (fun s => by simp only [run, opSat, intResult_eq_stored, same])

end

/-- A compact form: without a prefix it writes what its function gives for the destination and its source. -/
theorem compact_ends {i : Instr} {d : Opd} {r : BitVec 5} {v : LaneFn} {f : Word → Word → Word} (writes : Writes i d v)
    (bare : ∀ w l ln, v none w l ln = (f (readOpd w l ln d) (readOpd w l ln (.b r)), 0)) (s : State) (fo : Focus) (w : Wave)
    (group : GroupRuns s fo w) (noPfx : fo.pfx = none) :
    ∃ t, exec i s = .next t ∧
      GroupEnds s t fo w (resultEnd fo w d (fun l ln => f (readOpd w l ln d) (readOpd w l ln (.b r))) (fun _ _ => 0))
        (gWritten fo w d (fun l ln => f (readOpd w l ln d) (readOpd w l ln (.b r)))) := by
  obtain ⟨t, run, ends⟩ := writes s fo w group (fun _ _ _ _ _ => trivial)
  simp only [noPfx, bare] at ends
  exact ⟨t, run, ends⟩

/-- Settles O1: each instruction by its operand form, its function by what it computes; a compact form by its long one. -/
theorem integerResults : Obligations.IntegerResults := by
  refine ⟨?saturating, ?plain, ?comparisons, ?fields, ?immediates, ?compact⟩
  case saturating =>
    intro d a b imm n
    refine ⟨?iadd, ?isub, ?imul, ?imad, ?shl, ?iabs, ?iaddi, ?shi⟩
    case iadd | isub | imul | imad | iabs => exact writes_opSat (fun _ => rfl) (fun _ _ _ _ => rfl)
    case shl => exact writes_opSat (fun _ => rfl) (fun _ _ _ _ => shlExact_eq _ _)
    case iaddi => exact writes_opSat (fun _ => rfl) (fun _ _ _ _ => congrArg _ (toInt_simm (by decide) imm))
    case shi => exact writes_opSat (fun _ => rfl) (fun _ _ _ _ => by rw [shlExact_eq, amount_zimm])
  case plain =>
    intro d a b
    refine ⟨?imulhi, ?imulhu, ?imin, ?imax, ?umin, ?umax, ?and, ?or, ?xor, ?andn, ?shrl, ?shra, ?rotl, ?popc, ?clz, ?brev, ?sel⟩
    case imin => exact writes_op2 (fun _ => rfl) minS_eq
    case imax => exact writes_op2 (fun _ => rfl) maxS_eq
    case clz => exact writes_op1 (fun _ => rfl) clz_eq
    case sel => exact writes_acc (fun _ => rfl) sel_eq
    case popc | brev => exact writes_op1 (fun _ => rfl) (fun _ => rfl)
    all_goals exact writes_op2 (fun _ => rfl) (fun _ _ => rfl)
  case comparisons =>
    intro d a b
    exact ⟨writes_op2 (fun _ => rfl) setEq_eq, writes_op2 (fun _ => rfl) setNe_eq, writes_op2 (fun _ => rfl) setLt_slt,
      writes_op2 (fun _ => rfl) setLe_sle, writes_op2 (fun _ => rfl) setLtU_eq, writes_op2 (fun _ => rfl) setLeU_eq⟩
  case fields =>
    intro d a b
    exact ⟨writes_op2 (fun _ => rfl) bfe_eq, writes_acc (fun _ => rfl) bfi_eq⟩
  case immediates =>
    intro d a imm n c k
    have value : (simm c).toInt = c.toInt := toInt_simm (by decide) c
    refine ⟨?andi, ?ori, ?xori, ?shiShrl, ?shiShra, ?shiRotl, ?eq, ?ne, ?lt, ?le, ?ltu, ?leu, ?movi, ?movhi⟩
    case andi | ori | xori => exact writes_opImm (fun _ => rfl) (fun _ => by rw [zimm_eq])
    case shiShrl => exact writes_opImm (fun _ => rfl) (fun x => congrArg (x >>> ·) (amount_zimm n))
    case shiShra => exact writes_opImm (fun _ => rfl) (fun x => congrArg x.sshiftRight (amount_zimm n))
    case shiRotl => exact writes_opImm (fun _ => rfl) (fun x => congrArg x.rotateLeft (amount_zimm n))
    case eq => exact writes_opImm (fun _ => rfl) (fun _ => setEq_eq _ _)
    case ne => exact writes_opImm (fun _ => rfl) (fun _ => setNe_eq _ _)
    case lt => exact writes_opImm (fun _ => rfl) (fun _ => by rw [setLt_eq, value])
    case le => exact writes_opImm (fun _ => rfl) (fun _ => by rw [setLe_eq, value])
    case ltu => exact writes_opImm (fun _ => rfl) (fun _ => setLtU_eq _ _)
    case leu => exact writes_opImm (fun _ => rfl) (fun _ => setLeU_eq _ _)
    case movi => exact writes_opImm (a := .z) (f := fun _ => BitVec.ofInt 32 k.toInt) (fun _ => rfl) (fun _ => rfl)
    case movhi => exact writes_opImm (a := .z) (f := fun _ => BitVec.ofNat 32 (k.toNat * 2 ^ 13)) (fun _ => rfl) (fun _ => append_zeros13 k)
  case compact =>
    intro d r wrapped
    have mov : Writes (.movC16 d r) d (two .z (.b r) (· ||| ·)) := writes_op2 (fun _ => rfl) (fun _ _ => rfl)
    have complement : Writes (.not d r) d (one (.b r) (~~~ ·)) := writes_op1 (fun _ => rfl) (fun _ => rfl)
    have ends {i : Instr} {v : LaneFn} {f : Word → Word → Word} (writes : Writes i d v)
        (bare : ∀ w l ln, v none w l ln = (f (readOpd w l ln d) (readOpd w l ln (.b r)), 0)) : wrapped i f := compact_ends writes bare
    have long {i : Instr} {g f : Word → Word → Word} (run : ∀ s, exec i s = .next (op2 s d d (.b r) g)) (same : ∀ x y, g x y = f x y) :
        wrapped i f := ends (writes_op2 run same) (fun _ _ _ => rfl)
    have wrapping {i : Instr} {g : Int → Int → Int} {f : Word → Word → Word}
        (run : ∀ s, exec i s = .next (opSat s d (fun _ w l ln => g (readOpd w l ln d).toInt (readOpd w l ln (.b r)).toInt)))
        (wraps : ∀ x y : Word, BitVec.ofInt 32 (g x.toInt y.toInt) = f x y) : wrapped i f :=
      ends (writes_opSat run (fun _ _ _ _ => rfl)) (fun _ _ _ => congrArg (·, 0) (wraps _ _))
    clear_value wrapped
    refine ⟨?movC, ?iaddC, ?isubC, ?imulC, ?andC, ?orC, ?xorC, ?shlC, ?shrlC, ?shraC, ?setltC, ?notC⟩
    case movC => exact ends mov (fun _ _ _ => congrArg (·, 0) BitVec.zero_or)
    case iaddC => exact wrapping (g := (· + ·)) (fun _ => rfl) (fun x y => by rw [BitVec.ofInt_add, BitVec.ofInt_toInt, BitVec.ofInt_toInt])
    case isubC => exact wrapping (g := (· - ·)) (fun _ => rfl) ofInt_toInt_sub
    case imulC => exact wrapping (g := (· * ·)) (fun _ => rfl) (fun x y => by rw [BitVec.ofInt_mul, BitVec.ofInt_toInt, BitVec.ofInt_toInt])
    case setltC => exact long (fun _ => rfl) setLt_slt
    case notC => exact ends complement (fun _ _ _ => rfl)
    all_goals exact long (fun _ => rfl) (fun _ _ => rfl)

end Sys2Proof.Machine
end

section
/-! A TMMAQ for which a block lists one of its waves at a second place (R330): O32. -/

namespace Sys2Proof.Machine

/-- A wave of quad 0, its tiles 0 to 2 of 16 by 16 elements of FP32: it has yet to arrive at the TMMAQ, or has arrived whole. -/
def quadMember (core : Nat) (arrived : Bool) : Wave :=
  { codeWave with
    core := core, ctl := [(8, 0x2010), (9, 0x2010), (10, 0x2010)],
    insts := if arrived then [XInst.mk 0x20000 true [0] [Arrival.mk 0 0 0 true false]] else [] }

/-- The block of the quad's four waves: those of cores 1 to 3 have arrived, and wave 0, which has not, is listed at place 4. -/
def quadBlock : Block := { codeBlock with waves := [0, 1, 2, 3], quadInsts := [(0x20000, [(1, 1), (2, 2), (3, 3), (4, 0)])] }

/-- The lane of wave 0 issues the TMMAQ. -/
def quadFocus : Focus := Focus.mk 0 [0] 0x20000 4 0 none

def quadListedTwice : State :=
  { State.reset with
    waves := [(0, quadMember 0 false), (1, quadMember 1 true), (2, quadMember 2 true), (3, quadMember 3 true)], blocks := [(0, quadBlock)],
    focus := some quadFocus }

theorem quadListedTwice_ready : KlnReady quadListedTwice quadFocus (quadMember 0 false) [0, 1, 2] where
  runs := ⟨rfl, rfl, by decide, by decide⟩
  all := rfl
  nonempty := by decide
  alone := rfl
  outside := by
    intro l hl ln at_
    obtain rfl : l = 0 := by simpa [quadFocus] using hl
    cases at_
    rfl
  tiles := by decide
  kept := rfl

/-- The TMMAQ that block 0 has running on its quad's Kilns after a step. -/
def quadStarted (o : Host.Outcome State Fault Refusal) : Option (VA × Nat) :=
  match o with
  | .next t => (sget t.blocks 0).bind Block.quadOn
  | .fault _ => none
  | .refused _ => none

/-- Once wave 0 has arrived, its entry at place 4 counts beside the one it makes at place 0: five entries, and no TMMAQ starts. -/
theorem quadListedTwice_stalls : quadStarted (exec (.tmmaq 0 1 2 false false) quadListedTwice) = none := by decide

/-- Refutes O32: the clause of the fourth arrival takes every table of a block's TMMAQ arrivals. Its hypotheses see the three waves that have
arrived, but not an entry of the fourth wave itself at a place that is none of the quad's (quadListedTwice): that one counts from the moment at
which the wave has arrived, and with five entries the TMMAQ never starts. A position of a quad is below 4 (R329), so no run comes to such a
table, but the clause does not exclude it. -/
theorem not_tilesMultiplied : ¬ Obligations.TilesMultiplied := by
  intro h
  obtain ⟨-, -, fourthArrival, -⟩ := h
  have shapes : ∀ t ∈ [0, 1, 2], ((quadMember 0 false).shape t).bad = none := by decide
  have alone : ∀ e ∈ quadListedTwice.blocks, e.1 ≠ 0 → e.2.quadOn ≠ none →
      e.2.die ≠ 0 ∨ quadListedTwice.quadOf e.2.die e.2.core ≠ quadListedTwice.quadOf 0 0 := by
    intro e he other
    exact absurd (congrArg Prod.fst (List.mem_singleton.mp he)) other
  obtain ⟨t, _, k, run, block, started, -⟩ := fourthArrival 0 1 2 false false quadListedTwice quadFocus (quadMember 0 false) quadBlock 0
    [(1, 1), (2, 2), (3, 3)] quadListedTwice_ready rfl (by decide) (by decide) rfl shapes (by decide) rfl rfl (by decide) rfl alone
  have runs : quadStarted (exec (.tmmaq 0 1 2 false false) quadListedTwice) = k.quadOn := by
    rw [run]
    exact congrArg (Option.bind · Block.quadOn) block
  rw [quadListedTwice_stalls, started] at runs
  cases runs

end Sys2Proof.Machine
end

section
/-! Accesses of the scratchpad and of private memory by a group of one lane (R118, R121, R138, R145): O17. -/

namespace Sys2Proof.Machine

/-! Where a local access goes (R118, R121, R145). -/

/-- The offset of an access in the scratchpad or in private memory: the address operand and the MO form's offset, which wrap (R145). -/
def localOffset (w : Wave) (l : Nat) (ln : Lane) (a : Opd) (off : Int) : Nat := (readOpd w l ln a + BitVec.ofInt 32 off).toNat

theorem localOffset_eq (w : Wave) (l : Nat) (ln : Lane) (a : Opd) (off : Int) :
    localOffset w l ln a off = (((readOpd w l ln a).toNat + off).emod (2 ^ 32)).toNat := by
  have sum : readOpd w l ln a + BitVec.ofInt 32 off = BitVec.ofInt 32 ((readOpd w l ln a).toNat + off) := by
    rw [BitVec.ofInt_add, BitVec.ofInt_natCast, BitVec.ofNat_toNat, BitVec.setWidth_eq]
  rw [localOffset, sum, BitVec.toNat_ofInt]
  rfl

@[simp] theorem localOffset_zero (w : Wave) (l : Nat) (ln : Lane) (a : Opd) : localOffset w l ln a 0 = (readOpd w l ln a).toNat := by
  simp [localOffset]

section
variable {s : State} {w : Wave} {l : Nat} {ln : Lane} {k : Block} {sp : Space} {a : Opd} {off : Int} {n : Nat} {write : Bool}

theorem place_misaligned (here : sp = .scratch ∨ sp = .priv) (mis : localOffset w l ln a off % n ≠ 0) :
    s.place w l ln k sp a off n write = .trap (Trap.mk 0x12 (localOffset w l ln a off) 0) := by
  obtain rfl | rfl := here <;> exact if_pos (bne_iff_ne.mpr mis)

theorem place_scratch (al : localOffset w l ln a off % n = 0) (within : localOffset w l ln a off + n ≤ k.scratchBytes) :
    s.place w l ln k .scratch a off n write = .scratch (k.origin + localOffset w l ln a off) :=
  (if_neg (fun mis => bne_iff_ne.mp mis al)).trans (if_neg (Nat.not_lt.mpr within))

theorem place_scratch_beyond (al : localOffset w l ln a off % n = 0) (beyond : k.scratchBytes < localOffset w l ln a off + n) :
    s.place w l ln k .scratch a off n write = .trap (protFault (laneAcc w ln write) (localOffset w l ln a off) 0 reasonScrRange) :=
  (if_neg (fun mis => bne_iff_ne.mp mis al)).trans (if_pos beyond)

theorem place_priv (al : localOffset w l ln a off % n = 0) (within : localOffset w l ln a off + n ≤ w.privBytes) :
    s.place w l ln k .priv a off n write = .priv (localOffset w l ln a off) :=
  (if_neg (fun mis => bne_iff_ne.mp mis al)).trans (if_neg (Nat.not_lt.mpr within))

theorem place_priv_beyond (al : localOffset w l ln a off % n = 0) (beyond : w.privBytes < localOffset w l ln a off + n) :
    s.place w l ln k .priv a off n write = .trap (protFault (laneAcc w ln write) (localOffset w l ln a off) 0 reasonPrivRange) :=
  (if_neg (fun mis => bne_iff_ne.mp mis al)).trans (if_pos beyond)

end

/-! Private bytes and sectors (R115, R117, R118). -/

/-- A private byte after bytes have been written: one of them, or what it was. -/
theorem sget_privWrite (ln : Lane) (o : Nat) (bs : List Byte) (x : Nat) :
    sget (ln.privWrite o bs).priv x = if o ≤ x ∧ x < o + bs.length then some (bs.getD (x - o) 0) else sget ln.priv x := by
  induction bs generalizing ln o with
  | nil => rw [List.length_nil, if_neg (by omega)]; rfl
  | cons b r ih =>
    rw [Lane.privWrite, ih, sget_sput, List.length_cons]
    by_cases first : x = o
    · subst first
      rw [if_neg (by omega), if_pos rfl, if_pos (by omega), Nat.sub_self]
      rfl
    · by_cases later : o + 1 ≤ x ∧ x < o + 1 + r.length
      · rw [if_pos later, if_pos (by omega), show x - o = (x - (o + 1)) + 1 by omega]
        rfl
      · rw [if_neg later, if_neg first, if_neg (by omega)]

/-- A wave changed but for its lanes leaves every lane. -/
theorem lane_modWave_of_lanes (s : State) (u : Nat) {f : Wave → Wave} (same : ∀ w, (f w).lanes = w.lanes) (v l : Nat) :
    (s.modWave u f).lane v l = s.lane v l := by
  simp only [State.lane, wave_modWave]
  by_cases h : v = u
  · subst h; cases s.wave v <;> simp [Wave.lane, same]
  · simp [h]

theorem lane_modCore (s : State) (c : Nat) (f : CoreState → CoreState) (v l : Nat) : (s.modCore c f).lane v l = s.lane v l := rfl

/-- A private sector written back leaves every lane. -/
theorem lane_writeBackPriv (s : State) (u sec v l : Nat) : (s.writeBackPriv u sec).lane v l = s.lane v l := by
  unfold State.writeBackPriv
  split
  · rfl
  · next w hw =>
    rw [ownBy_rest]
    by_cases h : v = u
    · subst h; simp [State.lane, hw, Wave.lane]
    · simp only [State.lane, wave_setWave_other _ _ h]; rfl

/-- A private sector that becomes dirty leaves every lane. -/
theorem lane_dirtyPriv (s : State) (u sec v l : Nat) : (s.dirtyPriv u sec).lane v l = s.lane v l := by
  unfold State.dirtyPriv
  split
  · rfl
  · next w hw =>
    split
    · rfl
    · dsimp only
      rw [lane_modCore]
      refine (lane_modWave_of_lanes _ _ (by exact fun _ => rfl) v l).trans ?_
      repeat' split
      · rfl
      · exact lane_writeBackPriv ..
      · rfl

theorem lane_dirtyPrivs (s : State) (u : Nat) (secs : List Nat) (v l : Nat) : (s.dirtyPrivs u secs).lane v l = s.lane v l := by
  induction secs generalizing s with
  | nil => rfl
  | cons sec r ih => exact (ih _).trans (lane_dirtyPriv ..)

/-- The lane that a private store leaves. -/
theorem lane_privStore {s : State} {u l : Nat} {w : Wave} {ln : Lane} (hw : s.wave u = some w) (hl : w.lane l = some ln) (o : Nat) (bs : List Byte) :
    (s.privStore u l o bs).lane u l = some (ln.privWrite o bs) := by
  have listed : sget w.lanes l = some ln := hl
  simp only [State.privStore, hw, lane_dirtyPrivs]
  simp [State.lane, hw, wave_modLane, Wave.lane, sget_smod, listed]

/-- Nothing stops a private access whose lines are sound and can be reached. -/
theorem privTrap_none {s : State} {u l o n : Nat} {w : Wave} {full : Nat → Bool} (hw : s.wave u = some w)
    (sound : ∀ sec ∈ w.privSectors l o n, s.badLine (sec / 8) = false ∧ s.reach w.die (s.homeDie (16 * sec)) = true) :
    s.privTrap u l o n full = none := by
  simp only [State.privTrap, hw, List.findSome?_eq_none_iff]
  intro sec mem
  simp [sound sec mem]

/-- Sound lines have no mark to clear. -/
theorem unpoison_none {s : State} {full : Nat → Bool} {lines : List Nat} (sound : ∀ line ∈ lines, s.badLine line = false) :
    lines.foldl (fun t line => if t.badLine line && full line then t.unpoison line else t) s = s := by
  induction lines with
  | nil => rfl
  | cons line r ih =>
    obtain ⟨first, rest⟩ := List.forall_mem_cons.mp sound
    simpa [first] using ih rest

theorem storeBytes_length (w : Wave) (l : Nat) (ln : Lane) (v : Opd) (z : Size) : (storeBytes w l ln v (sizeBytes z)).length = sizeBytes z := by
  cases z <;> simp [storeBytes, sizeBytes, List.range_succ]

/-! One lane's load or store that begins (R143, R145). -/

/-- A trap of the part that asks for nothing first. -/
theorem trapOrAsk_trap (s : State) (fo : Focus) (w : Wave) (l : Nat) (ln : Lane) {cause va : Nat} {aux : Word} (real : cause ≠ 0) (part : cause ≠ 0x15) :
    s.trapOrAsk fo w l ln (Trap.mk cause va aux) = (s, .trap (Trap.mk cause va aux) false) := by
  simp [State.trapOrAsk, real, part]

/-- L1 after the acquire of a load, which clears it where the scope is wider than the core (R116). -/
def State.acquired (s : State) (w : Wave) (acq : Option Scope) : State :=
  s.acquire w (match acq with | some scope => s.wide w scope | none => false)

theorem acquired_none (s : State) (w : Wave) : s.acquired w none = s := rfl

theorem acquired_of_sem (s : State) (w : Wave) (sem : Sem) (scope : Scope) :
    s.acquired w (if sem = .acquire then some scope else none) = if sem = .acquire ∧ s.wide w scope = true then s.dropL1 w.coreKey else s := by
  by_cases h : sem = .acquire <;> simp [State.acquired, State.acquire, h]

section
variable {s : State} {fo : Focus} {w : Wave} {l : Nat} {ln : Lane} {k : Block} (h : Single s fo w l ln) (block : sget s.blocks w.block = some k)
  {v a : Opd} {z : Size} {sp : Space} {off : Int}
include h block

/-- A load whose place is a trap. -/
theorem loadInstr_traps {cause va : Nat} {aux : Word} (real : cause ≠ 0) (part : cause ≠ 0x15)
    (at_ : s.place w l ln k sp a off (sizeBytes z) false = .trap (Trap.mk cause va aux)) (acq : Option Scope) (alloc : Bool) :
    loadInstr s v a z sp off acq alloc = s.traps fo l cause va aux := by
  refine runInto_trap h.toSolo h.wait v ?_ h.wave h.lane
  simp [State.loadLane, block, State.resumed, Lane.answered, h.wait, at_, trapOrAsk_trap s fo w l ln real part]

/-- A store whose place is a trap. -/
theorem storeInstr_traps {cause va : Nat} {aux : Word} (real : cause ≠ 0) (part : cause ≠ 0x15)
    (at_ : s.place w l ln k sp a off (sizeBytes z) true = .trap (Trap.mk cause va aux)) (rel : Option Scope) :
    storeInstr s v a z sp off rel = s.traps fo l cause va aux := by
  have lane : s.storeLane fo w l ln v a z sp off rel = (s, .trap (Trap.mk cause va aux) false) := by
    simp [State.storeLane, block, State.resumed, Lane.answered, h.wait, at_, trapOrAsk_trap s fo w l ln real part]
  simp only [storeInstr, h.focus, runSeen, runLanes_solo h.toSolo, asSeen_none w h.wait, lane, applyOut_trap]
  rfl

/-- A load of the scratchpad. -/
theorem loadInstr_scratch {o : Nat} (at_ : s.place w l ln k .scratch a off (sizeBytes z) false = .scratch o) (acq : Option Scope) (alloc : Bool) :
    loadInstr s v a z .scratch off acq alloc =
      (s.acquired w acq).completes fo l v (loadWords z (zread (s.core (coreKey k.die k.core)).scratch o (sizeBytes z))) 0 := by
  refine runInto_done h.toSolo h.wait v v ?_
  simp only [State.loadLane, block, State.resumed, Lane.answered, h.wait, at_]
  rfl

/-- A store of the scratchpad. -/
theorem storeInstr_scratch {o : Nat} (at_ : s.place w l ln k .scratch a off (sizeBytes z) true = .scratch o) (rel : Option Scope) :
    storeInstr s v a z .scratch off rel = (s.modCore (coreKey k.die k.core)
      (fun c => { c with scratch := zwrite c.scratch o (storeBytes w l ln v (sizeBytes z)) })).passes fo l := by
  have lane : s.storeLane fo w l ln v a z .scratch off rel = (s.scratchWrite k.slotCore o (storeBytes w l ln v (sizeBytes z)), .done none [] 0) := by
    simp [State.storeLane, block, State.resumed, Lane.answered, h.wait, at_]
  simp only [storeInstr, h.focus, runSeen, runLanes_solo h.toSolo, asSeen_none w h.wait, lane, applyOut_pass]
  rfl

/-- A load of private memory. -/
theorem loadInstr_priv {o : Nat} (at_ : s.place w l ln k .priv a off (sizeBytes z) false = .priv o)
    (sound : ∀ sec ∈ w.privSectors l o (sizeBytes z), s.badLine (sec / 8) = false ∧ s.reach w.die (s.homeDie (16 * sec)) = true)
    (acq : Option Scope) (alloc : Bool) :
    loadInstr s v a z .priv off acq alloc = s.completes fo l v (loadWords z (s.privRead l ln o (sizeBytes z))) 0 := by
  refine runInto_done h.toSolo h.wait v v ?_
  simp only [State.loadLane, block, State.resumed, Lane.answered, h.wait, at_, State.loadPriv, privTrap_none h.wave sound]
  rfl

/-- A store of private memory. -/
theorem storeInstr_priv {o : Nat} (at_ : s.place w l ln k .priv a off (sizeBytes z) true = .priv o)
    (sound : ∀ sec ∈ w.privSectors l o (sizeBytes z), s.badLine (sec / 8) = false ∧ s.reach w.die (s.homeDie (16 * sec)) = true) (rel : Option Scope) :
    storeInstr s v a z .priv off rel = (s.privStore fo.wave l o (storeBytes w l ln v (sizeBytes z))).passes fo l := by
  have clear : ∀ line ∈ (w.privSectors l o (sizeBytes z)).map (fun sec => sec / 8), s.badLine line = false :=
    List.forall_mem_map.mpr (fun sec mem => (sound sec mem).1)
  have lane : s.storeLane fo w l ln v a z .priv off rel = (s.privStore fo.wave l o (storeBytes w l ln v (sizeBytes z)), .done none [] 0) := by
    simp only [State.storeLane, block, State.resumed, Lane.answered, h.wait, at_, State.storePriv, storeBytes_length,
      privTrap_none h.wave sound, unpoison_none clear]
    rfl
  simp only [storeInstr, h.focus, runSeen, runLanes_solo h.toSolo, asSeen_none w h.wait, lane, applyOut_pass]

end

/-- Settles O17: each access by the place that its offset has, in range, misaligned or beyond, and by what a lane does there. -/
theorem scratchAndPrivateAccesses : Obligations.ScratchAndPrivateAccesses := by
  intro v a z sem scope hint off s fo w l ln k h block n p o core src load store acquired
  have moved : localOffset w l ln a (moOffset off z) = o := localOffset_eq w l ln a _
  have plain : localOffset w l ln a 0 = p := localOffset_zero w l ln a
  have acquires : s.acquired w (if sem = .acquire then some scope else none) = acquired := acquired_of_sem s w sem scope
  refine ⟨?moved, ?movedMisaligned, ?movedBeyond, ?scratch, ?misaligned, ?beyond, ?priv, ?privBeyond⟩
  case moved =>
    rw [← moved]
    exact fun al within => ⟨congrArg _ (loadInstr_scratch h block (place_scratch al within) none true),
      congrArg _ (storeInstr_scratch h block (place_scratch al within) none)⟩
  case movedMisaligned =>
    rw [← moved]
    exact fun mis => ⟨congrArg _ (loadInstr_traps h block (by decide) (by decide) (place_misaligned (.inl rfl) mis) none true),
      congrArg _ (storeInstr_traps h block (by decide) (by decide) (place_misaligned (.inl rfl) mis) none)⟩
  case movedBeyond =>
    rw [← moved]
    exact fun al beyond => ⟨congrArg _ (loadInstr_traps h block (by decide) (by decide) (place_scratch_beyond al beyond) none true),
      congrArg _ (storeInstr_traps h block (by decide) (by decide) (place_scratch_beyond al beyond) none)⟩
  case scratch =>
    rw [← plain, ← acquires]
    exact fun al within => ⟨congrArg _ (loadInstr_scratch h block (place_scratch al within) _ _),
      congrArg _ (storeInstr_scratch h block (place_scratch al within) _)⟩
  case misaligned =>
    rw [← plain]
    exact fun sp here mis => ⟨congrArg _ (loadInstr_traps h block (by decide) (by decide) (place_misaligned here mis) _ _),
      congrArg _ (storeInstr_traps h block (by decide) (by decide) (place_misaligned here mis) _)⟩
  case beyond =>
    rw [← plain]
    exact fun al beyond => ⟨congrArg _ (loadInstr_traps h block (by decide) (by decide) (place_scratch_beyond al beyond) _ _),
      congrArg _ (storeInstr_traps h block (by decide) (by decide) (place_scratch_beyond al beyond) _)⟩
  case priv =>
    rw [← plain]
    intro al within sound
    have length : src.length = n := storeBytes_length w l ln v z
    refine ⟨congrArg _ (loadInstr_priv h block (place_priv al within) sound _ _), congrArg _ (storeInstr_priv h block (place_priv al within) sound _),
      _, lane_privStore h.wave h.lane _ _, rfl, fun i inside => ?_, fun x outside => ?_⟩
    · rw [sget_privWrite, if_pos (by omega), Nat.add_sub_cancel_left]
    · rw [sget_privWrite, if_neg (by omega)]
  case privBeyond =>
    rw [← plain]
    exact fun al beyond => ⟨congrArg _ (loadInstr_traps h block (by decide) (by decide) (place_priv_beyond al beyond) _ _),
      congrArg _ (storeInstr_traps h block (by decide) (by decide) (place_priv_beyond al beyond) _)⟩

end Sys2Proof.Machine
end

section
/-! MALLOC and MFREE by a group of one lane (R132, R133, R134, R158): O23. -/

namespace Sys2Proof.Machine

/-! Size classes, free lists and chunks (R132, R133). -/

/-- The smallest class that holds a size serves it. -/
theorem sizeClass_eq_some {n c : Nat} (positive : n ≠ 0) (holds : n ≤ 64 * 2 ^ c) (smallest : c = 0 ∨ 64 * 2 ^ (c - 1) < n) (below : c < 8) :
    sizeClass n = some c := by
  rw [sizeClass, if_neg positive, List.find?_range_eq_some]
  refine ⟨decide_eq_true holds, List.mem_range.mpr below, fun j below => ?_⟩
  have power : 2 ^ j ≤ 2 ^ (c - 1) := Nat.pow_le_pow_right (by decide) (by omega)
  have tooSmall : ¬ n ≤ 64 * 2 ^ j := by omega
  simpa using tooSmall

/-- No class serves nothing, or more than the last one holds. -/
theorem sizeClass_eq_none {n : Nat} (refused : n = 0 ∨ 8192 < n) : sizeClass n = none := by
  obtain rfl | large := refused
  · rfl
  · rw [sizeClass, if_neg (by omega), List.find?_eq_none]
    intro c mem
    have power : 2 ^ c ≤ 2 ^ 7 := Nat.pow_le_pow_right (by decide) (by have := List.mem_range.mp mem; omega)
    have tooSmall : ¬ n ≤ 64 * 2 ^ c := by omega
    simpa using tooSmall

/-- Whatever number is drawn, a list that has entries gives one of them. -/
theorem getElem?_mod {α : Type} {xs : List α} (nonempty : xs ≠ []) (n : Nat) : ∃ x ∈ xs, xs[n % xs.length]? = some x := by
  have inside : n % xs.length < xs.length := Nat.mod_lt _ (List.length_pos_iff.mpr nonempty)
  exact ⟨_, List.getElem_mem inside, List.getElem?_eq_getElem inside⟩

@[simp] theorem pickBlock_nil (n : Nat) : pickBlock [] n = none := rfl

/-- A free list that has blocks gives one of them and loses it. -/
theorem pickBlock_of_ne_nil {free : List Nat} (nonempty : free ≠ []) (n : Nat) :
    ∃ i va, free[i]? = some va ∧ pickBlock free n = some (va, free.eraseIdx i) := by
  obtain ⟨va, -, at_⟩ := getElem?_mod nonempty n
  exact ⟨_, va, at_, by rw [pickBlock, at_]⟩

theorem chunkBlocks_ne_nil {c : Nat} (below : c < 8) (va : Nat) : chunkBlocks va c ≠ [] := by
  have power : 2 ^ c ≤ 2 ^ 7 := Nat.pow_le_pow_right (by decide) (by omega)
  have blocks : 0 < 1024 / 2 ^ c := Nat.div_pos (by omega) (Nat.two_pow_pos c)
  simp only [chunkBlocks, ne_eq, List.map_eq_nil_iff, List.range_eq_nil]
  omega

/-- The blocks of a chunk lie one after another. -/
theorem getElem?_chunkBlocks {va c j x : Nat} (at_ : (chunkBlocks va c)[j]? = some x) : j < 1024 / 2 ^ c ∧ x = va + j * (64 * 2 ^ c) := by
  obtain ⟨inside, rfl⟩ := List.getElem?_eq_some_iff.mp at_
  exact ⟨by simpa [chunkBlocks] using inside, by simp [chunkBlocks]⟩

section
variable {s : State} {acc : Acc} {al : Alloc} {quad c base chunks pick : Nat}

/-- A quad's own free list serves first. -/
theorem freeList_own (own : sgetD al.free (8 * quad + c) [] ≠ []) :
    s.freeList acc al quad c base chunks pick = .ok (sgetD al.free (8 * quad + c) [], al) := by
  simp [State.freeList, own]

variable (own : sgetD al.free (8 * quad + c) [] = []) (returned : sgetD al.returned (8 * quad + c) [] = [])
include own returned

/-- Nothing serves in a pool whose chunks are all taken. -/
theorem freeList_exhausted (taken : ∀ i, i < chunks → (sget al.taken i).isSome = true) :
    s.freeList acc al quad c base chunks pick = .ok ([], al) := by
  have noneLeft : (List.range chunks).filter (fun i => (sget al.taken i).isNone) = [] := by
    simpa [List.filter_eq_nil_iff, Option.isSome_iff_ne_none] using taken
  simp [State.freeList, own, returned, noneLeft]

/-- A chunk that is not taken serves, and is then the quad's for the class. -/
theorem freeList_fresh (left : ∃ i, i < chunks ∧ sget al.taken i = none)
    (mapped : ∀ i, i < chunks → s.pagesFault acc (base * 2 ^ 16 + i * 2 ^ 16) 65536 17 = none) :
    ∃ i, i < chunks ∧ sget al.taken i = none ∧ s.freeList acc al quad c base chunks pick =
      .ok (chunkBlocks (base * 2 ^ 16 + i * 2 ^ 16) c, { al with taken := sput al.taken i (quad, c) }) := by
  obtain ⟨j, inPool, free⟩ := left
  have mem : j ∈ (List.range chunks).filter (fun i => (sget al.taken i).isNone) := by simp [inPool, free]
  obtain ⟨i, listed, at_⟩ := getElem?_mod (List.ne_nil_of_mem mem) pick
  obtain ⟨within, untaken⟩ : i < chunks ∧ sget al.taken i = none := by simpa using listed
  refine ⟨i, within, untaken, ?_⟩
  simp only [State.freeList, own, returned, at_, mapped i within]
  rfl

end

/-! MALLOC (R132, R133, R158). -/

/-- An instruction of one lane that waited for nothing, with a result of several words that it has at once (R247). -/
theorem settledSeen_done {s s1 : State} {fo : Focus} {w : Wave} {l : Nat} {ln : Lane} (h : Single s fo w l ln) (d e : Opd) (n : Nat)
    {f : State → Wave → Nat → Lane → State × Out} {ws : List Word} {fl : Flags} (run : f s w l ln = (s1, .done (some e) ws fl)) :
    s.settled (runSeen s f) d n = s1.completes fo l e ws fl := by
  simp only [runSeen, runLanes_solo h.toSolo, asSeen_none w h.wait, run, applyOut_done]
  exact settled_through h.toSolo h.wait d n completes_through

/-- MALLOC has given an address: an acquire, and the address in the destination pair (R158). -/
def State.givesBlock (s : State) (fo : Focus) (w : Wave) (l : Nat) (d : Opd) (va : Nat) : State :=
  (s.dropL1 w.coreKey).completes fo l d [BitVec.ofNat 32 va, BitVec.ofNat 32 (va / 2 ^ 32)] 0

section
variable {s : State} {fo : Focus} {w : Wave} {l : Nat} {ln : Lane} (h : Single s fo w l ln) {d a : Opd}
include h

/-- A size that no class serves, or a context without a pool. -/
theorem exec_malloc_refused (refused : sizeClass (readOpd w l ln a).toNat = none ∨ s.spaceOf w.asid = none) :
    exec (.malloc d a) s = .next (s.givesBlock fo w l d 0) := by
  refine congrArg _ (settledSeen_done h d d 2 ?_)
  obtain unserved | noPool := refused
  · simp only [unserved]; rfl
  · cases hc : sizeClass (readOpd w l ln a).toNat <;> simp only [noPool] <;> rfl

variable {c ttab base chunks : Nat} (sized : sizeClass (readOpd w l ln a).toNat = some c) (space : s.spaceOf w.asid = some (ttab, base, chunks))
  {r : List Nat × Alloc}
  (served : s.freeList (laneAcc w ln true) (s.alloc w.asid) (s.quadKey w) c base chunks (Config.freeNat s.freeCtr (1000 + l)) = .ok r)
include sized space served

/-- Nothing is left to serve the class. -/
theorem exec_malloc_empty (empty : r.1 = []) : exec (.malloc d a) s = .next (s.givesBlock fo w l d 0) := by
  refine congrArg _ (settledSeen_done h d d 2 ?_)
  simp only [sized, space, served, empty, pickBlock_nil]
  rfl

/-- A block of the list that serves the class, which loses it. -/
theorem exec_malloc_block (nonempty : r.1 ≠ []) : ∃ i va, r.1[i]? = some va ∧ exec (.malloc d a) s =
    .next (({ s with allocs := sput s.allocs w.asid { r.2 with free := sput r.2.free (8 * s.quadKey w + c) (r.1.eraseIdx i) } } : State).givesBlock
      fo w l d va) := by
  obtain ⟨i, va, at_, picked⟩ := pickBlock_of_ne_nil nonempty (Config.freeNat s.freeCtr (1100 + l))
  refine ⟨i, va, at_, congrArg _ (settledSeen_done h d d 2 ?_)⟩
  simp only [sized, space, served, picked]
  rfl

end

/-! MFREE (R134, R158). -/

/-- The owner and the class of the taken chunk that an address lies in, if it lies in one: none for the address 0 (R134). -/
def takenChunk (al : Alloc) (base va : Nat) : Option (Nat × Nat) := if va = 0 then none else (poolChunk base va).bind (sget al.taken)

theorem takenChunk_eq_none {al : Alloc} {base va : Nat} (h : va = 0 ∨ va / 2 ^ 16 < base ∨ sget al.taken (va / 2 ^ 16 - base) = none) :
    takenChunk al base va = none := by
  unfold takenChunk poolChunk
  obtain zero | below | untaken := h
  · rw [if_pos zero]
  · rw [if_neg (Nat.not_le.mpr below), Option.bind_none, ite_self]
  · split
    · rfl
    · split
      · exact untaken
      · rfl

theorem takenChunk_eq_some {al : Alloc} {base va : Nat} {owner : Nat × Nat} (address : va ≠ 0) (above : base ≤ va / 2 ^ 16)
    (taken : sget al.taken (va / 2 ^ 16 - base) = some owner) : takenChunk al base va = some owner := by
  rw [takenChunk, if_neg address, poolChunk, if_pos above]
  exact taken

section
variable {s : State} {fo : Focus} {w : Wave} {l : Nat} {ln : Lane} {ttab base chunks quad c : Nat} {a : Opd} (h : Solo s fo w l ln)
  (space : s.spaceOf w.asid = some (ttab, base, chunks))
include h space

/-- An address in no taken chunk is freed as nothing. -/
theorem exec_mfree_nothing (nowhere : takenChunk (s.alloc w.asid) base (readPair w l ln a).toNat = none) :
    exec (.mfree a) s = .next (s.passes fo l) := by
  unfold takenChunk at nowhere
  show execMfree a s = _
  simp only [execMfree, runLanes_solo h, space, nowhere, applyOut_pass]

variable (taken : takenChunk (s.alloc w.asid) base (readPair w l ln a).toNat = some (quad, c))
include taken

/-- A block of the lane's own quad goes onto that quad's free list. -/
theorem exec_mfree_own (own : quad = s.quadKey w) : exec (.mfree a) s = .next (({ s with allocs := sput s.allocs w.asid { s.alloc w.asid with
    free := sput (s.alloc w.asid).free (8 * quad + c)
      ((readPair w l ln a).toNat :: sgetD (s.alloc w.asid).free (8 * quad + c) []) } } : State).passes fo l) := by
  unfold takenChunk at taken
  show execMfree a s = _
  simp only [execMfree, runLanes_solo h, space, taken, if_pos own, applyOut_pass]

/-- A block of another quad leaves for its owner. -/
theorem exec_mfree_other (other : quad ≠ s.quadKey w) :
    exec (.mfree a) s = .next (({ s with exchanges := s.exchanges ++ [(w.asid, (readPair w l ln a).toNat)] } : State).passes fo l) := by
  unfold takenChunk at taken
  show execMfree a s = _
  simp only [execMfree, runLanes_solo h, space, taken, if_neg other, applyOut_pass]

end

/-- Settles O23: MALLOC by the list that serves its class, the quad's own, none, or a fresh chunk's; MFREE by the taken chunk of its address. -/
theorem mallocAndMfree : Obligations.MallocAndMfree := by
  refine ⟨?malloc, ?mfree⟩
  case malloc =>
    intro d a s fo w l ln h size al gives
    refine ⟨fun refused => exec_malloc_refused h ((or_assoc.mpr refused).imp_left sizeClass_eq_none), ?served⟩
    case served =>
      intro c ttab base chunks space holds smallest positive below key own took
      have sized : sizeClass (readOpd w l ln a).toNat = some c := sizeClass_eq_some positive holds smallest below
      refine ⟨fun list => ?own, fun empty returned taken => ?exhausted, fun empty returned left mapped => ?fresh⟩
      case own => exact exec_malloc_block h sized space (freeList_own list) list
      case exhausted => exact exec_malloc_empty h sized space (freeList_exhausted empty returned taken) rfl
      case fresh =>
        obtain ⟨i, inPool, untaken, served⟩ := freeList_fresh (s := s) empty returned left mapped
        obtain ⟨j, va, at_, run⟩ := exec_malloc_block (d := d) h sized space served (chunkBlocks_ne_nil below _)
        obtain ⟨inside, rfl⟩ := getElem?_chunkBlocks at_
        exact ⟨i, j, _, inPool, untaken, inside, sget_sput_same .., run⟩
  case mfree =>
    intro a s fo w l ln ttab base chunks h space va al
    refine ⟨fun nothing => exec_mfree_nothing h space (takenChunk_eq_none nothing), fun quad c address above taken => ⟨fun own => ?_, fun other => ?_⟩⟩
    · exact exec_mfree_own h space (takenChunk_eq_some address above taken) own
    · exact exec_mfree_other h space (takenChunk_eq_some address above taken) other

end Sys2Proof.Machine
end

section
/-! The events of a die link (R169 to R176), and the scrub of a poisoned line (R182). -/

namespace Sys2Proof.Machine

/-- The rates that a TARGET may name (R170). -/
theorem rateOk_iff {r : Nat} : rateOk r = true ↔ r = 32 ∨ r = 36 ∨ r = 40 ∨ r = 44 ∨ r = 48 := by
  simp only [rateOk, Bool.or_eq_true, beq_iff_eq, or_assoc]

/-- LKRATE_WRITE (R170). -/
theorem exec_lkrateWrite {s : State} {i : Nat} {v : Word} (h : s.input = some (.lkrateWrite i v)) (hi : i < 12) :
    exec .lkrateWrite s = .next (s.writeLkrate i v) := by
  show execLkrateWrite s = _
  simp only [execLkrateWrite, h, if_pos hi]

/-- When a TARGET write is accepted (R170). -/
def State.takesRate (s : State) (i rate : Nat) : Prop :=
  (rate = 32 ∨ rate = 36 ∨ rate = 40 ∨ rate = 44 ∨ rate = 48) ∧ (s.link i).busy = false ∧
    (rate ≤ 32 ∨ (s.bringup.accepted = true ∧ bitOf s.bringup.drvaccept 0 = true))

/-- A TARGET write starts a retrain, or is refused (R170). -/
theorem writeLkrate_eq (s : State) (i : Nat) (v : Word) :
    (s.takesRate i (wbits v 7 0) → s.writeLkrate i v = s.setLink i { s.link i with
      autofb := v.getLsbD 16, target := wbits v 7 0, busy := true, repairing := false, trying := wbits v 7 0, fellBack := false }) ∧
    (¬ s.takesRate i (wbits v 7 0) → s.writeLkrate i v = s.setLink i { s.link i with autofb := v.getLsbD 16, target := wbits v 7 0, status := 1 }) := by
  have test : (rateOk (wbits v 7 0) && !(s.link i).busy && (wbits v 7 0 ≤ 32 || (s.bringup.accepted && bitOf s.bringup.drvaccept 0))) = true ↔
      s.takesRate i (wbits v 7 0) := by
    simp only [State.takesRate, Bool.and_eq_true, rateOk_iff, Bool.not_eq_true', Bool.or_eq_true, decide_eq_true_eq, and_assoc]
  exact ⟨fun taken => if_pos (test.mpr taken), fun refused => if_neg (fun h => refused (test.mp h))⟩

section
variable {s : State} {i : Nat} {ok : Bool} (h : s.input = some (.linkTrainingDone i ok)) (hi : i < 12) (busy : (s.link i).busy = true)
include h hi busy

/-- A link without a live module does not train (R173, log entry 24). -/
theorem exec_linkTrainingDone_dead (dead : (s.link i).dead = true) : exec .linkTrainingDone s =
    .next (s.setLink i { s.link i with busy := false, repairing := false, status := 3, down := true }).endReset := by
  show execLinkTrainingDone s = _
  simp only [execLinkTrainingDone, h, Nat.not_le.mpr hi, busy, dead, Bool.not_true, decide_false, Bool.or_false, Bool.false_eq_true, if_false, if_true]

variable (lives : (s.link i).dead = false)
include lives

/-- Training that fails steps down 4 GT/s, and at 32 GT/s goes on (R171). -/
theorem exec_linkTrainingDone_fails (fails : ok = false) : exec .linkTrainingDone s = .next (if 36 ≤ (s.link i).trying then
    s.setLink i { s.link i with trying := (s.link i).trying - 4, fellBack := true, repairing := false } else s) := by
  show execLinkTrainingDone s = _
  simp only [execLinkTrainingDone, h, Nat.not_le.mpr hi, busy, lives, fails, Bool.not_true, Bool.not_false, decide_false, Bool.or_false,
    Bool.false_eq_true, if_false, if_true]
  split <;> rfl

/-- A module's retrain reports nothing (log entry 92). -/
theorem exec_linkTrainingDone_repaired (trains : ok = true) (repairing : (s.link i).repairing = true) : exec .linkTrainingDone s =
    .next (s.setLink i { s.link i with busy := false, repairing := false }).endReset.linkFree := by
  show execLinkTrainingDone s = _
  simp only [execLinkTrainingDone, h, Nat.not_le.mpr hi, busy, lives, trains, repairing, Bool.not_true, decide_false, Bool.or_false,
    Bool.false_eq_true, if_false, if_true]

/-- A link that has trained runs at the rate reached (R171, R178). -/
theorem exec_linkTrainingDone_trained (trains : ok = true) (whole : (s.link i).repairing = false) : exec .linkTrainingDone s =
    let k := s.link i
    let up := { k with busy := false, cur := k.trying, status := if k.fellBack then 2 else 0, announce := false, down := false }
    let v := (s.setLink i up).linkEvent i (if k.fellBack then 3 else 0) k.fellBack k
    .next (if k.announce then v.linkEvent i 7 false k else v).endReset.linkFree := by
  show execLinkTrainingDone s = _
  simp only [execLinkTrainingDone, h, Nat.not_le.mpr hi, busy, lives, trains, whole, Bool.not_true, decide_false, Bool.or_false,
    Bool.false_eq_true, if_false]

end

/-- A link is dead when none of its modules lives (R173). -/
theorem dead_iff (k : LinkRegs) : k.dead = true ↔ ∀ n, n < 8 → k.moduleWidth n = 3 := by
  simp only [LinkRegs.dead, List.all_eq_true, List.mem_range, beq_iff_eq]

/-- The module that dies is dead in both directions, and no other changes (R173). -/
theorem moduleWidth_kill {k : LinkRegs} {m : Nat} (hm : m < 8) (hw : k.widths.length = 16) (n : Nat) :
    (k.kill m).moduleWidth n = if n = m then 3 else k.moduleWidth n := by
  by_cases e : n = m
  · subst e
    have low : 2 * n < k.widths.length := by omega
    have high : 2 * n + 1 < k.widths.length := by omega
    simp [LinkRegs.moduleWidth, LinkRegs.kill, List.getD_eq_getElem?_getD, low, high]
  · have apart : 2 * m ≠ 2 * n ∧ 2 * m + 1 ≠ 2 * n ∧ 2 * m ≠ 2 * n + 1 ∧ 2 * m + 1 ≠ 2 * n + 1 := by omega
    simp [LinkRegs.moduleWidth, LinkRegs.kill, List.getD_eq_getElem?_getD, apart, e]

/-- A link dies with its last module (R173). -/
theorem dead_kill_iff {k : LinkRegs} {m : Nat} (hm : m < 8) (hw : k.widths.length = 16) :
    (k.kill m).dead = true ↔ ∀ n, n < 8 → n ≠ m → k.moduleWidth n = 3 := by
  simp only [dead_iff, moduleWidth_kill hm hw]
  refine ⟨fun all n hn other => ?_, fun all n hn => ?_⟩
  · simpa [other] using all n hn
  · by_cases e : n = m
    · exact if_pos e
    · rw [if_neg e]
      exact all n hn e

/-- The number of a direction of a module (R168). -/
def laneDir (m : Nat) (out : Bool) : Nat := 2 * m + (if out then 1 else 0)

/-- A link with one more retired lane in a module (R168, log entry 112). -/
def LinkRegs.retire (k : LinkRegs) (m : Nat) : LinkRegs := { k with retired := k.retired.set m (min 15 (k.retired.getD m 0 + 1)) }

section
variable {s : State} {i m : Nat} {out : Bool} (h : s.input = some (.laneFault i m out)) (hi : i < 12) (hm : m < 8) (lives : (s.link i).moduleWidth m ≠ 3)
include h hi hm lives

/-- A redundant lane of the direction takes over (R173). -/
theorem exec_laneFault_repaired (spare : (s.link i).spares.getD (laneDir m out) 0 < 4) : exec .laneFault s =
    .next ((s.setLink i { (s.link i).retire m with
      spares := (s.link i).spares.set (laneDir m out) ((s.link i).spares.getD (laneDir m out) 0 + 1) }.repair).linkEvent i 1 false (s.link i)) := by
  unfold laneDir at spare
  show execLaneFault s = _
  simp only [execLaneFault, h, Nat.not_le.mpr hi, Nat.not_le.mpr hm, lives, spare, decide_false, Bool.or_false, Bool.false_eq_true, if_false, if_true]
  rfl

variable (spent : 4 ≤ (s.link i).spares.getD (laneDir m out) 0)
include spent

/-- With no redundant lane left, the direction narrows (R173). -/
theorem exec_laneFault_narrowed (wide : (s.link i).widths.getD (laneDir m out) 3 < 2) : exec .laneFault s =
    .next ((s.setLink i { (s.link i).retire m with
      widths := (s.link i).widths.set (laneDir m out) ((s.link i).widths.getD (laneDir m out) 3 + 1) }.repair).linkEvent i 2 true (s.link i)) := by
  unfold laneDir at spent wide
  show execLaneFault s = _
  simp only [execLaneFault, h, Nat.not_le.mpr hi, Nat.not_le.mpr hm, lives, Nat.not_lt.mpr spent, wide, decide_false, Bool.or_false,
    Bool.false_eq_true, if_false, if_true]
  rfl

/-- At x16, the module ends, and with the last one the link (R173). -/
theorem exec_laneFault_ended (narrow : 2 ≤ (s.link i).widths.getD (laneDir m out) 3) : exec .laneFault s =
    let dead := ((s.link i).retire m).kill m
    let s1 := (s.setLink i dead).linkEvent i 5 true (s.link i)
    .next (if dead.dead then ((s1.setLink i { dead with status := 3, busy := false, repairing := false, down := true, announce := true }).linkEvent
      i 6 true dead).endReset.linkFree else s1) := by
  unfold laneDir at spent narrow
  show execLaneFault s = _
  simp only [execLaneFault, h, Nat.not_le.mpr hi, Nat.not_le.mpr hm, lives, Nat.not_lt.mpr spent, Nat.not_lt.mpr narrow, decide_false,
    Bool.or_false, Bool.false_eq_true, if_false]
  exact (apply_ite _ _ _ _).symm

end

section
variable {s : State} {i : Nat} (h : s.input = some (.replayWindow i))
include h

/-- A window that is not full has not ended (R169). -/
theorem exec_replayWindow_open (few : (s.link i).flits < 2 ^ 24) : exec .replayWindow s = .next s := by
  have test : (decide (12 ≤ i) || decide ((s.link i).flits < windowFlits)) = true := by
    rw [Bool.or_eq_true]
    exact .inr (decide_eq_true few)
  show execReplayWindow s = _
  simp only [execReplayWindow, h, Bool.or_eq_true, decide_eq_true_eq] at test ⊢
  rw [if_pos test]

/-- A window that has ended within its limit is measured (R169, R175); one over it is raised, and the link may fall back. -/
theorem exec_replayWindow_ended (hi : i < 12) (full : 2 ^ 24 ≤ (s.link i).flits) : exec .replayWindow s =
    let k := s.link i
    let next := { k with ber := k.window, window := 0, flits := 0 }
    let raised := (s.setLink i next).linkEvent i 4 true k
    .next (if k.replayMax ≠ 0 ∧ k.replayMax < k.window ∧ k.down = false then
      if k.autofb = true ∧ 32 < k.cur ∧ k.busy = false then
        raised.setLink i { next with busy := true, repairing := false, trying := k.cur - 4, fellBack := true }
      else raised
    else s.setLink i next) := by
  have open_ : ¬ (12 ≤ i ∨ (s.link i).flits < windowFlits) := by
    rintro (beyond | few)
    · omega
    · exact Nat.not_lt.mpr full few
  show execReplayWindow s = _
  simp only [execReplayWindow, h, Bool.or_eq_true, decide_eq_true_eq, if_neg open_, Bool.and_eq_true, bne_iff_ne, Bool.not_eq_true', and_assoc]
  split
  · split <;> rfl
  · rfl

end

section
variable {s : State} {i : Nat} {ok : Bool} {f : DieFlit} (h : s.input = some (.dieFlitReceive i ok f))
include h

/-- A link that retrains or is DOWN carries no flits (R171). -/
theorem exec_dieFlitReceive_stopped (stopped : (s.link i).busy = true ∨ (s.link i).down = true) : exec .dieFlitReceive s = .next s := by
  have test : (decide (12 ≤ i) || (s.link i).busy || (s.link i).down) = true := by
    simp only [Bool.or_eq_true]
    exact stopped.imp_left .inr
  show execDieFlitReceive s = _
  simp only [execDieFlitReceive, h, test, if_true]

/-- A flit that fails its CRC is counted and replayed, one that passes is taken (R165, R169). -/
theorem exec_dieFlitReceive_carried (hi : i < 12) (ready : (s.link i).busy = false) (up : (s.link i).down = false) : exec .dieFlitReceive s =
    .next ((if ok then s.takeDieFlit i f else s.setLink i { s.link i with
      crcErr := ((s.link i).crcErr + 1) % 2 ^ 32, replay := ((s.link i).replay + 1) % 2 ^ 32, window := (s.link i).window + 1 }).countFlit i) := by
  have test : (decide (12 ≤ i) || (s.link i).busy || (s.link i).down) = false := by simp [ready, up, Nat.not_le.mpr hi]
  show execDieFlitReceive s = _
  simp only [execDieFlitReceive, h, test, Bool.false_eq_true, if_false]
  cases ok <;> rfl

end

/-- The first raised event's wave is resident, and its lowest lane can take the trap: that is the lane (R176). -/
theorem degradedLane_first {s : State} {u l : Nat} {aux : Word} {r : List (Nat × Word)} {w : Wave} {ln : Lane} (raised : s.linkCtl.raised = (u, aux) :: r)
    (hw : s.wave u = some w) (resident : w.st = .resident) (first : w.lanes.head? = some (l, ln)) (ready : ln.degradable = true) :
    s.degradedLane = some (u, l, aux) := by
  obtain ⟨rest, lanes⟩ : ∃ rest, w.lanes = (l, ln) :: rest := List.head?_eq_some_iff.mp first
  simp [State.degradedLane, raised, hw, lanes, resident, ready]

/-- The trap of the first raised event (R176): its wave's other events are merged into it. -/
theorem exec_linkDegraded_first {s : State} {u l : Nat} {aux : Word} {r : List (Nat × Word)} {w : Wave} {ln : Lane}
    (raised : s.linkCtl.raised = (u, aux) :: r) (hw : s.wave u = some w) (resident : w.st = .resident) (first : w.lanes.head? = some (l, ln))
    (ready : ln.degradable = true) : exec .linkDegraded s =
      .next (takeTrap ((({ s with linkCtl := { s.linkCtl with raised := r.filter (fun e => e.1 != u) } } : State).setWave u
        (w.withdraw l)).modLane u l Lane.park) u l (Trap.mk 0x30 0 aux) false (s.unitLen w ln)) := by
  have merged : s.linkCtl.raised.filter (fun e => e.1 != u) = r.filter (fun e => e.1 != u) := by simp [raised]
  have lane : w.lane l = some ln := by
    obtain ⟨rest, lanes⟩ := List.head?_eq_some_iff.mp first
    simp [Wave.lane, lanes, sget]
  show execLinkDegraded s = _
  simp only [execLinkDegraded, degradedLane_first raised hw resident first ready, hw, merged, lane]

/-- No trap is due (R176). -/
theorem exec_linkDegraded_none {s : State} (none_ : s.degradedLane = none) : exec .linkDegraded s = .next s := by
  show execLinkDegraded s = _
  simp only [execLinkDegraded, none_]

/-- A store of a full line reads none of it at its home (R98). -/
theorem storeAs_fullLine (s : State) (agent la : Nat) {bs : List Byte} (full : 128 ≤ bs.length) :
    s.storeAs agent la bs = { s.ownBy agent (lineOf la) with mem := zwrite s.mem la bs } := by
  have test : (decide (bs.length < 128) && (sget s.dir (lineOf la)).isNone) = false := by simp [Nat.not_lt.mpr full]
  simp only [State.storeAs, test, Bool.false_eq_true, if_false]

/-- POISCRUB (R182). -/
theorem exec_poiscrub {s : State} {v : BitVec 64} (h : s.input = some (.poiscrub v)) : exec .poiscrub s = .next (s.writePoiscrub v) := by
  show execPoiscrub s = _
  simp only [execPoiscrub, h]

/-- A full-line store after a line's mark is cleared: it changes memory, the marks, the directory and what has been sent. -/
theorem unpoison_storeHome_rest (s : State) (line la : Nat) {bs : List Byte} (full : 128 ≤ bs.length) :
    let t := (s.unpoison line).storeHome la bs
    t = { s with mem := t.mem, poison := t.poison, ecc := t.ecc, dir := t.dir, sent := t.sent } ∧
      t.poison = (s.unpoison line).poison ∧ t.ecc = (s.unpoison line).ecc := by
  unfold State.storeHome
  rw [storeAs_fullLine _ _ _ full, ownBy_rest]
  exact ⟨rfl, rfl, rfl⟩

/-- A line cleared at its home: its mark goes, and zeros are stored (R182). -/
def State.scrub (s : State) (la : Nat) : State := (s.unpoison (lineOf la)).storeHome la (List.replicate 128 0)

theorem writePoiscrub_eq (s : State) (v : BitVec 64) :
    s.writePoiscrub v = if s.inHbm (bitsOf v.toNat 55 7 * 128) then s.scrub (localOf (bitsOf v.toNat 55 7 * 128)) else s := rfl

theorem scrub_rest (s : State) (la : Nat) : s.scrub la = { s with
      mem := (s.scrub la).mem, poison := (s.scrub la).poison, ecc := (s.scrub la).ecc, dir := (s.scrub la).dir, sent := (s.scrub la).sent } ∧
    (s.scrub la).poison = (s.unpoison (lineOf la)).poison ∧ (s.scrub la).ecc = (s.unpoison (lineOf la)).ecc :=
  unpoison_storeHome_rest s (lineOf la) la (List.length_replicate ▸ Nat.le_refl _)

/-- The bytes of memory after a scrub (R182). -/
theorem zget_scrub (s : State) (la a : Nat) : zget (s.scrub la).mem a = if la ≤ a ∧ a < la + 128 then 0 else zget s.mem a := by
  rw [State.scrub, mem_storeHome, zget_zwrite, List.length_replicate]
  refine ite_congr rfl (fun inside => ?_) (fun _ => rfl)
  have below : a - la < 128 := by omega
  rw [List.getD_eq_getElem?_getD, List.getElem?_replicate, if_pos below, Option.getD_some]

/-- A scrubbed line holds no error (R182). -/
theorem badLine_scrub (s : State) (la : Nat) : (s.scrub la).badLine (lineOf la) = false := by
  obtain ⟨-, poison, ecc⟩ := scrub_rest s la
  simp [State.badLine, State.latent, poison, ecc, State.unpoison]

/-- The accesses of a line that begins at an address meet that line alone. -/
theorem poisoned_line (s : State) {la : Nat} (aligned : la % 128 = 0) : s.poisoned la 128 = s.badLine (lineOf la) := by
  have last : lineOf (la + 128 - 1) = lineOf la := by
    unfold lineOf
    omega
  rw [State.poisoned, last, Bool.or_self]

/-- The local address of a line is aligned (R93). -/
theorem localOf_line (n : Nat) : localOf (n * 128) % 128 = 0 := by
  unfold localOf
  omega

end Sys2Proof.Machine
end

section
/-! The flows of the die protocol (R163 to R165, R356): where a good flit goes. -/

namespace Sys2Proof.Machine

/-- A flow with a way of its own, or none to take, keeps its route (R164). -/
theorem takeRoute_same {s : State} {d : DieFlit} (h : s.way d.src d.dst = none ∨ s.way d.src d.dst = some (s.flow (flowKey d)).route) :
    s.takeRoute d = s := by
  unfold State.takeRoute
  rcases h with none_ | same
  · simp only [none_]
  · simp only [same, if_true]

/-- On a new route a flow sends again what has no acknowledgement (R165). -/
theorem takeRoute_new {s : State} {d : DieFlit} {r : List Nat} (way : s.way d.src d.dst = some r) (new : r ≠ (s.flow (flowKey d)).route) :
    s.takeRoute d = (s.freeCredits (fun y => flowKey y == flowKey d)).setFlow (flowKey d)
      { s.flow (flowKey d) with route := r, resend := (s.flow (flowKey d)).unacked.map DieFlit.seq } := by
  simp only [State.takeRoute, way, if_neg (Ne.symm new)]

/-- A flow whose source need not send a flit again. -/
def Flow.acknowledge (x : Flow) (d : DieFlit) : Flow :=
  { x with unacked := x.unacked.filter (fun y => y.seq != d.seq), resend := x.resend.filter (fun n => n != d.seq) }

/-- A flit that has been delivered, or waits to be, is a duplicate (R165). -/
def Flow.HasSeen (x : Flow) (d : DieFlit) : Prop := d.seq < x.awaited ∨ ∃ y ∈ x.early, y.seq = d.seq

/-- A duplicate is discarded, any other flit is kept (R165). -/
theorem arrive_eq (x : Flow) (d : DieFlit) : (x.HasSeen d → x.arrive d = x.acknowledge d) ∧
    (¬ x.HasSeen d → x.arrive d = { x.acknowledge d with early := x.early ++ [d] }) := by
  have test : (decide (d.seq < x.awaited) || x.early.any (fun y => y.seq == d.seq)) = true ↔ x.HasSeen d := by
    simp only [Flow.HasSeen, Bool.or_eq_true, decide_eq_true_eq, List.any_eq_true, beq_iff_eq]
  exact ⟨fun seen => if_pos (test.mpr seen), fun new => if_neg (fun h => new (test.mp h))⟩

section
variable {x : Flow} {d : DieFlit}

/-- With nothing to send again, the next flit of the flow goes, and no other (R165). -/
theorem send_next (nothing : x.resend = []) :
    x.send d = if d.seq = x.next then some { x with next := x.next + 1, unacked := x.unacked ++ [d] } else none := by
  simp only [Flow.send, nothing]

/-- What goes again goes first, and in its order (R165). -/
theorem send_again {n : Nat} {r : List Nat} (again : x.resend = n :: r) :
    x.send d = if d.seq = n ∧ d ∈ x.unacked then some { x with resend := r } else none := by
  simp only [Flow.send, again, Bool.and_eq_true, decide_eq_true_eq, List.contains_iff_mem]

end

/-- With no flit that can be delivered, nothing is (R165, R356). -/
theorem settleFlows_stuck {s : State} (stuck : ∀ e ∈ s.flows, ∀ y ∈ e.2.early, y.seq ≠ e.2.awaited ∨ s.clockMet y = false) (n : Nat) :
    s.settleFlows n = s := by
  cases n with
  | zero => rfl
  | succ n =>
    have nothing : s.flows.findSome? (fun e => (e.2.early.find? (fun f => f.seq == e.2.awaited && s.clockMet f)).map (fun f => (e, f))) = none := by
      refine List.findSome?_eq_none_iff.mpr (fun e he => ?_)
      rw [Option.map_eq_none_iff, List.find?_eq_none]
      intro y hy
      rcases stuck e he y hy with early | unmet
      · simp [early]
      · simp [unmet]
    simp only [State.settleFlows, nothing]

/-! A good flit over a link, its flow x on its way in the state s. -/

/-- The flow once a link of its route has brought a flit: its source has sent it, or it stood at the hop before (R163, R165). -/
def State.brings (s : State) (x : Flow) (i : Nat) (d : DieFlit) (y : Flow) : Prop :=
  let j := x.route.idxOf i
  (j = 0 ∧ x.send d = some y) ∨ (j ≠ 0 ∧ (s.link (x.route.getD (j - 1) 0)).buffer.any (fun z => z.2 == d) = true ∧ y = x)

/-- The agent at the far end of a link of a route (R11). -/
def Flow.endAt (x : Flow) (i src : Nat) : Nat := (x.route.take (x.route.idxOf i + 1)).foldl (fun z l => farEnd l z) src

section
variable {s0 s : State} {x : Flow} {i : Nat} {d : DieFlit} (took : s0.takeRoute d = s) (flow : s.flow (flowKey d) = x)
include took flow

/-- The route does not lead by way of the link. -/
theorem takeDieFlit_beyond (beyond : x.route.length ≤ x.route.idxOf i) : s0.takeDieFlit i d = s := by
  subst took flow
  simp only [State.takeDieFlit, if_pos beyond]

variable (within : x.route.idxOf i < x.route.length)
include within

/-- At the first link of the route, a flit that its source does not send now is not taken. -/
theorem takeDieFlit_unsent (first : x.route.idxOf i = 0) (unsent : x.send d = none) : s0.takeDieFlit i d = s := by
  subst took flow
  simp only [State.takeDieFlit, if_neg (Nat.not_le.mpr within), if_pos first, unsent]

/-- At a later link, a flit that does not stand at the hop before is not taken. -/
theorem takeDieFlit_absent (later : x.route.idxOf i ≠ 0)
    (absent : (s.link (x.route.getD (x.route.idxOf i - 1) 0)).buffer.any (fun z => z.2 == d) = false) : s0.takeDieFlit i d = s := by
  subst took flow
  simp only [State.takeDieFlit, if_neg (Nat.not_le.mpr within), if_neg later, absent, Bool.false_eq_true, if_false]

/-- A flit that the link has brought: at its destination it joins its flow, at another hop it takes a credit, or is not taken. -/
theorem takeDieFlit_brought {y : Flow} (brought : s.brings x i d y) : s0.takeDieFlit i d =
    let freed := s.freeCredits (fun z => z == d)
    if x.route.idxOf i + 1 = x.route.length then
      let v := freed.setFlow (flowKey d) (y.arrive d)
      v.settleFlows (v.flows.map (fun e => e.2.early.length)).sum
    else if s.credit i (x.endAt i d.src) d.chan then
      let v := freed.setFlow (flowKey d) y
      v.setLink i { v.link i with buffer := (v.link i).buffer ++ [(x.endAt i d.src, d)] }
    else s := by
  subst took flow
  rcases brought with ⟨first, sent⟩ | ⟨later, stands, rfl⟩
  · simp only [State.takeDieFlit, if_neg (Nat.not_le.mpr within), if_pos first, sent]
    rfl
  · simp only [State.takeDieFlit, if_neg (Nat.not_le.mpr within), if_neg later, stands, if_true]
    rfl

end

end Sys2Proof.Machine
end

section
/-! What the reset of a core keeps of the others (R16, R432): where the waves stand, what the blocks list, the links, and the cores that are
reset already. -/

namespace Sys2Proof.Machine

/-- Where a wave stands: its block, whether it is on a core, and that core. -/
def Wave.place (w : Wave) : Nat × Bool × Nat := (w.block, w.onCore, w.coreKey)

/-- A core that has been reset with its Slip's jobs lost (R432, R434). -/
def CoreState.Lost (c : CoreState) : Prop := ∃ jobs, c = { CoreState.reset with jobs := jobs } ∧ ∀ j ∈ jobs, j.phase = .ending ∨ j.phase = .signalling

/-- Every wave on a core is one of its block's. -/
def State.Listed (s : State) : Prop := ∀ u w, s.wave u = some w → w.onCore = true → ∃ b, sget s.blocks w.block = some b ∧ u ∈ b.waves

/-- No wave stands on a core. -/
def State.Clear (s : State) (core : Nat) : Prop := ∀ u w, s.wave u = some w → ¬ (w.onCore = true ∧ w.coreKey = core)

/-- No wave comes to a core, the blocks list the waves on cores, and the links and the cores that are reset stay. -/
structure State.Loses (s t : State) : Prop where
  links : t.links = s.links
  lost : ∀ c, (s.core c).Lost → (t.core c).Lost
  waves : ∀ u w, t.wave u = some w → ∃ v, s.wave u = some v ∧ v.place = w.place
  listed : s.Listed → t.Listed

/-- The same, and no wave goes. -/
structure State.Stays (s t : State) : Prop where
  links : t.links = s.links
  lost : ∀ c, (s.core c).Lost → (t.core c).Lost
  waves : ∀ u, (t.wave u).map Wave.place = (s.wave u).map Wave.place
  blocks : ∀ k, (sget t.blocks k).map Block.waves = (sget s.blocks k).map Block.waves

section
variable {s t v : State}

theorem State.Loses.trans (h : s.Loses t) (k : t.Loses v) : s.Loses v where
  links := k.links.trans h.links
  lost c hc := k.lost c (h.lost c hc)
  waves u w hw := by
    obtain ⟨w1, h1, p1⟩ := k.waves u w hw
    obtain ⟨w2, h2, p2⟩ := h.waves u w1 h1
    exact ⟨w2, h2, p2.trans p1⟩
  listed hl := k.listed (h.listed hl)

theorem State.Stays.refl (s : State) : s.Stays s := ⟨rfl, fun _ => id, fun _ => rfl, fun _ => rfl⟩

theorem State.Stays.trans (h : s.Stays t) (k : t.Stays v) : s.Stays v where
  links := k.links.trans h.links
  lost c hc := k.lost c (h.lost c hc)
  waves u := (k.waves u).trans (h.waves u)
  blocks b := (k.blocks b).trans (h.blocks b)

/-- A wave that stays where it is was there before. -/
theorem State.Stays.wave (h : s.Stays t) {u : Nat} {w : Wave} (hw : t.wave u = some w) : ∃ v, s.wave u = some v ∧ v.place = w.place := by
  have e := h.waves u
  rw [hw, Option.map_some] at e
  exact Option.map_eq_some_iff.mp e.symm

theorem place_eq_iff {v w : Wave} : v.place = w.place ↔ v.block = w.block ∧ v.onCore = w.onCore ∧ v.coreKey = w.coreKey := by
  simp only [Wave.place, Prod.mk.injEq]

/-- A block lists what it listed before. -/
theorem State.Stays.block (h : s.Stays t) {k : Nat} {b : Block} (hb : sget s.blocks k = some b) : ∃ c, sget t.blocks k = some c ∧ c.waves = b.waves := by
  have e := h.blocks k
  rw [hb, Option.map_some] at e
  exact Option.map_eq_some_iff.mp e

theorem State.Stays.loses (h : s.Stays t) : s.Loses t where
  links := h.links
  lost := h.lost
  waves _ _ hw := h.wave hw
  listed hl u w hw on := by
    obtain ⟨v, hv, place⟩ := h.wave hw
    obtain ⟨block, onCore, -⟩ := place_eq_iff.mp place
    obtain ⟨b, hb, mem⟩ := hl u v hv (onCore.trans on)
    obtain ⟨c, hc, same⟩ := h.block hb
    exact ⟨c, block ▸ hc, same ▸ mem⟩

/-- A core that is clear stays so. -/
theorem State.Loses.clear (h : s.Loses t) {core : Nat} (clear : s.Clear core) : t.Clear core := by
  rintro u w hw ⟨on, there⟩
  obtain ⟨v, hv, place⟩ := h.waves u w hw
  obtain ⟨-, onCore, key⟩ := place_eq_iff.mp place
  exact clear u v hv ⟨onCore.trans on, key.trans there⟩

/-- An operation that touches none of these. -/
theorem State.Stays.of_eq (links : t.links = s.links) (cores : t.cores = s.cores) (waves : t.waves = s.waves) (blocks : t.blocks = s.blocks) :
    s.Stays t where
  links := links
  lost c := by unfold State.core; rw [cores]; exact id
  waves u := by unfold State.wave; rw [waves]
  blocks k := by rw [blocks]

/-- Steps one after another. -/
theorem State.Stays.foldl {α : Type} {f : State → α → State} (xs : List α) (s : State) (step : ∀ t : State, ∀ x ∈ xs, t.Stays (f t x)) : s.Stays (xs.foldl f s) := by
  induction xs generalizing s with
  | nil => exact .refl s
  | cons x xs ih => exact (step s x (List.mem_cons_self ..)).trans (ih (f s x) (fun t y hy => step t y (List.mem_cons_of_mem _ hy)))

end

/-! The single updates. -/

/-- A wave replaced where it stands. -/
theorem stays_setWave {s : State} {u : Nat} {v w : Wave} (hv : s.wave u = some v) (same : w.place = v.place) : s.Stays (s.setWave u w) where
  links := rfl
  lost _ := id
  waves x := by
    by_cases e : x = u
    · subst e
      rw [wave_setWave_same, hv, Option.map_some, Option.map_some, same]
    · rw [wave_setWave_other s w e]
  blocks _ := rfl

/-- A wave changed where it stands. -/
theorem stays_modWave (s : State) (u : Nat) {f : Wave → Wave} (same : ∀ w, (f w).place = w.place) : s.Stays (s.modWave u f) where
  links := rfl
  lost _ := id
  waves x := by
    rw [wave_modWave]
    split
    · next e => subst e; rw [Option.map_map]; exact congrArg (Option.map · _) (funext same)
    · rfl
  blocks _ := rfl

/-- A block changed that lists the same waves. -/
theorem stays_modBlock (s : State) (k : Nat) {f : Block → Block} (same : ∀ b, (f b).waves = b.waves) : s.Stays (s.modBlock k f) where
  links := rfl
  lost _ := id
  waves _ := rfl
  blocks x := by
    show (sget (smod s.blocks k f) x).map _ = _
    rw [sget_smod]
    split
    · next e => subst e; rw [Option.map_map]; exact congrArg (Option.map · _) (funext same)
    · rfl

theorem core_modCore (s : State) (k c : Nat) (f : CoreState → CoreState) : (s.modCore k f).core c = if c = k then f (s.core k) else s.core c := by
  simp only [State.core, State.modCore, sgetD, sget_sput]
  split <;> rfl

/-- A core changed that stays lost where it was. -/
theorem stays_modCore {s : State} {k : Nat} {f : CoreState → CoreState} (keeps : (s.core k).Lost → (f (s.core k)).Lost) : s.Stays (s.modCore k f) where
  links := rfl
  lost c := by
    rw [core_modCore]
    split
    · next e => subst e; exact keeps
    · exact id
  waves _ := rfl
  blocks _ := rfl

/-- Every wave changed where it stands. -/
theorem stays_mapWaves (s : State) {f : Nat × Wave → Wave} (same : ∀ e, (f e).place = e.2.place) :
    s.Stays { s with waves := s.waves.map (fun e => (e.1, f e)) } where
  links := rfl
  lost _ := id
  waves u := by
    have at_ := sget_map s.waves (fun x w => f (x, w)) u
    show (sget (s.waves.map (fun e => (e.1, f (e.1, e.2)))) u).map _ = _
    rw [at_, Option.map_map]
    exact congrArg (Option.map · _) (funext (fun w => same (u, w)))
  blocks _ := rfl

/-- Lanes that stop waiting. -/
theorem stays_release (s : State) (p : WaitKind → Bool) (status : Nat) (v : Word) (bytes : List Byte) : s.Stays (s.release p status v bytes) :=
  stays_mapWaves s (fun _ => rfl)

/-! Traps and the end of a lane (R302, R419, R423). -/

theorem stays_addPoison (s : State) (line : Nat) : s.Stays (s.addPoison line) := by
  unfold State.addPoison
  split
  · exact .refl s
  · exact .of_eq rfl rfl rfl rfl

theorem stays_noteBad (s : State) (t : Trap) : s.Stays (s.noteBad t) := by
  unfold State.noteBad
  split
  · split
    · exact stays_addPoison ..
    · exact .refl s
  · exact .refl s

theorem stays_setBarrier (s : State) (level inst index : Nat) (b : Barrier) : s.Stays (s.setBarrier level inst index b) := by
  unfold State.setBarrier
  split
  · exact stays_modWave _ _ (fun _ => rfl)
  · exact stays_modBlock _ _ (fun _ => rfl)
  · exact .of_eq rfl rfl rfl rfl

/-- A phase of a barrier within the package ends. -/
theorem stays_endPhase (s : State) {level : Nat} (here : level ≠ 5) (inst index status : Nat) : s.Stays (s.endPhase level inst index status) := by
  have nobody : (decide (level = 5) && !s.heldElsewhere level index) = false := by simp [here]
  simp only [State.endPhase, nobody, Bool.false_eq_true, if_false]
  exact (stays_setBarrier ..).trans (stays_release ..)

theorem stays_recheck (s : State) {level : Nat} (here : level ≠ 5) (inst index : Nat) : s.Stays (s.recheck level inst index) := by
  simp only [State.recheck]
  split
  · exact stays_endPhase s here ..
  · exact .refl s

theorem stays_endLane (s : State) (u l : Nat) : s.Stays (s.endLane u l) := by
  unfold State.endLane
  split
  · exact .refl s
  · next w hw =>
    exact ((stays_setWave hw (by rfl)).trans (stays_recheck (level := 0) _ (by decide) ..)).trans (.foldl _ _ (fun t i _ => stays_recheck (level := 1) t (by decide) ..))

theorem stays_fatal (s : State) (u l : Nat) : s.Stays (s.fatal u l) :=
  .trans (t := { s with fatalTraps := s.fatalTraps + 1 }) (.of_eq rfl rfl rfl rfl) (stays_endLane ..)

theorem stays_takeTrap (s : State) (u l : Nat) (t : Trap) (next : Bool) (len : Nat) : s.Stays (takeTrap s u l t next len) := by
  refine (stays_noteBad s t).trans ?_
  simp only [takeTrap]
  split
  · exact .refl _
  · next w hw =>
    split
    · exact .refl _
    · next ln _ =>
      split
      · exact stays_setWave hw rfl
      · split
        · exact stays_fatal ..
        · exact stays_setWave hw rfl

/-! A Kiln reset (R335). -/

theorem stays_dropClient (s : State) (c : Client) : s.Stays (s.dropClient c) := .of_eq rfl rfl rfl rfl

theorem stays_dropRequests (s : State) (p : Nat → Bool) : s.Stays (s.dropRequests p) := .of_eq rfl rfl rfl rfl

theorem stays_lostInst {s : State} {u : Nat} {w v : Wave} (hv : s.wave u = some v) (same : w.place = v.place) (x : XInst) : s.Stays (s.lostInst u w x) := by
  simp only [State.lostInst]
  refine ((stays_setWave hv ?_).trans (stays_modBlock _ _ ?_)).trans (.foldl _ _ (fun t a _ => stays_takeTrap ..))
  · exact same
  · exact fun _ => rfl

theorem stays_loseQuadTile (pc : VA) (c : Nat) (s : State) (u : Nat) : s.Stays (State.loseQuadTile pc c s u) := by
  unfold State.loseQuadTile
  split
  · exact .refl s
  · next w hw =>
    split
    · exact stays_lostInst hw (by rfl) _
    · exact .refl s

theorem stays_abortQuad (s : State) (u : Nat) : s.Stays (s.abortQuad u) := by
  unfold State.abortQuad
  split
  · split
    · exact .foldl _ _ (fun t v _ => stays_loseQuadTile ..)
    · exact .refl s
  · exact .refl s

theorem stays_loseTiles (s : State) (u : Nat) : s.Stays (s.loseTiles u) := by
  refine (stays_abortQuad s u).trans ?_
  simp only [State.loseTiles]
  split
  · exact .refl _
  · next w hw =>
    refine .trans (stays_setWave hw (by rfl)) (.foldl _ _ (fun t x _ => ?_))
    split
    · next v hv => exact stays_lostInst hv rfl x
    · exact .refl t

/-- A reset core's Kiln runs nothing. -/
theorem stays_loseKiln (s : State) (core : Nat) : s.Stays (s.loseKiln core) := by
  refine .trans (t := s.modCore core (fun c => { c with kiln := none })) (stays_modCore ?_) (.of_eq rfl rfl rfl rfl)
  rintro ⟨jobs, at_, phases⟩
  exact ⟨jobs, by rw [at_]; rfl, phases⟩

theorem stays_resetKiln (s : State) (core : Nat) : s.Stays (s.resetKiln core) :=
  (stays_loseKiln s core).trans (.foldl _ _ (fun t u _ => stays_loseTiles t u))

/-! Transfers that fail (R126, R240). -/

/-- A reset core has no slot that counts a transfer: one that fails leaves it as it is. -/
theorem counts_lost {s : State} {core : Nat} (lost : (s.core core).Lost) (i gen : Nat) (inbound : Bool) : s.counts core i gen inbound = false := by
  obtain ⟨jobs, at_, -⟩ := lost
  have empty : s.slot core i = Slot.reset := by rw [State.slot, at_]; rfl
  cases inbound <;> simp [State.counts, empty, Slot.reset]

theorem stays_failTransfer (s : State) (core i gen : Nat) (inbound : Bool) (cause : Nat) : s.Stays (s.failTransfer core i gen inbound cause) := by
  unfold State.failTransfer
  split
  · next counted =>
    refine .trans (stays_modCore (fun lost => ?_)) (stays_release ..)
    rw [counts_lost lost] at counted
    exact absurd counted Bool.false_ne_true
  · exact .refl s

theorem stays_loseCopies (s : State) (p : Nat → Bool) : s.Stays (s.loseCopies p) := by
  refine .foldl _ _ (fun t e _ => ?_)
  refine .trans (stays_modCore ?_) (.foldl _ _ (fun v c _ => (stays_failTransfer ..).trans (stays_dropClient ..)))
  rintro ⟨jobs, at_, phases⟩
  exact ⟨jobs, by rw [at_]; rfl, phases⟩

theorem stays_loseSlots (s : State) (core : Nat) (j : SlipJob) : s.Stays (s.loseSlots core j) := by
  unfold State.loseSlots
  split
  · exact .refl s
  · exact .foldl _ _ (fun t e _ => stays_failTransfer ..)

end Sys2Proof.Machine
end

section
/-! A block that is lost (R432). -/

namespace Sys2Proof.Machine

/-- Black cores are a matter of the object table (R376). -/
theorem blacken_rest (s : State) (group core : Nat) : s.blacken group core = { s with objs := (s.blacken group core).objs } := by
  unfold State.blacken
  split <;> rfl

/-- An object signalled from outside the groups changes the object table. -/
theorem signalled_rest (s : State) (idx : Nat) : s.signalled idx none = { s with objs := (s.signalled idx none).objs } := by
  unfold State.signalled
  generalize s.idleReceivers idx = rs
  induction rs generalizing s with
  | nil => rfl
  | cons r rs ih => rw [List.foldl_cons, ih, Option.bind_none, blacken_rest]

/-- A WAVE object that ends changes the object table. -/
theorem endWaveObj_rest (s : State) (idx u : Nat) (lost : Bool) : s.endWaveObj idx u lost = { s with objs := (s.endWaveObj idx u lost).objs } := by
  unfold State.endWaveObj
  split
  · split
    · split
      · rw [signalled_rest]; rfl
      · rfl
    · rfl
  · rfl

/-- One wave of a block that is lost (R432). -/
def State.loseWave (s : State) (u : Nat) : State :=
  match s.wave u with
  | none => s
  | some w => (({ s with waves := sdel s.waves u } : State).endWaveObj w.obj u true).taskWaveEnds u 7

/-- A lost wave goes; its object and its task change. -/
theorem loseWave_rest (s : State) (u : Nat) : ∃ ws objs setters, s.loseWave u = { s with waves := ws, objs := objs, setters := setters } ∧
    ∀ v, sget ws v = if v = u then none else s.wave v := by
  unfold State.loseWave
  split
  · next gone =>
    refine ⟨s.waves, s.objs, s.setters, rfl, fun v => ?_⟩
    split
    · next e => subst e; exact gone
    · rfl
  · rw [endWaveObj_rest]
    exact ⟨sdel s.waves u, _, _, rfl, sget_sdel s.waves u⟩

/-- Waves lost one after another. -/
theorem loseWaves_rest (us : List Nat) (s : State) : ∃ ws objs setters, us.foldl State.loseWave s = { s with waves := ws, objs := objs, setters := setters } ∧
    ∀ v, sget ws v = if v ∈ us then none else s.wave v := by
  induction us generalizing s with
  | nil => exact ⟨s.waves, s.objs, s.setters, rfl, fun v => rfl⟩
  | cons u us ih =>
    obtain ⟨ws, objs, setters, one, gone⟩ := loseWave_rest s u
    obtain ⟨ws', objs', setters', rest, gone'⟩ := ih (s.loseWave u)
    refine ⟨ws', objs', setters', ?_, fun v => ?_⟩
    · rw [List.foldl_cons, rest, one]
    · rw [gone', one, State.wave, gone]
      by_cases here : v = u
      · simp [here]
      · simp [here]

/-- A block that retires leaves the table, the run queue and its launch. -/
theorem retireBlock_rest {s : State} {k : Nat} {b : Block} (hb : sget s.blocks k = some b) (lost : Bool) : s.retireBlock k lost =
    { s with blocks := sdel s.blocks k, runQueue := (s.retireBlock k lost).runQueue, launches := (s.retireBlock k lost).launches } := by
  unfold State.retireBlock
  simp only [hb]
  split <;> rfl

section
variable {s : State} {k : Nat} {b : Block} (hb : sget s.blocks k = some b)
include hb

/-- A block that is lost goes with its waves; no core and no link changes (R432). -/
theorem loseBlock_rest : (s.loseBlock k).links = s.links ∧ (s.loseBlock k).cores = s.cores ∧ (s.loseBlock k).blocks = sdel s.blocks k ∧
    ∀ u, (s.loseBlock k).wave u = if u ∈ b.waves then none else s.wave u := by
  obtain ⟨ws, objs, setters, lost, gone⟩ := loseWaves_rest b.waves s
  have run : s.loseBlock k = ({ s with waves := ws, objs := objs, setters := setters } : State).retireBlock k true := by
    rw [← lost]
    simp only [State.loseBlock, hb]
    rfl
  rw [run, retireBlock_rest (s := { s with waves := ws, objs := objs, setters := setters }) hb]
  exact ⟨rfl, rfl, rfl, gone⟩

end

theorem loses_loseBlock (s : State) (k : Nat) : s.Loses (s.loseBlock k) := by
  cases hb : sget s.blocks k with
  | none =>
    have same : s.loseBlock k = s := by simp only [State.loseBlock, hb]
    rw [same]
    exact (State.Stays.refl s).loses
  | some b =>
    obtain ⟨links, cores, blocks, gone⟩ := loseBlock_rest hb
    have before {u : Nat} {w : Wave} (hw : (s.loseBlock k).wave u = some w) : u ∉ b.waves ∧ s.wave u = some w := by
      rw [gone] at hw
      split at hw
      · cases hw
      · next other => exact ⟨other, hw⟩
    refine ⟨links, fun c => ?_, fun u w hw => ⟨w, (before hw).2, rfl⟩, fun listed u w hw on => ?_⟩
    · simp only [State.core, cores, imp_self]
    · obtain ⟨other, hs⟩ := before hw
      obtain ⟨c, hc, mem⟩ := listed u w hs on
      have apart : w.block ≠ k := by
        intro e
        rw [e, hb] at hc
        cases hc
        exact other mem
      exact ⟨c, by rw [blocks, sget_sdel, if_neg apart]; exact hc, mem⟩

/-- No wave of a lost block stands on a core. -/
theorem block_ne_of_loseBlock {s : State} {k u : Nat} {w : Wave} (listed : s.Listed) (hw : (s.loseBlock k).wave u = some w) (on : w.onCore = true) :
    w.block ≠ k := by
  rintro rfl
  obtain ⟨c, hc, -⟩ := (loses_loseBlock s w.block).listed listed u w hw on
  obtain ⟨v, hv, place⟩ := (loses_loseBlock s w.block).waves u w hw
  obtain ⟨block, onCore, -⟩ := place_eq_iff.mp place
  obtain ⟨b, hb, -⟩ := listed u v hv (onCore.trans on)
  rw [(loseBlock_rest (block ▸ hb)).2.2.1, sget_sdel, if_pos rfl] at hc
  cases hc

/-- Blocks lost one after another: no wave of theirs stands on a core. -/
theorem loses_loseBlocks (ks : List Nat) (s : State) : s.Loses (ks.foldl State.loseBlock s) ∧
    (s.Listed → ∀ u w, (ks.foldl State.loseBlock s).wave u = some w → w.onCore = true → w.block ∉ ks) := by
  induction ks generalizing s with
  | nil => exact ⟨(State.Stays.refl s).loses, fun _ _ _ _ _ => List.not_mem_nil⟩
  | cons k ks ih =>
    have one := loses_loseBlock s k
    obtain ⟨rest, others⟩ := ih (s.loseBlock k)
    refine ⟨one.trans rest, fun listed u w hw on => ?_⟩
    obtain ⟨v, hv, place⟩ := rest.waves u w hw
    obtain ⟨block, onCore, -⟩ := place_eq_iff.mp place
    rw [List.mem_cons, not_or]
    exact ⟨block ▸ block_ne_of_loseBlock listed hv (onCore.trans on), others (one.listed listed) u w hw on⟩

end Sys2Proof.Machine
end

section
/-! The reset of a core with its Slip's jobs lost (R16, R432, R434), and of every core of a die. -/

namespace Sys2Proof.Machine

/-- A job of a lost channel has ended, or is being signalled (R240, R432). -/
theorem phase_lose {j : SlipJob} (started : j.phase ≠ .queued) : j.lose.phase = .ending ∨ j.lose.phase = .signalling := by
  unfold SlipJob.lose
  cases e : j.phase with
  | queued => exact absurd e started
  | running | faulted => exact .inl rfl
  | ending => dsimp only; split <;> exact .inl (by simp [e])
  | signalling => dsimp only; split <;> exact .inr (by simp [e])

/-- The blocks that stand on a core (R432). -/
def State.blocksOn (s : State) (core : Nat) : List Nat := (s.blocks.filter (fun e => s.blockOn core e.1 e.2)).map Prod.fst

/-- The block of a wave on a core stands there. -/
theorem mem_blocksOn {s : State} (listed : s.Listed) {u : Nat} {w : Wave} (hw : s.wave u = some w) (on : w.onCore = true) : w.block ∈ s.blocksOn w.coreKey := by
  obtain ⟨b, hb, -⟩ := listed u w hw on
  refine List.mem_map.mpr ⟨(w.block, b), List.mem_filter.mpr ⟨mem_of_sget hb, ?_⟩, rfl⟩
  rw [State.blockOn, Bool.or_eq_true, List.any_eq_true]
  exact .inr ⟨(u, w), mem_of_sget hw, by simp [on]⟩

/-- A core reset up to its blocks: its copies, its Kiln and what its waves have asked (R432). -/
def State.resetBeforeBlocks (s : State) (core : Nat) : State :=
  ((s.loseCopies (fun u => (s.wavesAt core).contains u)).resetKiln core).dropRequests
    (fun u => (skeys (s.waves.filter (fun e => (s.blocksOn core).contains e.2.block))).contains u)

/-- A core reset after its blocks: its engines' requests, the slots of its jobs, and the core itself (R126, R432). -/
def State.resetAfterBlocks (s : State) (core : Nat) : State :=
  let t := (s.dropClient (.kiln core)).dropClient (.slip core)
  ((t.core core).jobs.foldl (fun t j => t.loseSlots core j) t).modCore core (fun c => { CoreState.reset with jobs := c.jobs.map SlipJob.lose })

theorem resetCore_eq (s : State) (core : Nat) :
    s.resetCore core = ((s.blocksOn core).foldl State.loseBlock (s.resetBeforeBlocks core)).resetAfterBlocks core := rfl

theorem stays_resetBeforeBlocks (s : State) (core : Nat) : s.Stays (s.resetBeforeBlocks core) :=
  ((stays_loseCopies ..).trans (stays_resetKiln ..)).trans (stays_dropRequests ..)

theorem stays_resetAfterBlocks (s : State) (core : Nat) : s.Stays (s.resetAfterBlocks core) := by
  simp only [State.resetAfterBlocks]
  refine (((stays_dropClient ..).trans (stays_dropClient ..)).trans (.foldl _ _ (fun t j _ => stays_loseSlots ..))).trans (stays_modCore ?_)
  rintro ⟨jobs, at_, phases⟩
  refine ⟨jobs.map SlipJob.lose, by rw [at_], fun j hj => ?_⟩
  obtain ⟨i, hi, rfl⟩ := List.mem_map.mp hj
  exact phase_lose (by rcases phases i hi with e | e <;> simp [e])

/-- The reset of a core: it loses waves and nothing else of the others, and no wave is left on it (R432). -/
theorem loses_resetCore (s : State) (core : Nat) : s.Loses (s.resetCore core) ∧ (s.Listed → (s.resetCore core).Clear core) := by
  have first := (stays_resetBeforeBlocks s core).loses
  obtain ⟨blocks, gone⟩ := loses_loseBlocks (s.blocksOn core) (s.resetBeforeBlocks core)
  have last := (stays_resetAfterBlocks ((s.blocksOn core).foldl State.loseBlock (s.resetBeforeBlocks core)) core).loses
  rw [resetCore_eq]
  refine ⟨(first.trans blocks).trans last, fun listed => last.clear ?_⟩
  rintro u w hw ⟨on, there⟩
  obtain ⟨v, hv, place⟩ := (first.trans blocks).waves u w hw
  obtain ⟨block, onCore, key⟩ := place_eq_iff.mp place
  have stood := mem_blocksOn listed hv (onCore.trans on)
  rw [block, key, there] at stood
  exact gone (first.listed listed) u w hw on stood

/-- After its reset a core holds the jobs of its channel alone. -/
theorem core_resetCore (s : State) (core : Nat) : ∃ jobs, (s.resetCore core).core core = { CoreState.reset with jobs := jobs } := by
  rw [resetCore_eq, State.resetAfterBlocks, core_modCore, if_pos rfl]
  exact ⟨_, rfl⟩

/-- A core whose Slip loses all of its jobs (R434). -/
def CoreState.loseJobs (c : CoreState) : CoreState := { c with jobs := c.jobs.map (fun j =>
  match j.phase with
  | .queued => { j with phase := .ending, status := 3 }
  | .running | .faulted | .ending | .signalling => j.lose) }

theorem loseJobs_eq (s : State) (core : Nat) : s.loseJobs core = (s.modCore core CoreState.loseJobs).dropClient (.slip core) := rfl

/-- Every job of a Slip that loses them has ended, or is being signalled (R434). -/
theorem lost_loseJobs {c : CoreState} {jobs : List SlipJob} (at_ : c = { CoreState.reset with jobs := jobs }) : c.loseJobs.Lost := by
  subst at_
  refine ⟨_, rfl, fun j hj => ?_⟩
  obtain ⟨i, -, rfl⟩ := List.mem_map.mp hj
  split
  · exact .inl rfl
  all_goals exact phase_lose (by simp [*])

theorem stays_loseJobs (s : State) (core : Nat) : s.Stays (s.loseJobs core) := by
  rw [loseJobs_eq]
  refine .trans (stays_modCore ?_) (stays_dropClient ..)
  rintro ⟨jobs, at_, -⟩
  exact lost_loseJobs at_

/-- The core after its reset and the loss of its Slip's jobs. -/
theorem lost_core_loseJobs {s : State} {core : Nat} {jobs : List SlipJob} (at_ : s.core core = { CoreState.reset with jobs := jobs }) :
    ((s.loseJobs core).core core).Lost := by
  have here : (s.loseJobs core).core core = (s.core core).loseJobs := (core_modCore s core core CoreState.loseJobs).trans (if_pos rfl)
  rw [here]
  exact lost_loseJobs at_

/-- Cores reset one after another with their Slips' jobs lost, as an uncore reset does (R434). -/
def State.resetCores (s : State) (cs : List Nat) : State := cs.foldl (fun t c => (t.resetCore c).loseJobs c) s

/-- All of the cores are lost, and no wave is left on any. -/
theorem loses_resetCores (cs : List Nat) (s : State) : s.Loses (s.resetCores cs) ∧ (∀ c ∈ cs, ((s.resetCores cs).core c).Lost) ∧
    (s.Listed → ∀ c ∈ cs, (s.resetCores cs).Clear c) := by
  induction cs generalizing s with
  | nil => exact ⟨(State.Stays.refl s).loses, fun _ h => absurd h List.not_mem_nil, fun _ _ h => absurd h List.not_mem_nil⟩
  | cons c cs ih =>
    obtain ⟨core, clear⟩ := loses_resetCore s c
    obtain ⟨jobs, at_⟩ := core_resetCore s c
    have slip := (stays_loseJobs (s.resetCore c) c).loses
    obtain ⟨rest, lost, clears⟩ := ih ((s.resetCore c).loseJobs c)
    have one := core.trans slip
    exact ⟨one.trans rest, List.forall_mem_cons.mpr ⟨rest.lost c (lost_core_loseJobs at_), lost⟩, fun listed => List.forall_mem_cons.mpr
      ⟨rest.clear (slip.clear (clear listed)), clears (one.listed listed)⟩⟩

end Sys2Proof.Machine
end

section
/-! An uncore reset (R180, R434): the lines written back, the directory, and the links. -/

namespace Sys2Proof.Machine

theorem stays_writeBack (s : State) (line : Nat) : s.Stays (s.writeBack line) := by
  unfold State.writeBack
  split
  · exact .refl s
  · split
    · exact .refl s
    · split
      · split
        · exact .of_eq rfl rfl rfl rfl
        · exact .refl s
      · exact .of_eq rfl rfl rfl rfl

/-- A line written back, or marked at its home (R180, R181). -/
theorem stays_flushLine (s : State) (line : Nat) : s.Stays (s.flushLine line) := by
  simp only [State.flushLine]
  split
  · exact .refl s
  · next d _ =>
    split
    · exact .trans (t := { s with dir := sput s.dir line { d with st := .s, back := [] } }) (.of_eq rfl rfl rfl rfl) (stays_addPoison ..)
    · split
      · exact stays_writeBack ..
      · exact .of_eq rfl rfl rfl rfl

/-- The caches of a reset core are empty already. -/
theorem dropHomed_lost (s : State) (die : Nat) {c : CoreState} (lost : c.Lost) : (s.dropHomed die c).Lost := by
  obtain ⟨jobs, rfl, phases⟩ := lost
  exact ⟨jobs, rfl, phases⟩

theorem stays_resetDir (s : State) (die : Nat) : s.Stays (s.resetDir die) where
  links := rfl
  lost c lost := by
    have at_ := sget_map s.cores (fun _ => s.dropHomed die) c
    have here : (s.resetDir die).core c = ((sget s.cores c).map (s.dropHomed die)).getD CoreState.reset := congrArg (Option.getD · CoreState.reset) at_
    rw [here]
    unfold State.core sgetD at lost
    cases e : sget s.cores c with
    | none => rw [e] at lost; exact lost
    | some x => rw [e] at lost; exact dropHomed_lost s die lost
  waves _ := rfl
  blocks _ := rfl

/-- A number without a bit that it has. -/
theorem bitOf_sub_of_bitOf {v n : Nat} (h : bitOf v n = true) : bitOf (v - 2 ^ n) n = false := by
  have odd : v / 2 ^ n % 2 = 1 := by simpa [bitOf] using h
  have less : (v - 2 ^ n) / 2 ^ n = v / 2 ^ n - 1 := by simpa using Nat.sub_mul_div v (2 ^ n) 1
  have even : (v - 2 ^ n) / 2 ^ n % 2 = 0 := by omega
  simp [bitOf, even]

/-- After the reset of a die's uncore no line homed there has a copy, and its L2 has none (R180). -/
theorem resetDir_lines (s : State) (die : Nat) {line : Nat} {d : DirLine} (h : sget (s.resetDir die).dir line = some d) :
    s.lineHome line ≠ die ∧ bitOf d.present die = false := by
  obtain ⟨⟨l, e⟩, kept, at_⟩ := List.mem_map.mp (mem_of_sget h)
  obtain ⟨-, test⟩ := List.mem_filter.mp kept
  obtain ⟨rfl, rfl⟩ := Prod.mk.injEq .. ▸ at_
  simp only [Bool.and_eq_true, bne_iff_ne] at test
  refine ⟨test.1, ?_⟩
  split
  · next has => exact bitOf_sub_of_bitOf has
  · next hasnt => exact Bool.eq_false_iff.mpr hasnt

/-- A link reset, which keeps whether it is DOWN and what stands at its ends (R165, R166). -/
def LinkRegs.restart (k : LinkRegs) : LinkRegs := { LinkRegs.reset with busy := true, announce := true, down := k.down, buffer := k.buffer }

theorem link_resetLink_same (s : State) {i : Nat} (hi : i < s.links.length) : (s.resetLink i).link i = (s.link i).restart := by
  unfold State.resetLink State.setLink
  rw [State.link, List.getElem?_set_self hi]
  rfl

theorem link_resetLink_other (s : State) {i j : Nat} (h : j ≠ i) : (s.resetLink i).link j = s.link j := by
  unfold State.resetLink State.setLink
  rw [State.link, List.getElem?_set_ne (Ne.symm h)]
  rfl

theorem length_resetLink (s : State) (i : Nat) : (s.resetLink i).links.length = s.links.length := List.length_set

/-- The die's cores after their reset, the lines its L2 held, and those of its own that others held, written back (R180). -/
def State.resetAgents (s : State) (die : Nat) : State :=
  let s1 := s.resetCores ((List.range (s.coreCount die)).map (coreKey die))
  let s2 := (s1.heldBy die).foldl State.flushLine s1
  (s2.heldElsewhereOf die).foldl State.flushLine s2

/-- The die's three links reset (R180). -/
def State.resetLinks (s : State) (die : Nat) : State := ((s.resetLink die).resetLink (6 + die)).resetLink (6 + (die + 5) % 6)

/-- The same, with BUSY set until they have trained (R180). -/
def State.restartLinks (s : State) (die : Nat) : State :=
  let t := s.resetLinks die
  { t with linkCtl := { t.linkCtl with resetBusy := true, resetDie := some die }, freeCtr := t.freeCtr + 1 }

theorem resetUncore_eq (s : State) {die : Nat} (h : die < 6) : s.resetUncore die = ((s.resetAgents die).resetDir die).restartLinks die := by
  simp only [State.resetUncore, if_neg (Nat.not_le.mpr h), State.resetAgents, State.resetCores, State.restartLinks, State.resetLinks]

/-- A link that is reset changes no core, wave or line. -/
theorem resetLink_rest (s : State) (i : Nat) : (s.resetLink i).cores = s.cores ∧ (s.resetLink i).waves = s.waves ∧ (s.resetLink i).dir = s.dir ∧
    (s.resetLink i).cfg = s.cfg := ⟨rfl, rfl, rfl, rfl⟩

/-- Nor do all of a die's. -/
theorem restartLinks_rest (s : State) (die : Nat) : (s.restartLinks die).cores = s.cores ∧ (s.restartLinks die).waves = s.waves ∧
    (s.restartLinks die).dir = s.dir ∧ (s.restartLinks die).cfg = s.cfg := by
  simp only [State.restartLinks, State.resetLinks, resetLink_rest, and_self]

theorem stays_flushLines (s : State) (ls : List Nat) : s.Stays (ls.foldl State.flushLine s) := .foldl _ _ (fun t l _ => stays_flushLine t l)

/-- What the die's agents lose: waves of its cores, and the cores' contents. -/
theorem loses_resetAgents (s : State) (die : Nat) : s.Loses (s.resetAgents die) ∧
    (∀ c, c < s.coreCount die → ((s.resetAgents die).core (coreKey die c)).Lost) ∧
    (s.Listed → ∀ c, c < s.coreCount die → (s.resetAgents die).Clear (coreKey die c)) := by
  unfold State.resetAgents
  have one {c : Nat} (h : c < s.coreCount die) : coreKey die c ∈ (List.range (s.coreCount die)).map (coreKey die) :=
    List.mem_map_of_mem (List.mem_range.mpr h)
  obtain ⟨cores, lost, clear⟩ := loses_resetCores ((List.range (s.coreCount die)).map (coreKey die)) s
  generalize s.resetCores ((List.range (s.coreCount die)).map (coreKey die)) = s1 at cores lost clear ⊢
  have rest := ((stays_flushLines s1 (s1.heldBy die)).trans (stays_flushLines _ ((((s1.heldBy die).foldl State.flushLine s1)).heldElsewhereOf die))).loses
  exact ⟨cores.trans rest, fun c h => rest.lost _ (lost _ (one h)), fun listed c h => rest.clear (clear listed _ (one h))⟩

/-- The links of a die are three. -/
theorem link_resetLinks {s : State} {die : Nat} (h : die < 6) (all : s.links.length = 12) {i : Nat} (hi : i = die ∨ i = 6 + die ∨ i = 6 + (die + 5) % 6) :
    (s.resetLinks die).link i = (s.link i).restart := by
  have apart : die ≠ 6 + die ∧ die ≠ 6 + (die + 5) % 6 ∧ 6 + die ≠ 6 + (die + 5) % 6 := by omega
  obtain ⟨a, b, c⟩ := apart
  have length₁ : (s.resetLink die).links.length = 12 := (length_resetLink ..).trans all
  have length₂ : ((s.resetLink die).resetLink (6 + die)).links.length = 12 := (length_resetLink ..).trans length₁
  unfold State.resetLinks
  rcases hi with rfl | rfl | rfl
  · rw [link_resetLink_other _ b, link_resetLink_other _ a, link_resetLink_same _ (by omega)]
  · rw [link_resetLink_other _ c, link_resetLink_same _ (by omega), link_resetLink_other _ (Ne.symm a)]
  · rw [link_resetLink_same _ (by omega), link_resetLink_other _ (Ne.symm c), link_resetLink_other _ (Ne.symm b)]

/-- UNCRST (R180). -/
theorem exec_uncrst {s : State} {die : Nat} (h : s.input = some (.uncrst die)) : exec .uncrst s = .next (s.resetUncore die) := by
  show execUncrst s = _
  simp only [execUncrst, h]

/-- A die has three links (R16). -/
theorem mem_dieLinks {d i : Nat} : i ∈ dieLinks d ↔ i = d ∨ i = 6 + d ∨ i = 6 + (d + 5) % 6 := by simp [dieLinks]

/-- The reset of an uncore goes on while a link of its die trains, and is over then (R180). -/
theorem endReset_eq {s : State} {d : Nat} (h : s.linkCtl.resetDie = some d) : s.endReset =
    if ∃ i ∈ dieLinks d, (s.link i).busy = true then s else { s with linkCtl := { s.linkCtl with resetBusy := false, resetDie := none } } := by
  simp only [State.endReset, h, List.any_eq_true]

/-- The links' restart in a state that has lost what the die's reset loses. -/
theorem resetUncore_of_loses {s v : State} {die : Nat} (h : die < 6) (all : s.links.length = 12) (loses : s.Loses v) :
    ((v.restartLinks die).linkCtl.resetBusy = true ∧ (v.restartLinks die).linkCtl.resetDie = some die) ∧
      (∀ i ∈ dieLinks die, (v.restartLinks die).link i = (s.link i).restart) ∧ (∀ c, (v.core c).Lost → ((v.restartLinks die).core c).Lost) ∧
      (∀ c, v.Clear c → (v.restartLinks die).Clear c) := by
  obtain ⟨cores, waves, -, -⟩ := restartLinks_rest v die
  refine ⟨⟨rfl, rfl⟩, fun i hi => ?_, fun c lost => ?_, fun c clear => ?_⟩
  · have before : v.link i = s.link i := by simp only [State.link, loses.links]
    exact (link_resetLinks h (loses.links ▸ all) (mem_dieLinks.mp hi)).trans (congrArg LinkRegs.restart before)
  · simpa only [State.core, cores] using lost
  · simpa only [State.Clear, State.wave, waves] using clear

/-- The directory after the links' restart (R180). -/
theorem restartLinks_lines (u : State) (die : Nat) {line : Nat} {d : DirLine} (h : sget ((u.resetDir die).restartLinks die).dir line = some d) :
    ((u.resetDir die).restartLinks die).lineHome line ≠ die ∧ bitOf d.present die = false := by
  obtain ⟨-, -, dir, cfg⟩ := restartLinks_rest (u.resetDir die) die
  rw [dir] at h
  have home : ((u.resetDir die).restartLinks die).lineHome line = u.lineHome line := by
    simp only [State.lineHome, State.homeDie, State.poolEnd, cfg]
    rfl
  rw [home]
  exact resetDir_lines u die h

end Sys2Proof.Machine
end

section
/-! The events of a die link, and an uncore reset: O45. -/

namespace Sys2Proof.Laws
open Sys2Proof.Machine

/-- Settles O45: each event of a link by its own law above, a good flit by what its flow's way does with it, an uncore reset by what the resets
of its cores keep of the others. -/
theorem dieLinks : Obligations.DieLinks := by
  refine ⟨fun s i hi length => ⟨?rate, ?stepsDown, ?dead, ?repaired, ?trained, ?fault, ?window, ?flit, ?route, ?flow, ?stuck, ?trap, ?noTrap, ?scrub⟩,
    ?reset, ?ended⟩
  case rate =>
    intro v h
    rw [exec_lkrateWrite h hi]
    obtain ⟨taken, refused⟩ := writeLkrate_eq s i v
    exact ⟨fun ok => congrArg _ (taken ok), fun no => congrArg _ (refused no)⟩
  case stepsDown => exact fun h busy lives => exec_linkTrainingDone_fails h hi busy lives rfl
  case dead => exact fun ok h busy dead => exec_linkTrainingDone_dead h hi busy dead
  case repaired => exact fun h busy lives repairing => exec_linkTrainingDone_repaired h hi busy lives rfl repairing
  case trained => exact fun h busy lives whole => exec_linkTrainingDone_trained h hi busy lives rfl whole
  case fault =>
    intro m out h hm widths _ _ lives
    refine ⟨exec_laneFault_repaired h hi hm lives, exec_laneFault_narrowed h hi hm lives, fun spent narrow => ?_⟩
    have ended := exec_laneFault_ended h hi hm lives spent narrow
    have dies := dead_kill_iff (k := (s.link i).retire m) hm widths
    refine ⟨?_, fun others => ?_⟩
    · rintro ⟨n, hn, other, living⟩
      exact ended.trans (congrArg _ (if_neg (fun dead => living (dies.mp dead n hn other))))
    · exact ended.trans (congrArg _ (if_pos (dies.mpr others)))
  case window =>
    intro h
    have ended := exec_replayWindow_ended h hi
    refine ⟨exec_replayWindow_open h, fun full within => ?_, fun full limit above up => ⟨fun falls => ?_, fun stays => ?_⟩⟩
    · refine (ended full).trans (congrArg _ (if_neg ?_))
      rintro ⟨limit, above, up⟩
      rcases within with none_ | within | down
      · exact limit none_
      · omega
      · simp [up] at down
    · exact (ended full).trans (congrArg _ ((if_pos ⟨limit, above, up⟩).trans (if_pos falls)))
    · exact (ended full).trans (congrArg _ ((if_pos ⟨limit, above, up⟩).trans (if_neg stays)))
  case flit =>
    intro f ok h
    refine ⟨exec_dieFlitReceive_stopped h, fun ready up => ?_⟩
    have carried := exec_dieFlitReceive_carried h hi ready up
    refine ⟨?_, ?_⟩
    · rintro rfl
      exact carried
    · rintro rfl
      have ends {v : State} (taken : s.takeDieFlit i f = v) : exec .dieFlitReceive s = .next (v.countFlit i) := taken ▸ carried
      refine ⟨fun beyond => ends (takeDieFlit_beyond rfl rfl beyond), fun within => ⟨fun first unsent => ends (takeDieFlit_unsent rfl rfl within first unsent),
        fun later absent => ends (takeDieFlit_absent rfl rfl within later absent), fun y brought => ?_⟩⟩
      have taken := takeDieFlit_brought rfl rfl within brought
      exact ⟨fun last => ends (taken.trans (if_pos last)),
        fun more none_ => ends (taken.trans ((if_neg (Nat.ne_of_lt more)).trans (if_neg (Bool.eq_false_iff.mp none_)))),
        fun more credit => ends (taken.trans ((if_neg (Nat.ne_of_lt more)).trans (if_pos credit)))⟩
  case route => exact fun d => ⟨takeRoute_same, fun r way new => takeRoute_new way new⟩
  case flow =>
    intro x d
    obtain ⟨seen, new⟩ := arrive_eq x d
    refine ⟨seen, fun ahead absent => new ?_, fun nothing next => ?_, fun nothing other => ?_, fun n r again other => ?_, fun n r again first kept => ?_⟩
    · rintro (before | ⟨y, hy, same⟩)
      · omega
      · exact absent y hy same
    · exact (send_next nothing).trans (if_pos next)
    · exact (send_next nothing).trans (if_neg other)
    · exact (send_again again).trans (if_neg (fun h => other h.1))
    · exact (send_again again).trans (if_pos ⟨first, kept⟩)
  case stuck => exact fun n stuck => settleFlows_stuck stuck n
  case trap => exact fun u aux r w l ln raised hw resident first ready => exec_linkDegraded_first raised hw resident first ready
  case noTrap => exact exec_linkDegraded_none
  case scrub =>
    intro v h
    have run := (exec_poiscrub h).trans (congrArg _ (writePoiscrub_eq s v))
    refine ⟨fun elsewhere => run.trans (congrArg _ (if_neg (Bool.eq_false_iff.mp elsewhere))), fun here =>
      ⟨s.scrub _, run.trans (congrArg _ (if_pos here)), (scrub_rest ..).1, fun a low high => ?_, fun a outside => ?_, ?_⟩⟩
    · exact (zget_scrub ..).trans (if_pos ⟨low, high⟩)
    · exact (zget_scrub ..).trans (if_neg (by omega))
    · rw [poisoned_line _ (localOf_line _)]
      exact badLine_scrub ..
  case reset =>
    intro s die h
    rw [exec_uncrst h]
    refine ⟨fun none_ => congrArg _ (if_pos none_), fun some_ all => ⟨_, rfl, ?_⟩⟩
    obtain ⟨loses, lost, clear⟩ := loses_resetAgents s die
    rw [resetUncore_eq s some_]
    generalize s.resetAgents die = t at loses lost clear ⊢
    have directory := (stays_resetDir t die).loses
    obtain ⟨⟨busy, resetDie⟩, links, cores, waves⟩ := resetUncore_of_loses some_ all (loses.trans directory)
    exact ⟨busy, resetDie, fun i hi => links i (mem_dieLinks.mpr hi), fun c hc => cores _ (directory.lost _ (lost c hc)),
      fun line d => restartLinks_lines t die, fun listed u w hw c hc => waves _ (directory.clear (clear listed c hc)) u w hw⟩
  case ended =>
    intro s d h
    rw [endReset_eq h]
    refine ⟨?_, fun trained => if_neg ?_⟩
    · rintro ⟨i, hi, busy⟩
      exact if_pos ⟨i, mem_dieLinks.mpr hi, busy⟩
    · rintro ⟨i, hi, busy⟩
      simp [trained i (mem_dieLinks.mp hi)] at busy

end Sys2Proof.Laws
end

section
/-! Flits that leave by a port (R184, R195, R199), and what sending leaves as it is. -/

namespace Sys2Proof.Machine

/-- One more flit of the group that is being filled, of 16 (R195). -/
def KeyDir.carry (k : KeyDir) : KeyDir := if 15 ≤ k.filled then k.endGroup else { k with filled := k.filled + 1 }

/-- A direction's keys as they are listed. -/
theorem dir_of_listed {f : Fabric} {port : Nat} {tx : Bool} {k : KeyDir} (h : f.keys[2 * port + (if tx then 1 else 0)]? = some k) :
    f.dir port tx = k := by
  simp only [Fabric.dir, h, Option.getD_some]

/-- A flit without a key changes, of the package, what has been sent. -/
theorem leave_unkeyed {s : State} {q : Nat} (o : Outgoing) (h : s.fabric.keyed q = false) :
    s.leave q o = { s with sent := .flit q o.class (s.fabric.txGen q) o :: s.sent } := by
  simp [State.leave, h]

/-- A group counted takes its direction's keys to the next group. -/
theorem keys_countGroup (s : State) (port : Nat) (tx : Bool) :
    (s.countGroup port tx).fabric.keys = s.fabric.keys.modify (2 * port + (if tx then 1 else 0)) KeyDir.endGroup := by
  simp only [State.countGroup]
  split <;> rfl

/-- A keyed port lists its sending direction. -/
theorem listed_of_keyed {f : Fabric} {q : Nat} (h : f.keyed q = true) : ∃ k, f.keys[2 * q + 1]? = some k := by
  unfold Fabric.keyed at h
  split at h
  · next k hk => exact ⟨k, hk⟩
  · cases h

/-- A flit under a key is one more of its group. -/
theorem keys_leave {s : State} {q : Nat} (o : Outgoing) (h : s.fabric.keyed q = true) :
    (s.leave q o).fabric.keys = s.fabric.keys.modify (2 * q + 1) KeyDir.carry := by
  obtain ⟨k, hk⟩ := listed_of_keyed h
  have dir : s.fabric.dir q true = k := dir_of_listed hk
  have same {f : KeyDir → KeyDir} (e : f k = k.carry) : s.fabric.keys.modify (2 * q + 1) f = s.fabric.keys.modify (2 * q + 1) KeyDir.carry := by
    apply List.ext_getElem?
    intro i
    rw [List.getElem?_modify, List.getElem?_modify]
    by_cases at_ : 2 * q + 1 = i
    · subst at_
      simp [hk, e]
    · simp [at_]
  unfold State.leave
  simp only [h, dir, Bool.not_true, Bool.false_eq_true, if_false]
  split
  · next full =>
    rw [keys_countGroup]
    exact same (if_pos full).symm
  · next room => exact same (if_neg room).symm

/-- Every flit that leaves is listed first, with its class and its group's key bit. -/
theorem sent_leave (s : State) (q : Nat) (o : Outgoing) : (s.leave q o).sent = .flit q o.class (s.fabric.txGen q) o :: s.sent := by
  simp only [State.leave, State.countGroup]
  repeat' split
  all_goals rfl

theorem waiting_leave (s : State) (q : Nat) (o : Outgoing) : (s.leave q o).waiting = s.waiting := by
  simp only [State.leave, State.countGroup]
  repeat' split
  all_goals rfl

/-- The port that a flit takes can carry it. -/
theorem open_of_exitPort {s : State} {port q : Nat} {o : Outgoing} (h : s.exitPort port o = some q) :
    s.fabric.ports.getD q 0 = 2 ∧ (o.keyless = true ∨ (s.accepted 1 = true ∧ s.fabric.keyed q = true)) := by
  have open_ : s.portOpen o q = true := List.find?_some h
  simpa only [State.portOpen, Bool.and_eq_true, Bool.or_eq_true, beq_iff_eq] using open_

theorem sendFlit_leaves {s : State} {port q : Nat} {o : Outgoing} (h : s.exitPort port o = some q) : s.sendFlit port o = s.leave q o := by
  simp only [State.sendFlit, h]

theorem sendFlit_waits {s : State} {port : Nat} {o : Outgoing} (h : s.exitPort port o = none) :
    s.sendFlit port o = { s with waiting := s.waiting ++ [(port, o)] } := by
  simp only [State.sendFlit, h]

/-- What sending may change: the keys of sending directions whose port is UP, the requests and multicasts on their way, what leaves or
waits, and the agenda. No request comes into being. -/
structure State.Sends (s t : State) : Prop where
  rest : t = { s with
    fabric := { s.fabric with keys := t.fabric.keys, out := t.fabric.out, casts := t.fabric.casts, seqs := t.fabric.seqs },
    sent := t.sent, waiting := t.waiting, agenda := t.agenda }
  received : ∀ p, t.fabric.keys[2 * p]? = s.fabric.keys[2 * p]?
  closed : ∀ p, s.fabric.ports.getD p 0 ≠ 2 → t.fabric.keys[2 * p + 1]? = s.fabric.keys[2 * p + 1]?
  out : ∀ n, sget s.fabric.out n = none → sget t.fabric.out n = none

section
variable {s t u : State}

theorem State.Sends.refl (s : State) : s.Sends s := ⟨rfl, fun _ => rfl, fun _ _ => rfl, fun _ => id⟩

theorem State.Sends.ports (h : s.Sends t) : t.fabric.ports = s.fabric.ports := by rw [h.rest]

theorem State.Sends.trans (h : s.Sends t) (k : t.Sends u) : s.Sends u where
  rest := by
    have e := k.rest
    rw [h.rest] at e
    exact e
  received p := (k.received p).trans (h.received p)
  closed p hp := (k.closed p (by rw [h.ports]; exact hp)).trans (h.closed p hp)
  out n hn := k.out n (h.out n hn)

/-- Sending one thing after another. -/
theorem State.Sends.foldl {α : Type} {f : State → α → State} (step : ∀ (t : State) (x : α), t.Sends (f t x)) (xs : List α) (s : State) :
    s.Sends (xs.foldl f s) := by
  induction xs generalizing s with
  | nil => exact .refl s
  | cons x xs ih => exact (step s x).trans (ih _)

end

/-- A flit that leaves, or waits, sends. -/
theorem sendFlit_sends (s : State) (port : Nat) (o : Outgoing) : s.Sends (s.sendFlit port o) := by
  have frame := sendFlit_announces s port o
  have announcing := sendFlit_announcing s port o
  have rest : s.sendFlit port o = { s with
      fabric := { s.fabric with keys := (s.sendFlit port o).fabric.keys, out := (s.sendFlit port o).fabric.out,
                                casts := (s.sendFlit port o).fabric.casts, seqs := (s.sendFlit port o).fabric.seqs },
      sent := (s.sendFlit port o).sent, waiting := (s.sendFlit port o).waiting, agenda := (s.sendFlit port o).agenda } := by
    unfold State.Announces at frame
    rw [announcing] at frame
    rw [frame]
  have out : (s.sendFlit port o).fabric.out = s.fabric.out := by rw [frame]
  suffices keys : ∀ i, (∀ q, i = 2 * q + 1 → s.fabric.ports.getD q 0 ≠ 2) → (s.sendFlit port o).fabric.keys[i]? = s.fabric.keys[i]? from
    ⟨rest, fun p => keys _ (by omega), fun p hp => keys _ (fun q e => by obtain rfl : p = q := by omega
                                                                         exact hp), fun n hn => by rw [out]; exact hn⟩
  intro i other
  cases exit : s.exitPort port o with
  | none => rw [sendFlit_waits exit]
  | some q =>
    rw [sendFlit_leaves exit]
    cases keyed : s.fabric.keyed q with
    | false => rw [leave_unkeyed o keyed]
    | true =>
      obtain ⟨up, -⟩ := open_of_exitPort exit
      rw [keys_leave o keyed, List.getElem?_modify_ne _ _ (fun e => other q e.symm up)]

theorem sends_ite {s t u : State} {p : Prop} [Decidable p] (h : s.Sends t) (k : s.Sends u) : s.Sends (if p then t else u) := by
  split
  · exact h
  · exact k

/-- What else leaves with a flit. -/
theorem sends_more (s : State) (os : List Outgoing) : s.Sends { s with sent := os } := ⟨rfl, fun _ => rfl, fun _ _ => rfl, fun _ => id⟩

/-- The flits that waited are sent. -/
theorem sendWaiting_sends (s : State) : s.Sends s.sendWaiting :=
  State.Sends.trans (t := { s with waiting := [] }) ⟨rfl, fun _ => rfl, fun _ _ => rfl, fun _ => id⟩
    (.foldl (fun t (x : Nat × Outgoing) => sendFlit_sends t x.1 x.2) ..)

/-- A held request that is sent is still under way. -/
theorem trySend_sends (s : State) (req : Nat) : s.Sends (s.trySend req) := by
  unfold State.trySend
  split
  · exact .refl s
  · next r hr =>
    split
    · exact .refl s
    · split
      · exact .refl s
      · have listed : ∀ n, sget s.fabric.out n = none → n ≠ req := by
          rintro n hn rfl
          rw [hr] at hn
          cases hn
        have numbered (port : Nat) (x : OutReq) : s.Sends (State.takeSeq { s with fabric := { s.fabric with out := sput s.fabric.out req x } } port) :=
          ⟨rfl, fun _ => rfl, fun _ _ => rfl, fun n hn => (sget_sput_other _ _ (listed n hn)).trans hn⟩
        exact (numbered ..).trans (sendFlit_sends ..)

/-- A held multicast that is sent. -/
theorem tryCast_sends (s : State) (n : Nat) : s.Sends (s.tryCast n) := by
  unfold State.tryCast
  split
  · exact .refl s
  · refine sends_ite (.refl s) ?_
    split
    · exact .refl s
    · have numbered (c : CastReq) (port : Nat) : s.Sends (State.takeSeq { s with fabric := { s.fabric with casts := sput s.fabric.casts n c } } port) :=
        ⟨rfl, fun _ => rfl, fun _ _ => rfl, fun _ => id⟩
      dsimp only
      split
      · exact numbered ..
      · exact ((numbered ..).trans (sendFlit_sends ..)).trans (sends_more ..)

/-- All that was held and can leave is sent. -/
theorem sendHeld_sends (s : State) : s.Sends s.sendHeld :=
  ((sendWaiting_sends s).trans (.foldl trySend_sends ..)).trans (.foldl tryCast_sends ..)

/-- The map of planes once those that have been drained have taken what software wrote (R201). -/
def Fabric.settledMap (f : Fabric) : Word :=
  (List.range 8).foldl (fun m p =>
    if planeOf f.planeWant p != planeOf m p && !f.anySent (fun _ _ pa => bitsOf pa 9 7 == p) then setPlane m p (planeOf f.planeWant p) else m) f.planemap

/-- Planes that settle change the map, and then the held flits are sent. -/
theorem settlePlanes_sends (s : State) :
    ({ s with fabric := { s.fabric with planemap := s.fabric.settledMap } } : State).Sends s.settlePlanes := sendHeld_sends _

/-- What settling leaves. -/
theorem settlePlanes_rest (s : State) : s.settlePlanes = { s with
    fabric := { s.fabric with planemap := s.fabric.settledMap, keys := s.settlePlanes.fabric.keys, out := s.settlePlanes.fabric.out,
                              casts := s.settlePlanes.fabric.casts, seqs := s.settlePlanes.fabric.seqs },
    sent := s.settlePlanes.sent, waiting := s.settlePlanes.waiting, agenda := s.settlePlanes.agenda } := (settlePlanes_sends s).rest

end Sys2Proof.Machine
end

section
/-! The planes of PLANEMAP (R198, R200, R201). -/

namespace Sys2Proof.Machine

/-- A bit of a logical plane's entry. -/
theorem testBit_planeOf (m : Word) (p i : Nat) : (planeOf m p).testBit i = (decide (i < 3) && m.getLsbD (4 * p + i)) := by
  rw [planeOf, wbits, bitsOf, show 4 * p + 2 + 1 - 4 * p = 3 by omega, Nat.testBit_mod_two_pow, Nat.testBit_div_two_pow, BitVec.testBit_toNat,
    Nat.add_comm]

theorem planeOf_lt (m : Word) (p : Nat) : planeOf m p < 8 := by
  rw [planeOf, wbits, bitsOf, show 4 * p + 2 + 1 - 4 * p = 3 by omega]
  exact Nat.mod_lt _ (by decide)

/-- Bit i of the entry at logical plane p of a number placed at another's entry. -/
theorem getLsbD_entry {n p q i : Nat} (hn : n < 8) (hp : p < 8) (hi : i < 3) :
    (BitVec.ofNat 32 (n * 2 ^ (4 * q))).getLsbD (4 * p + i) = (decide (p = q) && n.testBit i) := by
  rw [BitVec.getLsbD_ofNat, Nat.testBit_mul_two_pow, decide_eq_true (show 4 * p + i < 32 by omega), Bool.true_and]
  by_cases e : p = q
  · subst e
    simp
  · rw [decide_eq_false e, Bool.false_and]
    by_cases below : 4 * q ≤ 4 * p + i
    · rw [Nat.testBit_lt_two_pow (Nat.lt_of_lt_of_le hn (Nat.pow_le_pow_right (n := 2) (i := 3) (by decide) (by omega))), Bool.and_false]
    · rw [decide_eq_false below, Bool.false_and]

/-- An entry replaced, and no other. -/
theorem planeOf_setPlane (m : Word) {p q n : Nat} (hn : n < 8) (hp : p < 8) :
    planeOf (setPlane m q n) p = if p = q then n else planeOf m p := by
  apply Nat.eq_of_testBit_eq
  intro i
  rw [testBit_planeOf]
  by_cases hi : i < 3
  · have all : Nat.testBit 7 i = true := Nat.testBit_two_pow_sub_one 3 i ▸ decide_eq_true hi
    rw [setPlane, BitVec.getLsbD_or, BitVec.getLsbD_and, BitVec.getLsbD_not, getLsbD_entry (by decide) hp hi, getLsbD_entry hn hp hi, all]
    by_cases e : p = q
    · simp [e, hi]
    · simp [e, hi, testBit_planeOf, show 4 * p + i < 32 by omega]
  · rw [decide_eq_false hi, Bool.false_and]
    have high : ∀ x, x < 8 → x.testBit i = false := fun x hx =>
      Nat.testBit_lt_two_pow (Nat.lt_of_lt_of_le hx (Nat.pow_le_pow_right (n := 2) (i := 3) (by decide) (by omega)))
    split
    · exact (high _ hn).symm
    · exact (high _ (planeOf_lt m p)).symm

/-- The bits that are not of an entry are not stored (R198). -/
theorem planeOf_stored (v : Word) {p : Nat} (hp : p < 8) : planeOf (v &&& 0x77777777) p = planeOf v p := by
  have stored : ∀ p < 8, ∀ i < 3, BitVec.getLsbD (0x77777777 : Word) (4 * p + i) = true := by decide
  apply Nat.eq_of_testBit_eq
  intro i
  rw [testBit_planeOf, testBit_planeOf, BitVec.getLsbD_and]
  by_cases hi : i < 3
  · rw [stored p hp i hi, Bool.and_true]
  · rw [decide_eq_false hi, Bool.false_and, Bool.false_and]

/-- The entries replaced one after another, each by itself. -/
theorem planeOf_foldl {step : Word → Nat → Word} {g : Nat → Nat → Nat}
    (one : ∀ (m : Word) (p q : Nat), p < 8 → planeOf (step m q) p = if p = q then g q (planeOf m q) else planeOf m p) (m : Word) {p : Nat} (hp : p < 8) :
    planeOf ((List.range 8).foldl step m) p = g p (planeOf m p) := by
  have upto : ∀ n, planeOf ((List.range n).foldl step m) p = if p < n then g p (planeOf m p) else planeOf m p := by
    intro n
    induction n with
    | zero => rfl
    | succ n ih =>
      rw [List.range_succ, List.foldl_append, List.foldl_cons, List.foldl_nil, one _ _ _ hp]
      by_cases e : p = n
      · subst e
        rw [if_pos rfl, ih, if_neg (Nat.lt_irrefl p), if_pos (Nat.lt_succ_self p)]
      · rw [if_neg e, ih]
        by_cases before : p < n
        · rw [if_pos before, if_pos (by omega)]
        · rw [if_neg before, if_neg (by omega)]
  exact (upto 8).trans (if_pos hp)

/-- Once the planes have settled, an entry whose plane has been drained is the one that software wrote (R201). -/
theorem planeOf_settledMap (f : Fabric) {p : Nat} (hp : p < 8) : planeOf f.settledMap p =
    if f.anySent (fun _ _ pa => bitsOf pa 9 7 == p) then planeOf f.planemap p else planeOf f.planeWant p := by
  refine planeOf_foldl (g := fun p old => if f.anySent (fun _ _ pa => bitsOf pa 9 7 == p) then old else planeOf f.planeWant p) (fun m p q hp => ?_) _ hp
  cases sent : f.anySent (fun _ _ pa => bitsOf pa 9 7 == q) with
  | true =>
    simp only [Bool.not_true, Bool.and_false, Bool.false_eq_true, if_false, if_true]
    split
    · next e => rw [e]
    · rfl
  | false =>
    simp only [Bool.not_false, Bool.and_true, Bool.false_eq_true, if_false, bne_iff_ne]
    split
    · exact planeOf_setPlane m (planeOf_lt ..) hp
    · next same =>
      split
      · next e => rw [e]; exact (Classical.not_not.mp same).symm
      · rfl

/-- The entries of a dead plane given to another one (R200). -/
def movedPlanes (plane q : Nat) (m : Word) : Word := (List.range 8).foldl (fun m p => if planeOf m p = plane then setPlane m p q else m) m

theorem planeOf_movedPlanes {plane q : Nat} (hq : q < 8) (m : Word) {p : Nat} (hp : p < 8) :
    planeOf (movedPlanes plane q m) p = if planeOf m p = plane then q else planeOf m p := by
  refine planeOf_foldl (g := fun _ old => if old = plane then q else old) (fun m p r hp => ?_) m hp
  by_cases at_ : planeOf m r = plane
  · simp only [if_pos at_]
    exact planeOf_setPlane m hq hp
  · simp only [if_neg at_]
    split
    · next e => rw [e]
    · rfl

/-- A plane that follows a dead one is one of the eight. -/
theorem nextPlane_lt {f : Fabric} {plane q : Nat} (h : f.nextPlane plane = some q) : q < 8 := by
  obtain ⟨i, -, rfl⟩ := List.mem_map.mp (List.mem_of_find?_eq_some h)
  exact Nat.mod_lt _ (by decide)

end Sys2Proof.Machine
end

section
/-! The keys of a port's direction (R195 to R197). -/

namespace Sys2Proof.Machine

/-- One direction's keys replaced. -/
def State.putKeys (s : State) (port : Nat) (tx : Bool) (k : KeyDir) : State :=
  { s with fabric := { s.fabric with keys := s.fabric.keys.set (2 * port + (if tx then 1 else 0)) k } }

/-- When the rekey of a direction cannot be completed (R197): no bank has taken over, or no group has authenticated under the new one. -/
theorem incompletable_iff : ∀ rekey switched tx proven : Bool, (!(rekey && switched) || (!tx && !proven)) = true ↔
    ¬ (rekey = true ∧ switched = true ∧ (tx = true ∨ proven = true)) := by decide

section
variable {s : State} {port : Nat} {tx : Bool} {k : KeyDir} (listed : s.fabric.keys[2 * port + (if tx then 1 else 0)]? = some k)
include listed

/-- A direction that is listed changes to what its keys become. -/
theorem modKeys_listed (f : KeyDir → KeyDir) : s.modKeys port tx f = s.putKeys port tx (f k) := by
  have keys : s.fabric.keys.modify (2 * port + (if tx then 1 else 0)) f = s.fabric.keys.set (2 * port + (if tx then 1 else 0)) (f k) := by
    apply List.ext_getElem?
    intro i
    by_cases at_ : 2 * port + (if tx then 1 else 0) = i
    · subst at_
      obtain ⟨within, -⟩ := List.getElem?_eq_some_iff.mp listed
      rw [List.getElem?_modify_eq, listed, List.getElem?_set_self within]
      rfl
    · rw [List.getElem?_modify_ne _ _ at_, List.getElem?_set_ne at_]
  rw [State.modKeys, State.putKeys, keys]

/-- What a direction's keys become is listed. -/
theorem listed_modKeys (f : KeyDir → KeyDir) : (s.modKeys port tx f).fabric.keys[2 * port + (if tx then 1 else 0)]? = some (f k) := by
  show (s.fabric.keys.modify _ f)[_]? = _
  rw [List.getElem?_modify_eq, listed]
  rfl

theorem listed_countGroup : (s.countGroup port tx).fabric.keys[2 * port + (if tx then 1 else 0)]? = some k.endGroup := by
  rw [keys_countGroup, List.getElem?_modify_eq, listed]
  rfl

/-- A group counted has a rekey due at every 2^32 groups (R197). -/
theorem agenda_countGroup : (s.countGroup port tx).agenda = if k.endGroup.due then s.agenda ++ [.step (.rekeyGroupCount port tx)] else s.agenda := by
  unfold State.countGroup
  dsimp only
  rw [dir_of_listed (listed_modKeys listed _)]
  split <;> rfl

/-- LOAD_CONFIRM (R197). -/
theorem exec_loadConfirm (h : s.input = some (.loadConfirm port tx)) : exec .loadConfirm s = .next (s.putKeys port tx k.confirm).settlePlanes := by
  show execLoadConfirm s = _
  simp only [execLoadConfirm, h, modKeys_listed listed]

/-- RECEIVER_ACK (R197): the rekey is complete where it can be. -/
theorem exec_receiverAck (h : s.input = some (.receiverAck port tx)) : exec .receiverAck s =
    .next (if k.rekey = true ∧ k.switched = true ∧ (tx = true ∨ k.proven = true) then
      let v := (s.putKeys port tx k.complete).postFabric 4 port
      if tx then v else v.sendFlit port (.keyAck port) else s) := by
  have may : (!k.completable || (!tx && !k.proven)) = true ↔ ¬ (k.rekey = true ∧ k.switched = true ∧ (tx = true ∨ k.proven = true)) := incompletable_iff ..
  show execReceiverAck s = _
  simp only [execReceiverAck, h, dir_of_listed listed, modKeys_listed listed]
  by_cases m : k.rekey = true ∧ k.switched = true ∧ (tx = true ∨ k.proven = true)
  · rw [if_pos m, if_neg (fun n => may.mp n m)]
  · rw [if_neg m, if_pos (may.mpr m)]

/-- REKEY_GROUP_COUNT (R197). -/
theorem exec_rekeyGroupCount (h : s.input = some (.rekeyGroupCount port tx)) : exec .rekeyGroupCount s =
    .next (if k.due = true then s.putKeys port tx { k with due := false, rekey := true } else s) := by
  show execRekeyGroupCount s = _
  simp only [execRekeyGroupCount, h, dir_of_listed listed, modKeys_listed listed]
  split <;> rfl

/-- KEY_UPDATE over a port's session (R196, R197). -/
theorem exec_keyUpdate (h : s.input = some (.keyUpdate port tx)) (ours : port < 16) : exec .keyUpdate s =
    .next (if s.sessionOpen port = true ∧ (s.spdm port).stage = 5 ∧ k.bank0 ≠ .loaded ∧ k.bank1 ≠ .loaded ∧ (k.bank0 = .idle ∨ k.bank1 = .idle) then
      (s.putKeys port tx (k.load (s.derivedKey tx))).spdmAnswer port (fun _ => true) id [] else s) := by
  have may : (s.sessionOpen port && (s.spdm port).stage == 5 && k.loadable) = true ↔
      s.sessionOpen port = true ∧ (s.spdm port).stage = 5 ∧ k.bank0 ≠ .loaded ∧ k.bank1 ≠ .loaded ∧ (k.bank0 = .idle ∨ k.bank1 = .idle) := by
    simp only [KeyDir.loadable, Bool.and_eq_true, Bool.or_eq_true, bne_iff_ne, beq_iff_eq, and_assoc]
  show execKeyUpdate s = _
  simp only [execKeyUpdate, h, portSession, ours, dir_of_listed listed, modKeys_listed listed, may, decide_true, Bool.not_true, Bool.false_eq_true, if_false]
  split <;> rfl

end

/-- KEY_UPDATE over the mailbox (R449). -/
theorem exec_keyUpdate_mailbox {s : State} {n : Nat} {tx : Bool} (h : s.input = some (.keyUpdate n tx)) (mailbox : 16 ≤ n) :
    exec .keyUpdate s = .next (s.spdmAnswer n (fun k => k == 5) id []) := by
  show execKeyUpdate s = _
  simp only [execKeyUpdate, h, portSession, Nat.not_lt.mpr mailbox, decide_false, Bool.not_false, if_true]

/-- FABREKEY (R197). -/
theorem exec_fabrekey {s : State} {port : Nat} (h : s.input = some (.fabrekey port)) : exec .fabrekey s = .next (s.writeFabrekey port) := by
  show execFabrekey s = _
  simp only [execFabrekey, h]

/-- A rekey that software starts changes the keys, and is then in progress. -/
theorem writeFabrekey_starts {s : State} {port : Nat} (idle : s.fabric.rekeying port = false) :
    s.writeFabrekey port = { s with fabric := { s.fabric with keys := (s.writeFabrekey port).fabric.keys } } ∧
    (s.fabric.keys[2 * port]?.isSome = true → (s.writeFabrekey port).fabric.rekeying port = true) := by
  have both : s.writeFabrekey port = (s.startRekey port true).startRekey port false := by simp [State.writeFabrekey, idle]
  rw [both]
  refine ⟨rfl, fun some_ => ?_⟩
  obtain ⟨k, hk⟩ := Option.isSome_iff_exists.mp some_
  have first : (s.startRekey port true).fabric.keys[2 * port + (if false then 1 else 0)]? = some k :=
    (List.getElem?_modify_ne _ _ (show 2 * port + 1 ≠ 2 * port by omega)).trans hk
  simp only [Fabric.rekeying, State.startRekey] at first ⊢
  rw [dir_of_listed (listed_modKeys first _)]
  rfl

end Sys2Proof.Machine
end

section
/-! Ports that are lost and trained (R199, R202, R405, R443). -/

namespace Sys2Proof.Machine

/-- A message put into a queue from outside the groups changes the object table. -/
theorem enqueue_rest (s : State) (idx : Nat) (p : Port) (m : Msg) : s.enqueue idx p m none = { s with objs := (s.enqueue idx p m none).objs } := by
  unfold State.enqueue
  rw [signalled_rest]
  rfl

/-- An event record changes the counts of the event stream and the object table (R178, R202). -/
theorem postRecord_rest (s : State) (tag record : Nat) : s.postRecord tag record = { s with
    linkCtl := (s.postRecord tag record).linkCtl, freeCtr := (s.postRecord tag record).freeCtr, objs := (s.postRecord tag record).objs } := by
  unfold State.postRecord
  dsimp only
  split
  · split
    · rfl
    · rw [enqueue_rest]
  · rfl

theorem postFabric_rest (s : State) (kind unit : Nat) : s.postFabric kind unit = { s with
    linkCtl := (s.postFabric kind unit).linkCtl, freeCtr := (s.postFabric kind unit).freeCtr, objs := (s.postFabric kind unit).objs } :=
  postRecord_rest ..

@[simp] theorem postFabric_fabric (s : State) (kind unit : Nat) : (s.postFabric kind unit).fabric = s.fabric := by rw [postFabric_rest]
@[simp] theorem postFabric_names (s : State) (kind unit : Nat) : (s.postFabric kind unit).names = s.names := by rw [postFabric_rest]
@[simp] theorem postFabric_bringup (s : State) (kind unit : Nat) : (s.postFabric kind unit).bringup = s.bringup := by rw [postFabric_rest]

/-- The fabric once a port has gone DOWN (R197, R199, R443). -/
def Fabric.without (f : Fabric) (port : Nat) (refused : Bool) : Fabric :=
  { f with ports := f.ports.set port 0, barred := if f.announcing.contains port && refused then port :: f.barred else f.barred,
           announcing := f.announcing.filter (fun q => q != port) }.zeroise port

theorem portDown_down {s : State} {port : Nat} (down : s.fabric.ports.getD port 0 = 0) (kind : Nat) (refused : Bool) : s.portDown port kind refused = s := if_pos down

/-- The state once a port has gone DOWN and its session is over (R197, R199). -/
def State.withoutPort (s : State) (port : Nat) (refused : Bool) : State :=
  { s with fabric := s.fabric.without port refused, host := { s.host with spdm := sdel s.host.spdm port } }

/-- A port that goes DOWN leaves a fabric without it, whose planes settle. -/
theorem portDown_settles {s : State} {port : Nat} (lives : s.fabric.ports.getD port 0 ≠ 0) (kind : Nat) (refused : Bool) :
    ∃ v : State, v.fabric = s.fabric.without port refused ∧ v.names = s.names ∧ s.portDown port kind refused = v.settlePlanes := by
  have e : s.portDown port kind refused =
      let v := (s.withoutPort port refused).postFabric kind port
      if v.fabric.planeLive (port / 2) then v.settlePlanes else (v.postFabric 2 (port / 2)).settlePlanes := if_neg lives
  rw [e]
  dsimp only
  split
  · exact ⟨_, by rw [postFabric_fabric]; rfl, by rw [postFabric_names]; rfl, rfl⟩
  · exact ⟨_, by rw [postFabric_fabric, postFabric_fabric]; rfl, by rw [postFabric_names, postFabric_names]; rfl, rfl⟩

/-- A port's keys, zeroised (R197). -/
theorem keys_without {f : Fabric} {port : Nat} {refused tx : Bool} {k : KeyDir} (listed : f.keys[2 * port + (if tx then 1 else 0)]? = some k) :
    (f.without port refused).keys[2 * port + (if tx then 1 else 0)]? = some KeyDir.reset := by
  obtain ⟨within, -⟩ := List.getElem?_eq_some_iff.mp listed
  show ((f.keys.set (2 * port) KeyDir.reset).set (2 * port + 1) KeyDir.reset)[_]? = _
  cases tx with
  | true => exact List.getElem?_set_self (by rw [List.length_set]; exact within)
  | false => exact (List.getElem?_set_ne (show 2 * port + 1 ≠ 2 * port by omega)).trans (List.getElem?_set_self within)

theorem getD_set_zero (ports : List Nat) (port : Nat) : (ports.set port 0).getD port 0 = 0 := by
  rw [List.getD_eq_getElem?_getD, List.getElem?_set_self']
  cases ports[port]? <;> rfl

/-- What settling leaves of the fabric. -/
theorem settlePlanes_fabric (s : State) : s.settlePlanes.fabric = { s.fabric with
    planemap := s.fabric.settledMap, keys := s.settlePlanes.fabric.keys, out := s.settlePlanes.fabric.out, casts := s.settlePlanes.fabric.casts,
    seqs := s.settlePlanes.fabric.seqs } := by
  rw [settlePlanes_rest]

/-- What a port that goes DOWN leaves, beside its keys. -/
theorem portDown_fabric {s : State} {port : Nat} (lives : s.fabric.ports.getD port 0 ≠ 0) (kind : Nat) (refused : Bool) :
    let f := (s.portDown port kind refused).fabric
    f.ports = s.fabric.ports.set port 0 ∧ f.barred = (s.fabric.without port refused).barred ∧
      f.announcing = s.fabric.announcing.filter (fun q => q != port) ∧ f.released = s.fabric.released := by
  obtain ⟨v, fabric, -, e⟩ := portDown_settles lives kind refused
  rw [e, settlePlanes_fabric, fabric]
  exact ⟨rfl, rfl, rfl, rfl⟩

/-- A port that is DOWN sends nothing, so that its keys stay zeroised. -/
theorem keys_portDown {s : State} {port : Nat} {tx : Bool} {k : KeyDir} (lives : s.fabric.ports.getD port 0 ≠ 0)
    (listed : s.fabric.keys[2 * port + (if tx then 1 else 0)]? = some k) (kind : Nat) (refused : Bool) :
    (s.portDown port kind refused).fabric.keys[2 * port + (if tx then 1 else 0)]? = some KeyDir.reset := by
  obtain ⟨v, fabric, -, e⟩ := portDown_settles lives kind refused
  have sends := settlePlanes_sends v
  have keys := keys_without (refused := refused) listed
  have down : v.fabric.ports.getD port 0 ≠ 2 := by
    rw [fabric, show (s.fabric.without port refused).ports = s.fabric.ports.set port 0 from rfl, getD_set_zero]
    decide
  rw [e]
  rw [← fabric] at keys
  cases tx with
  | true => exact (sends.closed port down).trans keys
  | false => exact (sends.received port).trans keys

theorem portDown_names (s : State) (port kind : Nat) (refused : Bool) : (s.portDown port kind refused).names = s.names := by
  by_cases lives : s.fabric.ports.getD port 0 = 0
  · rw [portDown_down lives]
  · obtain ⟨v, -, names, e⟩ := portDown_settles lives kind refused
    rw [e, settlePlanes_rest]
    exact names

/-- Whether it was DOWN already or not, the port is DOWN now. -/
theorem portDown_ports {s : State} {port : Nat} (kind : Nat) (refused : Bool) :
    (s.portDown port kind refused).fabric.ports = s.fabric.ports.set port 0 := by
  by_cases lives : s.fabric.ports.getD port 0 = 0
  · rw [portDown_down lives]
    apply List.ext_getElem?
    intro i
    rw [List.getElem?_set']
    split
    · next e =>
      subst e
      rw [List.getD_eq_getElem?_getD] at lives
      cases at_ : s.fabric.ports[port]? with
      | none => rfl
      | some x => rw [at_] at lives; exact congrArg some lives
    · rfl
  · exact (portDown_fabric lives kind refused).1

/-- Steps that change the object table alone. -/
theorem foldl_objs {α : Type} {f : State → α → State} (one : ∀ (t : State) (x : α), ∃ o, f t x = { t with objs := o }) (xs : List α) (s : State) :
    ∃ o, xs.foldl f s = { s with objs := o } := by
  induction xs generalizing s with
  | nil => exact ⟨s.objs, rfl⟩
  | cons x xs ih =>
    obtain ⟨o, e⟩ := one s x
    obtain ⟨o', e'⟩ := ih { s with objs := o }
    exact ⟨o', by rw [List.foldl_cons, e, e']⟩

/-- A package that is lost leaves the ports, and its names are unbound (R405). -/
theorem packageGone_eq (s : State) (pkg : Nat) :
    (s.packageGone pkg).fabric.ports = s.fabric.ports ∧ (s.packageGone pkg).names = s.names.filter (fun n => n.pkg != pkg) := by
  have unbound : ∀ v : State, (∃ o, v = { s with objs := o }) →
      v.fabric.ports = s.fabric.ports ∧ v.names.filter (fun n => n.pkg != pkg) = s.names.filter (fun n => n.pkg != pkg) := by
    rintro _ ⟨o, rfl⟩
    exact ⟨rfl, rfl⟩
  refine unbound _ (foldl_objs (fun t x => ?_) ..)
  split
  · exact ⟨_, rfl⟩
  · exact ⟨t.objs, rfl⟩

/-- PORT_LOST (R199) of a port alone. -/
theorem exec_portLost {s : State} {port : Nat} {refused : Bool} (h : s.input = some (.portLost port refused none)) :
    exec .portLost s = .next (s.portDown port 0 refused) := by
  show execPortLost s = _
  simp only [execPortLost, h]

/-- PORT_LOST (R199, R405) of a port whose package is lost with it. -/
theorem exec_portLost_gone {s : State} {port pkg : Nat} {refused : Bool} (h : s.input = some (.portLost port refused (some pkg))) :
    exec .portLost s = .next ((s.portDown port 0 refused).packageGone pkg) := by
  show execPortLost s = _
  simp only [execPortLost, h]

/-- PORT_TRAINED (R199, R443) of a port that is barred or UP already. -/
theorem exec_portTrained_none {s : State} {port : Nat} (h : s.input = some (.portTrained port))
    (none_ : port ∈ s.fabric.barred ∨ s.fabric.ports.getD port 0 = 2) : exec .portTrained s = .next s := by
  show execPortTrained s = _
  simp only [execPortTrained, h]
  exact if_pos (by simpa [or_assoc] using Or.inr none_)

/-- PORT_TRAINED (R199, R443): the port is UP, its events are posted, and it announces. -/
theorem exec_portTrained {s : State} {port : Nat} (h : s.input = some (.portTrained port)) (ours : port < 16) (free : port ∉ s.fabric.barred)
    (lower : s.fabric.ports.getD port 0 ≠ 2) : ∃ v : State, v.fabric = { s.fabric with ports := s.fabric.ports.set port 2 } ∧ v.bringup = s.bringup ∧
      exec .portTrained s = .next (v.announce port).settlePlanes := by
  show ∃ v : State, _ ∧ _ ∧ execPortTrained s = _
  have trains : (decide (16 ≤ port) || s.fabric.barred.contains port || decide (s.fabric.ports.getD port 0 = 2)) = false := by
    simp only [Bool.or_eq_false_iff, decide_eq_false_iff_not, Nat.not_le, List.contains_eq_mem]
    exact ⟨⟨ours, free⟩, lower⟩
  simp only [execPortTrained, h, trains, Bool.false_eq_true, if_false]
  split
  · exact ⟨_, by rw [postFabric_fabric, postFabric_fabric], by rw [postFabric_bringup, postFabric_bringup], rfl⟩
  · exact ⟨_, by rw [postFabric_fabric], by rw [postFabric_bringup], rfl⟩

/-- PLANE_REMAP (R200). -/
theorem exec_planeRemap {s : State} {plane q : Nat} (h : s.input = some (.planeRemap plane)) (next : s.fabric.nextPlane plane = some q) :
    exec .planeRemap s = .next (if s.fabric.planeLive plane = true ∨ s.fabric.anySent (fun _ p _ => p == plane) = true then s else
      ({ s with fabric := { s.fabric with planemap := movedPlanes plane q s.fabric.planemap, planeWant := movedPlanes plane q s.fabric.planeWant } } :
        State).settlePlanes) := by
  show execPlaneRemap s = _
  simp only [execPlaneRemap, h, next, Bool.or_eq_true]
  split <;> rfl

/-- PLANEMAP_WRITE (R201). -/
theorem exec_planemapWrite {s : State} {v : Word} (h : s.input = some (.planemapWrite v)) : exec .planemapWrite s = .next (s.writePlanemap v) := by
  show execPlanemapWrite s = _
  simp only [execPlanemapWrite, h]

end Sys2Proof.Machine
end

section
/-! Groups of flits that are received (R195, R197). -/

namespace Sys2Proof.Machine

/-- A direction's keys once a group has authenticated, under the ACTIVE bank or not (R195, R197). -/
def KeyDir.taken (k : KeyDir) (active : Bool) : KeyDir := { k.endGroup with discards := 0, proven := k.proven || active }

/-- A group is received (R195): at most 16 flits, by a port that is not DOWN and whose feature is accepted. -/
def State.receives (s : State) (port : Nat) (flits : List Flit) : Prop :=
  port < 16 ∧ flits.length ≤ 16 ∧ s.fabric.ports.getD port 0 ≠ 0 ∧ s.bringup.accepted = true ∧ bitOf s.bringup.drvaccept 1 = true

/-- The bank that a group names. -/
def KeyDir.bank (k : KeyDir) (bank : Nat) : KeyState := if bank = 0 then k.bank0 else k.bank1

/-- FLIT_GROUP_RECEIVE (R195). -/
theorem exec_flitGroupReceive {s : State} {port : Nat} {bank : Nat} {ok : Bool} {flits : List Flit} {k : KeyDir}
    (h : s.input = some (.flitGroupReceive port bank ok flits)) (listed : s.fabric.keys[2 * port]? = some k) :
    (¬ s.receives port flits → exec .flitGroupReceive s = .next s) ∧
    (s.receives port flits → ok = true ∧ (k.bank bank = .active ∨ k.bank bank = .accept) →
      exec .flitGroupReceive s = .next (s.takeGroup port (k.bank bank == .active) flits)) ∧
    (s.receives port flits → ¬ (ok = true ∧ (k.bank bank = .active ∨ k.bank bank = .accept)) → exec .flitGroupReceive s = .next (s.dropGroup port)) := by
  have test : (decide (16 ≤ port) || decide (16 < flits.length) || decide (s.fabric.ports.getD port 0 = 0) || !s.accepted 1) = true ↔ ¬ s.receives port flits := by
    have ours : 16 ≤ port ↔ ¬ port < 16 := Nat.not_lt.symm
    have long : 16 < flits.length ↔ ¬ flits.length ≤ 16 := Nat.not_le.symm
    simp only [State.receives, State.accepted, Bool.or_eq_true, decide_eq_true_eq, Bool.not_eq_true', ← Bool.not_eq_true, Bool.and_eq_true, ours, long,
      Decidable.not_and_iff_not_or_not, ne_eq, Decidable.not_not, or_assoc]
  have fine : (ok && (k.bank bank == .active || k.bank bank == .accept)) = true ↔ ok = true ∧ (k.bank bank = .active ∨ k.bank bank = .accept) := by
    simp only [Bool.and_eq_true, Bool.or_eq_true, beq_iff_eq]
  have run : exec .flitGroupReceive s =
      if (decide (16 ≤ port) || decide (16 < flits.length) || decide (s.fabric.ports.getD port 0 = 0) || !s.accepted 1) = true then .next s
      else if (ok && (k.bank bank == .active || k.bank bank == .accept)) = true then .next (s.takeGroup port (k.bank bank == .active) flits)
      else .next (s.dropGroup port) := by
    show execFlitGroupReceive s = _
    simp only [execFlitGroupReceive, h, dir_of_listed (tx := false) listed]
    rfl
  rw [run]
  refine ⟨fun no => if_pos (test.mpr no), fun yes good => ?_, fun yes bad => ?_⟩
  · rw [if_neg (fun no => test.mp no yes), if_pos (fine.mpr good)]
  · rw [if_neg (fun no => test.mp no yes), if_neg (fun good => bad (fine.mp good))]

/-- One more group discarded in a row (R195). -/
def State.countDiscard (s : State) (port : Nat) (k : KeyDir) : State :=
  { s with fabric := { s.fabric with
      authErr := (s.fabric.authErr + 1) % 2 ^ 32, keys := s.fabric.keys.set (2 * port) { k with discards := k.discards + 1 } } }

section
variable {s : State} {port : Nat} {k : KeyDir} (listed : s.fabric.keys[2 * port]? = some k)
include listed

/-- A group that authenticates: its flits are released, the port is no longer announcing, and its keys count the group. -/
theorem takeGroup_fabric (active : Bool) (flits : List Flit) : let f := (s.takeGroup port active flits).fabric
    f.released = s.fabric.released ++ flits ∧ port ∉ f.announcing ∧ f.keys[2 * port]? = some (k.taken active) := by
  have counted := listed_modKeys (f := fun k => { k with discards := 0, proven := k.proven || active }) (listed_countGroup (tx := false) listed)
  have fabric : (s.takeGroup port active flits).fabric =
      let f := ((s.countGroup port false).modKeys port false (fun k => { k with discards := 0, proven := k.proven || active })).fabric
      { f with released := f.released ++ flits, announcing := f.announcing.filter (fun q => q != port) } := by
    unfold State.takeGroup
    dsimp only
    split <;> rfl
  have released : (s.countGroup port false).fabric.released = s.fabric.released := by rw [countGroup_announces s port false]
  rw [fabric]
  exact ⟨congrArg (· ++ flits) released, by simp, counted⟩

/-- What is to be done next after a group that authenticates: a rekey at 2^32 groups, the acknowledgement of a new bank's first group. -/
theorem takeGroup_agenda (active : Bool) (flits : List Flit) : let a := (s.takeGroup port active flits).agenda
    (k.endGroup.due = true → .step (.rekeyGroupCount port false) ∈ a) ∧
    (active = true → k.rekey = true → k.switched = true → k.proven = false → .step (.receiverAck port false) ∈ a) := by
  have agenda : (s.takeGroup port active flits).agenda =
      let a := if k.endGroup.due then s.agenda ++ [.step (.rekeyGroupCount port false)] else s.agenda
      if active && k.completable && !k.proven then .step (.receiverAck port false) :: a else a := by
    rw [← agenda_countGroup (tx := false) listed]
    unfold State.takeGroup
    dsimp only
    rw [dir_of_listed (tx := false) listed]
    split <;> rfl
  rw [agenda]
  refine ⟨fun due => ?_, fun h1 h2 h3 h4 => ?_⟩
  · simp only [due, if_true]
    split <;> simp
  · simp [KeyDir.completable, h1, h2, h3, h4]

/-- A group that does not authenticate is counted, and the eighth in a row takes the port down (R195). -/
theorem dropGroup_eq : s.dropGroup port =
    if 8 ≤ k.discards + 1 then (s.countDiscard port k).portDown port 5 false else s.countDiscard port k := by
  have dropped := modKeys_listed (s := { s with fabric := { s.fabric with authErr := (s.fabric.authErr + 1) % 2 ^ 32 } }) (port := port) (tx := false)
    listed (fun k => { k with discards := k.discards + 1 })
  unfold State.dropGroup
  dsimp only at dropped ⊢
  rw [dir_of_listed (tx := false) listed, dropped]
  rfl

end

end Sys2Proof.Machine
end

section
/-! The keys, the ports and the planes of the fabric: O47. -/

namespace Sys2Proof.Machine

/-- What a flit's group comes to when a flit leaves under a key (R195, R197). -/
theorem carry_cases (k : KeyDir) : (k.filled < 15 → k.carry = { k with filled := k.filled + 1 }) ∧ (15 ≤ k.filled → k.carry = k.endGroup) :=
  ⟨fun room => if_neg (by omega), fun full => if_pos full⟩

/-- A rekey is due at every 2^32 groups (R197). -/
theorem endGroup_due {k : KeyDir} (h : (k.groups + 1) % 2 ^ 32 = 0) : k.endGroup.due = true := by
  have e : (k.groups + 1) % 2 ^ 64 % 2 ^ 32 = 0 := by rw [Nat.mod_mod_of_dvd _ (by decide), h]
  show (k.due || (k.groups + 1) % 2 ^ 64 % 2 ^ 32 == 0) = true
  rw [e]
  exact Bool.or_true _

end Sys2Proof.Machine

namespace Sys2Proof.Laws
open Sys2Proof.Machine

/-- Settles O47: each event of a direction by what its keys become, a group received by whether it authenticates; ports by what a port that is
lost or trained leaves for its planes to settle, planes by their entries; a flit by the port that it takes. -/
theorem fabricKeysAndPorts : Obligations.FabricKeysAndPorts := by
  refine ⟨fun s port tx k listed => ⟨?update, ?confirm, ?ack, ?count, ?fabrekey, ?group⟩,
    fun s port ours ports keys => ⟨?lost, ?gone, ?trained, ?remap, ?write⟩, fun s o port => ⟨sendFlit_waits, fun q exit => ?leaves⟩⟩
  case update =>
    intro h
    refine ⟨fun ours may idle => ?_, fun ours may busy => ?_, fun ours no => ?_, exec_keyUpdate_mailbox h⟩
    · rw [exec_keyUpdate listed h ours, if_pos may, KeyDir.load, if_pos idle]
      rfl
    · rw [exec_keyUpdate listed h ours, if_pos may, KeyDir.load, if_neg busy]
      rfl
    · rw [exec_keyUpdate listed h ours]
      exact congrArg _ (if_neg no)
  case confirm =>
    intro h
    refine ⟨fun low => ?_, fun other high => ?_⟩
    · rw [exec_loadConfirm listed h, KeyDir.confirm, if_pos low]
      rfl
    · rw [exec_loadConfirm listed h, KeyDir.confirm, if_neg other, if_pos high]
      rfl
  case ack =>
    intro h
    rw [exec_receiverAck listed h]
    exact ⟨fun may => congrArg _ (if_pos may), fun no => congrArg _ (if_neg no)⟩
  case count =>
    intro h
    rw [exec_rekeyGroupCount listed h]
    exact ⟨fun due => congrArg _ (if_pos due), fun no => congrArg _ (if_neg (Bool.eq_false_iff.mp no))⟩
  case fabrekey =>
    intro h
    rw [exec_fabrekey h]
    refine ⟨fun busy => congrArg _ (if_pos busy), fun idle => ?_⟩
    obtain ⟨rest, starts⟩ := writeFabrekey_starts idle
    exact ⟨_, rfl, rest, fun some_ _ => starts some_⟩
  case group =>
    rintro bank ok flits h rfl
    obtain ⟨closed, good, bad⟩ := exec_flitGroupReceive h listed
    refine ⟨closed, fun open_ fine => ?_, fun open_ unfit few => ?_, fun open_ unfit many => ?_⟩
    · obtain ⟨released, announced, taken⟩ := takeGroup_fabric listed (k.bank bank == .active) flits
      obtain ⟨rekey, ack⟩ := takeGroup_agenda listed (k.bank bank == .active) flits
      exact ⟨_, good open_ fine, released, announced, taken, fun turn => rekey (endGroup_due turn), fun active => ack (beq_iff_eq.mpr active)⟩
    · rw [bad open_ unfit, dropGroup_eq listed]
      exact congrArg _ (if_neg (by omega))
    · refine ⟨_, (bad open_ unfit).trans (congrArg _ ((dropGroup_eq listed).trans (if_pos many))), ?_⟩
      obtain ⟨-, -, lives, -⟩ := open_
      have dropped : (s.countDiscard port k).fabric.keys[2 * port]? = some { k with discards := k.discards + 1 } :=
        List.getElem?_set_self (List.getElem?_eq_some_iff.mp listed).1
      obtain ⟨ports, -, -, released⟩ := portDown_fabric (s := s.countDiscard port k) lives 5 false
      refine ⟨?_, keys_portDown (s := s.countDiscard port k) (tx := false) lives dropped 5 false, released⟩
      rw [ports]
      exact getD_set_zero ..
  case lost =>
    intro refused h
    rw [exec_portLost h]
    refine ⟨fun down => congrArg _ (portDown_down down ..), fun lives => ⟨_, rfl, ?_⟩⟩
    have key {i : Nat} (hi : i < 32) : ∃ k, s.fabric.keys[i]? = some k := ⟨_, List.getElem?_eq_getElem (by omega)⟩
    obtain ⟨_, received⟩ := key (show 2 * port < 32 by omega)
    obtain ⟨_, sending⟩ := key (show 2 * port + 1 < 32 by omega)
    obtain ⟨ports, barred, announcing, -⟩ := portDown_fabric lives 0 refused
    refine ⟨ports, keys_portDown (tx := false) lives received .., keys_portDown (tx := true) lives sending .., ?_, fun announced no => ?_, fun no => ?_⟩
    · rw [announcing]
      simp
    · rw [barred]
      simp [Fabric.without, Fabric.zeroise, announced, no]
    · rw [barred]
      simp [Fabric.without, Fabric.zeroise, no]
  case gone =>
    intro refused pkg h
    rw [exec_portLost_gone h]
    obtain ⟨ports, names⟩ := packageGone_eq (s.portDown port 0 refused) pkg
    rw [portDown_names] at names
    refine ⟨_, rfl, ports.trans (portDown_ports ..), fun n hn => ?_, fun n hn other => ?_⟩
    · rw [names] at hn
      exact bne_iff_ne.mp (List.mem_filter.mp hn).2
    · rw [names]
      exact List.mem_filter.mpr ⟨hn, bne_iff_ne.mpr other⟩
  case trained =>
    intro h
    refine ⟨exec_portTrained_none h, fun free lower => ?_⟩
    obtain ⟨v, fabric, bringup, run⟩ := exec_portTrained h ours free lower
    refine ⟨_, run, ?_, fun accepted => ?_⟩
    · rw [settlePlanes_fabric]
      exact (announces_ports (announce_announces v port)).trans (by rw [fabric])
    · have ilpaip : v.accepted 1 = true := by
        rw [State.accepted, bringup, accepted.1, accepted.2]
        rfl
      rw [settlePlanes_fabric]
      show port ∈ (v.announce port).fabric.announcing
      rw [announce_announcing ilpaip]
      exact List.mem_cons_self ..
  case remap =>
    intro plane q h next _
    rw [exec_planeRemap h next]
    refine ⟨fun no => congrArg _ (if_pos no), fun dead answered => ⟨_, congrArg _ (if_neg (by simp [dead, answered])), fun p hp => ?_⟩⟩
    rw [settlePlanes_fabric]
    exact planeOf_movedPlanes (nextPlane_lt next) _ hp
  case write =>
    intro v h
    refine ⟨_, exec_planemapWrite h, ?_⟩
    rw [State.writePlanemap, settlePlanes_fabric]
    refine ⟨rfl, fun p hp => (planeOf_settledMap _ hp).trans ?_⟩
    rw [← planeOf_stored v hp]
    rfl
  case leaves =>
    obtain ⟨up, key⟩ := open_of_exitPort exit
    rw [sendFlit_leaves exit]
    refine ⟨up, key, sent_leave .., waiting_leave .., fun k listed keyed => ?_, fun unkeyed => by rw [leave_unkeyed o unkeyed]⟩
    have carried : (s.leave q o).fabric.keys[2 * q + 1]? = some k.carry := by
      rw [keys_leave o keyed, List.getElem?_modify_eq, listed]
      rfl
    obtain ⟨room, full⟩ := carry_cases k
    exact ⟨fun less => carried.trans (congrArg some (room less)), fun more => carried.trans (congrArg some (full more))⟩

end Sys2Proof.Laws
end

section
/-! Requests of other packages, performed at their home (R188, R189, R190). -/

namespace Sys2Proof.Machine

/-- A flit that is taken is no longer released, and nothing else changes (R195). -/
theorem takeFlit_eq {s t : State} {f : Flit} (h : s.takeFlit f = some t) :
    t = { s with fabric := { s.fabric with released := s.fabric.released.erase f } } := by
  unfold State.takeFlit at h
  split at h
  · exact (Option.some.inj h).symm
  · cases h

/-- What is kept for a flit is what is found for it again (R189). -/
theorem performed_keep (s : State) (pkg port : Nat) (p : Performed) : (s.keep pkg port p).performed pkg port p.seq p.member = some p := by
  simp [State.performed, State.keep, sgetD]

@[simp] theorem mem_found (s : State) (la : Nat) : (s.found la).mem = s.mem := by
  unfold State.found State.addPoison
  repeat' split
  all_goals rfl

/-- An operation on sound memory at its home (R189). -/
def State.performSound (s : State) (r : FabricRequest) : State × Bool × List Byte :=
  let la := localOf r.pa
  let home := s.homeDie la
  match r.op with
  | .load => (s.receiveBy home (lineOf la), true, s.home la r.size)
  | .store => (s.storeAs home la r.data, true, [])
  | .nibble high => (s.storeAs home la (natLe 1 (nibbleOf (leNat (s.home la 1)) high (leNat r.data))), true, [])
  | .atomic op =>
    let old := wordAt (s.home la 4) 0
    (s.storeAs home la (natLe 4 (atomNew op r.expected old (wordAt r.data 0) r.expected).1.toNat), true, natLe 4 old.toNat)
  | .publish => (s.storeAs home la (publishBytes (s.home la 64)), true, s.home la 64)
  | .decrement => (s.storeAs home (la + 4) (natLe 4 (countLess (s.home la 8))), true, s.home la 8)
  | .increment => (s.storeAs home la (countMore (s.home la 8)), true, s.home la 4)

/-- A request is performed beyond HBM, as a full line, on poisoned memory, or by its operation. -/
theorem performHere_eq (s : State) (r : FabricRequest) : s.performHere r =
    if hbmEnd < localOf r.pa + r.size then (s, false, [])
    else if (r.op == .store && r.data.length = 128) = true then
      ((s.unpoison (lineOf (localOf r.pa))).storeAs (s.homeDie (localOf r.pa)) (localOf r.pa) r.data, true, [])
    else if s.poisoned (localOf r.pa) r.size = true then (s.found (localOf r.pa), false, [0x14])
    else s.performSound r := rfl

section
variable {s : State} {r : FabricRequest} (within : localOf r.pa + r.size ≤ hbmEnd)
include within

theorem performHere_fullLine (store : r.op = .store) (full : r.data.length = 128) : s.performHere r =
    ((s.unpoison (lineOf (localOf r.pa))).storeAs (s.homeDie (localOf r.pa)) (localOf r.pa) r.data, true, []) := by
  rw [performHere_eq, if_neg (Nat.not_lt.mpr within), if_pos (by simp [store, full])]

variable (part : ¬ (r.op = .store ∧ r.data.length = 128))
include part

theorem performHere_poisoned (poisoned : s.poisoned (localOf r.pa) r.size = true) : s.performHere r = (s.found (localOf r.pa), false, [0x14]) := by
  rw [performHere_eq, if_neg (Nat.not_lt.mpr within), if_neg (by simpa using part), if_pos poisoned]

theorem performHere_sound (sound : s.poisoned (localOf r.pa) r.size = false) : s.performHere r = s.performSound r := by
  rw [performHere_eq, if_neg (Nat.not_lt.mpr within), if_neg (by simpa using part), if_neg (Bool.eq_false_iff.mp sound)]

end

/-- COUNT is the second word of a record (R340). -/
theorem countLess_zread (m : List Host.Cell) (la : Nat) : countLess (zread m la 8) = (leNat (zread m (la + 4) 4) + 2 ^ 32 - 1) % 2 ^ 32 := by
  rw [countLess, ← zread_append m la 4 4, List.drop_left' (zread_length m la 4)]

theorem countMore_zread (m : List Host.Cell) (la : Nat) : countMore (zread m la 8) = natLe 8 (leNat (zread m la 8) + 1) := by
  rw [countMore, List.take_of_length_le (Nat.le_of_eq (zread_length m la 8))]

/-- A request of another package that is not answered from its window and has its flit (R189, R190). -/
structure State.Asks (s s1 : State) (r : FabricRequest) : Prop where
  input : s.input = some (.remoteRequest r)
  taken : s.takeFlit (.request r) = some s1
  fresh : s1.performed r.pkg r.port r.seq none = none

/-- What a request is answered: the memory it leaves, and its reply, which is kept (R189). -/
def State.Answers (s : State) (r : FabricRequest) (mem : List Host.Cell) (ok : Bool) (data : List Byte) : Prop :=
  ∃ t : State, t.mem = mem ∧ exec .remoteRequest s = .next (t.sendFlit r.port (.reply r.pkg r.port r.seq ok data)) ∧
    t.performed r.pkg r.port r.seq none = some (Performed.mk r.seq none ok data)

/-- REMOTE_REQUEST without its flit (R195). -/
theorem exec_remoteRequest_unreleased {s : State} {r : FabricRequest} (h : s.input = some (.remoteRequest r))
    (none_ : s.takeFlit (.request r) = none) : exec .remoteRequest s = .next s := by
  show execRemoteRequest s = _
  simp only [execRemoteRequest, h, none_]

/-- REMOTE_REQUEST of a request that has been performed: its reply again (R189). -/
theorem exec_remoteRequest_again {s s1 : State} {r : FabricRequest} {p : Performed} (h : s.input = some (.remoteRequest r))
    (taken : s.takeFlit (.request r) = some s1) (seen : s1.performed r.pkg r.port r.seq none = some p) :
    exec .remoteRequest s = .next (s1.sendFlit r.port (.reply r.pkg r.port r.seq p.ok p.data)) := by
  show execRemoteRequest s = _
  simp only [execRemoteRequest, h, taken, seen]

section
variable {s s1 : State} {r : FabricRequest} (asks : s.Asks s1 r)
include asks

/-- A request that is new is held or performed (R190). -/
theorem exec_remoteRequest_new :
    exec .remoteRequest s = .next (if s1.pathBusy (localOf r.pa) = true then s1.holdHere (.request r) else s1.serve r) := by
  show execRemoteRequest s = _
  simp only [execRemoteRequest, asks.input, asks.taken, asks.fresh]
  split <;> rfl

/-- A request is held here once, with a notice (R190). -/
theorem exec_remoteRequest_held (busy : s1.pathBusy (localOf r.pa) = true) (first : ∀ h ∈ s1.fabric.heldIn, h.what ≠ .request r) :
    exec .remoteRequest s =
      .next (({ s1 with fabric := { s1.fabric with heldIn := s1.fabric.heldIn ++ [HeldReq.mk (.request r) s1.time] } } : State).sendFlit r.port
        (.hold r.pkg r.port r.seq)) := by
  have new : s1.fabric.heldIn.any (fun h => h.what == .request r) = false := by
    rw [List.any_eq_false]
    exact fun h mem => by simpa using first h mem
  rw [exec_remoteRequest_new asks, if_pos busy, State.holdHere, new]
  rfl

variable (free : s1.pathBusy (localOf r.pa) = false)
include free

/-- A request that is performed is answered with what performing it gives. -/
theorem answers_of_performHere {t : State} {ok : Bool} {data : List Byte} (done : s1.performHere r = (t, ok, data)) : s.Answers r t.mem ok data := by
  refine ⟨t.keep r.pkg r.port (Performed.mk r.seq none ok data), rfl, ?_, performed_keep ..⟩
  rw [exec_remoteRequest_new asks, if_neg (Bool.eq_false_iff.mp free), State.serve, done]

/-- Beyond HBM (R103). -/
theorem answers_beyond (beyond : hbmEnd < localOf r.pa + r.size) : s.Answers r s1.mem false [] :=
  answers_of_performHere asks free (if_pos beyond)

variable (within : localOf r.pa + r.size ≤ hbmEnd)
include within

/-- A full line stored, whether it was poisoned or not (R182). -/
theorem answers_fullLine (store : r.op = .store) (full : r.data.length = 128) : s.Answers r (zwrite s1.mem (localOf r.pa) r.data) true [] :=
  answers_of_performHere asks free (performHere_fullLine within store full)

/-- A poisoned line (log entry 27). -/
theorem answers_poisoned (part : ¬ (r.op = .store ∧ r.data.length = 128)) (poisoned : s1.poisoned (localOf r.pa) r.size = true) :
    s.Answers r s1.mem false [0x14] := by
  rw [← mem_found s1 (localOf r.pa)]
  exact answers_of_performHere asks free (performHere_poisoned within part poisoned)

/-- An operation on sound memory, done at its home. -/
theorem answers_sound (part : ¬ (r.op = .store ∧ r.data.length = 128)) (sound : s1.poisoned (localOf r.pa) r.size = false) {t : State} {ok : Bool}
    {data : List Byte} (done : s1.performSound r = (t, ok, data)) : s.Answers r t.mem ok data :=
  answers_of_performHere asks free ((performHere_sound within part sound).trans done)

/-- An operation on sound memory that stores bytes. -/
theorem answers_storing (part : ¬ (r.op = .store ∧ r.data.length = 128)) (sound : s1.poisoned (localOf r.pa) r.size = false) {la : Nat}
    {bs data : List Byte} {ok : Bool} (done : s1.performSound r = (s1.storeAs (s1.homeDie (localOf r.pa)) la bs, ok, data)) :
    s.Answers r (zwrite s1.mem la bs) ok data := answers_sound asks free within part sound done

end

/-- The operations other than a store, on sound memory (R148, R161, R189, R238, R340). -/
theorem answers_byOp {s s1 : State} {r : FabricRequest} (asks : s.Asks s1 r) (free : s1.pathBusy (localOf r.pa) = false)
    (within : localOf r.pa + r.size ≤ hbmEnd) (sound : s1.poisoned (localOf r.pa) r.size = false) :
    let la := localOf r.pa
    let old := wordAt (zread s1.mem la 4) 0
    (r.op = .load → s.Answers r s1.mem true (zread s1.mem la r.size)) ∧
    (∀ op, r.op = .atomic op →
      s.Answers r (zwrite s1.mem la (natLe 4 (atomNew op r.expected old (wordAt r.data 0) r.expected).1.toNat)) true (natLe 4 old.toNat)) ∧
    (r.op = .decrement →
      s.Answers r (zwrite s1.mem (la + 4) (natLe 4 ((leNat (zread s1.mem (la + 4) 4) + 2 ^ 32 - 1) % 2 ^ 32))) true (zread s1.mem la 8)) ∧
    (r.op = .increment → s.Answers r (zwrite s1.mem la (natLe 8 (leNat (zread s1.mem la 8) + 1))) true (zread s1.mem la 4)) ∧
    (∀ high, r.op = .nibble high → s.Answers r (zwrite s1.mem la (natLe 1 (nibbleOf (leNat (zread s1.mem la 1)) high (leNat r.data)))) true []) := by
  have other {op : HomeOp} (e : r.op = op) (no : op ≠ .store) : ¬ (r.op = .store ∧ r.data.length = 128) := fun h => no (e.symm.trans h.1)
  refine ⟨fun e => ?load, fun op e => ?atomic, fun e => ?decrement, fun e => ?increment, fun high e => ?nibble⟩
  case load =>
    have read : s.Answers r (s1.receiveBy (s1.homeDie (localOf r.pa)) (lineOf (localOf r.pa))).mem true (zread s1.mem (localOf r.pa) r.size) :=
      answers_sound asks free within (other e (by decide)) sound (by simp only [State.performSound, e, State.home])
    rwa [mem_receiveBy] at read
  case atomic => exact answers_storing asks free within (other e (by simp)) sound (by simp only [State.performSound, e, State.home])
  case decrement =>
    rw [← countLess_zread]
    exact answers_storing asks free within (other e (by decide)) sound (by simp only [State.performSound, e, State.home])
  case increment =>
    rw [← countMore_zread]
    exact answers_storing asks free within (other e (by decide)) sound (by simp only [State.performSound, e, State.home])
  case nibble => exact answers_storing asks free within (other e (by simp)) sound (by simp only [State.performSound, e, State.home])

/-- A store of sound memory, or of a full line (R182). -/
theorem answers_store {s s1 : State} {r : FabricRequest} (asks : s.Asks s1 r) (free : s1.pathBusy (localOf r.pa) = false)
    (within : localOf r.pa + r.size ≤ hbmEnd) (fits : s1.poisoned (localOf r.pa) r.size = false ∨ r.data.length = 128) (store : r.op = .store) :
    s.Answers r (zwrite s1.mem (localOf r.pa) r.data) true [] := by
  by_cases full : r.data.length = 128
  · exact answers_fullLine asks free within store full
  · exact answers_storing asks free within (fun h => full h.2) (fits.resolve_right full) (by simp only [State.performSound, store])

end Sys2Proof.Machine
end

section
/-! Replies to requests, their time limit and hold notices (R139, R188, R190). -/

namespace Sys2Proof.Machine

/-- A request of one lane that has left (R186). -/
structure OutReq.Serves (r : OutReq) (u l : Nat) : Prop where
  left : r.held = false
  noEngine : r.client = none
  wave : r.wave = u
  lane : r.lanes = [(l, 0)]

/-- A line that a fetch brings leaves the waves and the requests. -/
theorem fetched_rest (s : State) (r : OutReq) (status : Nat) (data : List Byte) : ∃ cs, s.fetched r status data = { s with cores := cs } := by
  unfold State.fetched
  split
  · split
    · exact ⟨_, rfl⟩
    · exact ⟨s.cores, rfl⟩
  · exact ⟨s.cores, rfl⟩

theorem lane_modLane {s : State} {u l : Nat} {ln : Lane} (h : s.lane u l = some ln) (f : Lane → Lane) : (s.modLane u l f).lane u l = some (f ln) := by
  unfold State.lane at h ⊢
  rw [wave_modLane, if_pos rfl]
  cases w : s.wave u with
  | none => rw [w] at h; cases h
  | some x =>
    simp only [w, Wave.lane] at h
    simp only [Option.map_some, Wave.lane, sget_smod, if_true, h]

/-- The answer to a request of one lane: the lane takes it, and the request is over. -/
theorem answer_lane {s : State} {r : OutReq} {u l : Nat} {ln : Lane} (serves : r.Serves u l) (h : s.lane u l = some ln) (req status : Nat)
    (data : List Byte) (aux : Word) : let t := s.answer req r status data aux
    t.lane u l = some (ln.takeAnswer req r 0 status data aux) ∧ sget t.fabric.out req = none ∧ t.time = s.time := by
  obtain ⟨-, engine, rfl, lanes⟩ := serves
  obtain ⟨cs, fetched⟩ := fetched_rest s r status data
  have e : s.answer req r status data aux =
      let v := ({ s with cores := cs } : State).modLane r.wave l (fun x => x.takeAnswer req r 0 status data aux)
      ({ v with fabric := { v.fabric with out := sdel v.fabric.out req } } : State).settlePlanes := by
    unfold State.answer
    rw [engine, lanes, fetched]
    rfl
  rw [e]
  refine ⟨?_, (settlePlanes_sends _).out req ((sget_sdel ..).trans (if_pos rfl)), by rw [settlePlanes_rest]; rfl⟩
  rw [settlePlanes_rest]
  exact lane_modLane (s := { s with cores := cs }) h _

/-- A lane that waits for a request takes its answer (R188, R190). -/
theorem takeAnswer_waiting {ln : Lane} {r : OutReq} {wt : Wait} {req : Nat} (reads : r.posted = none) (waits : ln.wait = some wt)
    (kind : wt.kind = .remote req) (sum : Word) (status : Nat) (data : List Byte) (aux : Word) :
    ln.takeAnswer req r sum status data aux = { ln with wait := some (wt.answered r sum status data aux) } := by
  simp [Lane.takeAnswer, reads, waits, kind]

/-- An access that fails: how, and its VA after what the lane has (R139, R190). -/
theorem answered_failed (wt : Wait) (r : OutReq) (sum : Word) {status : Nat} (failed : status ≠ remoteDone) (data : List Byte) (aux : Word) :
    wt.answered r sum status data aux = { wt with status := some status, value := aux, bytes := wt.bytes ++ natLe 8 r.va } :=
  if_pos (bne_iff_ne.mpr failed)

/-- The status of a reply that refuses: the line was poisoned, or not (R103, R182). -/
def refusal (data : List Byte) : Nat := if data.headD 0 = 0x14 then remotePoison else remoteRefused

theorem refusal_failed (data : List Byte) : refusal data ≠ remoteDone := by
  unfold refusal
  split <;> decide

theorem refusal_cause (data : List Byte) : remoteCause (refusal data) = if data.headD 0 = 0x14 then 0x14 else 0x10 := by
  unfold refusal
  split <;> rfl

/-- REMOTE_REPLY without its flit (R195). -/
theorem exec_remoteReply_unreleased {s : State} {req : Nat} {ok : Bool} {data : List Byte} (h : s.input = some (.remoteReply req ok data))
    (none_ : s.takeFlit (.reply req ok data) = none) : exec .remoteReply s = .next s := by
  show execRemoteReply s = _
  simp only [execRemoteReply, h, none_]

section
variable {s : State} {req u l : Nat} {r : OutReq} {ln : Lane} (listed : sget s.fabric.out req = some r) (serves : r.Serves u l)
  (lane : s.lane u l = some ln)
include listed serves lane

/-- A reply ends the access of the lane that it serves (R188). -/
theorem exec_remoteReply {ok : Bool} {data : List Byte} (h : s.input = some (.remoteReply req ok data))
    (comes : (s.takeFlit (.reply req ok data)).isSome = true) : ∃ t, exec .remoteReply s = .next t ∧ sget t.fabric.out req = none ∧
      t.lane u l = some (if ok then ln.takeAnswer req r 0 remoteDone data 0 else ln.takeAnswer req r 0 (refusal data) [] 0) := by
  obtain ⟨s1, taken⟩ := Option.isSome_iff_exists.mp comes
  have after := takeFlit_eq taken
  have listed1 : sget s1.fabric.out req = some r := by rw [after]; exact listed
  have lane1 : s1.lane u l = some ln := by rw [after]; exact lane
  have run : exec .remoteReply s = .next (if ok then s1.answer req r remoteDone data 0 else s1.answer req r (refusal data) [] 0) := by
    show execRemoteReply s = _
    simp only [execRemoteReply, h, taken, listed1, serves.left, Bool.false_eq_true, if_false]
    cases ok <;> rfl
  refine ⟨_, run, ?_⟩
  cases ok with
  | true =>
    obtain ⟨at_, ended, -⟩ := answer_lane serves lane1 req remoteDone data 0
    exact ⟨ended, at_⟩
  | false =>
    obtain ⟨at_, ended, -⟩ := answer_lane serves lane1 req (refusal data) [] 0
    exact ⟨ended, at_⟩

/-- FABTIMEOUT of unsuspended time ends an access that has left (R190). -/
theorem exec_remoteTimeout (h : s.input = some (.remoteTimeout req)) : ∃ t, exec .remoteTimeout s = .next t ∧
    t.lane u l = some (ln.takeAnswer req r 0 remoteTimedOut [] r.aux) ∧ r.sentAt + r.suspended + 1000 * s.fabric.timeout ≤ t.time := by
  have run : exec .remoteTimeout s = .next ((s.atLeast (s.replyLimit r.sentAt r.suspended)).answer req r remoteTimedOut [] r.aux) := by
    show execRemoteTimeout s = _
    simp only [execRemoteTimeout, h, listed, serves.left, Bool.false_and, Bool.false_eq_true, if_false]
  obtain ⟨at_, -, time⟩ := answer_lane (s := s.atLeast (s.replyLimit r.sentAt r.suspended)) serves lane req remoteTimedOut [] r.aux
  refine ⟨_, run, at_, ?_⟩
  rw [time]
  exact Nat.le_max_right ..

end

/-- HOLD_NOTICE of a request (R190). -/
theorem exec_holdNotice {s s1 : State} {req : Nat} (h : s.input = some (.holdNotice req none)) (taken : s.takeFlit (.hold req) = some s1) :
    exec .holdNotice s = .next { s1 with fabric := { s1.fabric with out := smod s1.fabric.out req (fun x =>
      { x with suspended := x.suspended + (s1.time + 50000 - max s1.time x.resumes), resumes := s1.time + 50000 }) } } := by
  show execHoldNotice s = _
  simp only [execHoldNotice, h, taken]
  rfl

/-- What is held here is announced again (R190), 20 µs after the last notice. -/
def State.noticed (s : State) (n : Nat) (h : HeldReq) : State :=
  { s with time := max s.time (h.noticed + 20000),
           fabric := { s.fabric with heldIn := s.fabric.heldIn.set n { h with noticed := max s.time (h.noticed + 20000) } } }

/-- HOLD_NOTICE_SEND (R190). -/
theorem exec_holdNoticeSend {s : State} {n : Nat} (input : s.input = some (.holdNoticeSend n)) :
    (∀ h, s.fabric.heldIn[n]? = some h →
      (∀ r, h.what = .request r → exec .holdNoticeSend s = .next ((s.noticed n h).sendFlit r.port (.hold r.pkg r.port r.seq))) ∧
      (∀ m, h.what = .member m → exec .holdNoticeSend s = .next ((s.noticed n h).sendFlit m.port (.holdMember m.pkg m.port m.seq m.member)))) ∧
    (s.fabric.heldIn[n]? = none → exec .holdNoticeSend s = .next s) := by
  show (∀ h, _ → (∀ r, _ → execHoldNoticeSend s = _) ∧ (∀ m, _ → execHoldNoticeSend s = _)) ∧ (_ → execHoldNoticeSend s = _)
  refine ⟨?_, fun none_ => ?_⟩
  · rintro ⟨what, since⟩ at_
    refine ⟨fun r is => ?_, fun m is => ?_⟩
    · obtain rfl : what = .request r := is
      simp only [execHoldNoticeSend, input, at_]
      rfl
    · obtain rfl : what = .member m := is
      simp only [execHoldNoticeSend, input, at_]
      rfl
  · simp only [execHoldNoticeSend, input, none_]

end Sys2Proof.Machine
end

section
/-! Requests between packages: O46. -/

namespace Sys2Proof.Laws
open Sys2Proof.Machine

/-- Settles O46: a request by whether it has been seen, is held, or is performed by its operation; a reply and a limit by what the lane that
waits takes of them. -/
theorem fabricRequests : Obligations.FabricRequests := by
  refine ⟨fun s r h => ⟨exec_remoteRequest_unreleased h, fun s1 taken => ⟨fun p seen => exec_remoteRequest_again h taken seen, fun seen busy first => ?held,
      fun seen free => ?performed⟩⟩,
    fun s req r u l w ln listed left engine wave lanes hw hl => ⟨fun ok data => exec_remoteReply_unreleased, fun wt reads waits kind => ?waiting,
      fun p posted => ?posted, fun s1 h taken => exec_holdNotice h taken⟩,
    fun s n h => exec_holdNoticeSend h⟩
  case held => exact exec_remoteRequest_held ⟨h, taken, seen⟩ busy first
  case performed =>
    have asks : s.Asks s1 r := ⟨h, taken, seen⟩
    refine ⟨answers_beyond asks free, fun within part poisoned => answers_poisoned asks free within part poisoned,
      fun within sound => (answers_byOp asks free within sound).1, fun within fits store => answers_store asks free within fits store, ?_⟩
    refine ⟨fun op within sound => ?_, fun within sound => ?_, fun within sound => ?_, fun high within sound => ?_⟩
    all_goals obtain ⟨-, atomic, decrement, increment, nibble⟩ := answers_byOp asks free within sound
    · exact atomic op
    · exact decrement
    · exact increment
    · exact nibble high
  case waiting =>
    have serves : r.Serves u l := ⟨left, engine, wave, lanes⟩
    have lane : s.lane u l = some ln := by simp only [State.lane, hw, hl]
    have takes := takeAnswer_waiting (ln := ln) reads waits kind
    refine ⟨fun data comes load => ?_, fun data comes store => ?_, fun data comes => ?_, fun limit => ?_⟩
    · obtain ⟨t, run, ended, at_⟩ := exec_remoteReply listed serves lane comes.1 comes.2
      refine ⟨t, run, at_.trans ?_, ended⟩
      rw [if_pos rfl, takes]
      simp [Wait.answered, load, remoteDone]
    · obtain ⟨t, run, ended, at_⟩ := exec_remoteReply listed serves lane comes.1 comes.2
      refine ⟨t, run, at_.trans ?_, ended⟩
      rw [if_pos rfl, takes]
      simp [Wait.answered, store, remoteDone]
    · obtain ⟨t, run, ended, at_⟩ := exec_remoteReply listed serves lane comes.1 comes.2
      refine ⟨t, run, at_.trans ?_, ended⟩
      rw [if_neg Bool.false_ne_true, takes, answered_failed wt r 0 (refusal_failed data)]
      rfl
    · obtain ⟨t, run, at_, late⟩ := exec_remoteTimeout listed serves lane limit
      refine ⟨t, run, at_.trans ?_, late⟩
      rw [takes, answered_failed wt r 0 (by decide)]
      rfl
  case posted =>
    have serves : r.Serves u l := ⟨left, engine, wave, lanes⟩
    have lane : s.lane u l = some ln := by simp only [State.lane, hw, hl]
    refine ⟨fun data comes => ?_, fun data comes well => ?_⟩
    · obtain ⟨t, run, ended, at_⟩ := exec_remoteReply listed serves lane comes.1 comes.2
      refine ⟨t, run, at_.trans ?_, ended⟩
      simp [Lane.takeAnswer, posted]
    · obtain ⟨t, run, ended, at_⟩ := exec_remoteReply listed serves lane comes.1 comes.2
      refine ⟨t, run, at_.trans ?_, ended⟩
      simp [Lane.takeAnswer, posted, well, refusal_failed, refusal_cause]

end Sys2Proof.Laws
end

section
/-! The index that stands for the posts of closed ports (R212, R214, R379): O43. -/

namespace Sys2Proof.Machine

/-- The engine's event for the index of the closed ports' posts is about those posts, whatever the object table has at that index. -/
theorem exec_rendezvousLand_parted {s : State} {n : Nat} (h : s.input = some (.rendezvousLand partedPort n)) :
    exec .rendezvousLand s = .next ((s.partedStep n).getD s) := by
  show execRendezvousLand s = _
  simp only [execRendezvousLand, h, if_true]

/-- Where no closed port has left a post, that event does nothing. -/
theorem exec_rendezvousLand_noneParted {s : State} {n : Nat} (h : s.input = some (.rendezvousLand partedPort n)) (empty : s.parted = []) :
    exec .rendezvousLand s = .next s := by
  rw [exec_rendezvousLand_parted h, State.partedStep, empty]
  rfl

/-- How the n-th post of a port has ended, if it has. -/
def State.postEnding (s : State) (idx n : Nat) : Option Completion := ((s.portIdx idx).bind (fun p => p.posts[n]?)).bind Post.ending

/-- A post that takes no more SRDs and has none to land. -/
def closingPost : Post :=
  { asid := 0, va := 0, record := [], priv := false, entry := Tensor.none, since := 0, latched := none, firstT := 0, lastT := 0, taken := [],
    landing := none, closing := true }

/-- A matched-mode port with that post. -/
def closingPort : Port :=
  { matched := true, eth := false, capacity := 0, gwBase := 0, gwSlots := 0, slots := [], queue := [], posts := [closingPost], senders := 0,
    hadSenders := false, name := none }

/-- The port stands at the index of the closed ports' posts, and the engine is to go on with its post. -/
def portAtParted : State :=
  { State.reset with objs := [(partedPort, Obj.mk 0 0 (some (.port closingPort)))], input := some (.rendezvousLand partedPort 0) }

/-- Refutes O43: the clauses about the engine's next step take a port at any index. At 2^20, the index under which the model keeps the posts of
closed ports, the event leaves the post of portAtParted unended, where a post that is closing and has nothing left to land is to end. The
object table has no such entry, since an INDEX has 20 bits (R379, R381), but the statement does not exclude it. -/
theorem not_postsAndMessages : ¬ Obligations.PostsAndMessages := by
  intro h
  obtain ⟨-, -, events⟩ := h
  obtain ⟨land, -, -⟩ := events portAtParted partedPort 0 closingPort closingPost rfl rfl
  have quiet : portAtParted.quiet (.post partedPort closingPost.uid) := fun e he => nomatch he
  obtain ⟨nothingLeft, -⟩ := land rfl quiet
  have ends := nothingLeft rfl rfl rfl
  rw [exec_rendezvousLand_noneParted rfl rfl, if_pos (show closingPost.closing = true from rfl)] at ends
  injection ends with same
  have ending : portAtParted.postEnding partedPort 0 = some (closingPost.frameEnd 2 0 0) := congrArg (State.postEnding · partedPort 0) same
  cases ending

end Sys2Proof.Machine
end

section
/-! The TSYNC functions by a group of one lane (R222 to R229): O25. -/

namespace Sys2Proof.Machine

/-! Slots, and what TINIT makes of one (R123, R126). -/

@[simp] theorem slot_setSlot_same (s : State) (core i : Nat) (x : Slot) : (s.setSlot core i x).slot core i = x := by
  simp [State.slot, State.setSlot, State.modCore, State.core, sgetD]

@[simp] theorem slot_releaseSlot (s : State) (core i status : Nat) (v : Word) (c j : Nat) : (s.releaseSlot core i status v).slot c j = s.slot c j := rfl

theorem slotArgBad_iff {a : Word} : slotArgBad a = true ↔ a &&& 0xFFFFFEC0 ≠ 0 := bne_iff_ne

theorem slotArgBad_false {a : Word} (sound : a &&& 0xFFFFFEC0 = 0) : slotArgBad a = false := bne_eq_false_iff_eq.mpr sound

theorem foreign_iff {x : Slot} {asid : Nat} : x.foreign asid = true ↔ x.st ≠ .empty ∧ x.asid ≠ asid := by simp [Slot.foreign]

/-- A slot of no one, or of the context itself, is no other context's. -/
theorem foreign_false {x : Slot} {asid : Nat} (mine : x.st = .empty ∨ x.asid = asid) : x.foreign asid = false := by
  obtain h | h := mine <;> simp [Slot.foreign, h]

/-- A slot's fields after TINIT, written out. -/
theorem Slot.init_eq (x : Slot) (outbound : Bool) (base size expected asid : Nat) : x.init outbound base size expected asid =
    if expected = 0 ∧ outbound = true then { Slot.reset with gen := x.gen }
    else Slot.mk (if expected = 0 then .ready else if outbound then .draining else .filling) base size expected 0 x.gen 0 asid := by
  by_cases none_ : expected = 0
  · cases outbound <;> simp [Slot.init, Slot.empty, none_]
  · simp [Slot.init, none_]

theorem Slot.init_gen (x : Slot) (outbound : Bool) (base size expected asid : Nat) : (x.init outbound base size expected asid).gen = x.gen := by
  rw [Slot.init_eq]
  split <;> rfl

section
variable {s : State} {core i : Nat} {outbound : Bool} {base size expected asid : Nat}

theorem initSlot_empty (empty : (s.slot core i).st = .empty) : s.initSlot core i outbound base size expected asid =
    s.setSlot core i ((s.slot core i).init outbound base size expected asid) := by
  simp only [State.initSlot, empty]

/-- A slot with work outstanding or lost gives it up: GEN advances, and its waiters are released (R126). -/
theorem initSlot_used (used : (s.slot core i).st = .filling ∨ (s.slot core i).st = .draining ∨ (s.slot core i).st = .poisoned) :
    s.initSlot core i outbound base size expected asid =
      (s.setSlot core i ((s.slot core i).bump.init outbound base size expected asid)).releaseSlot core i 7 0 := by
  obtain st | st | st := used <;> simp only [State.initSlot, st]

end

/-! The map of a slot (R123). -/

theorem slotStateCode_le (st : SlotState) : slotStateCode st ≤ 4 := by cases st <;> decide

/-- A field of a word that a number gives. -/
theorem wbits_ofNat (n hi lo : Nat) : wbits (BitVec.ofNat 32 n) hi lo = n % 2 ^ 32 / 2 ^ lo % 2 ^ (hi + 1 - lo) := by
  rw [wbits, bitsOf, BitVec.toNat_ofNat]

/-- The words of the map (R228). -/
def mapWords (v : Nat) : List Word := [BitVec.ofNat 32 v, BitVec.ofNat 32 (v / 2 ^ 32), BitVec.ofNat 32 (v / 2 ^ 64), BitVec.ofNat 32 (v / 2 ^ 96)]

/-- The fields of the map that the slot's context reads (R123). -/
theorem mapWords_mine {x : Slot} {waiters : Nat} (few : waiters < 2 ^ 12) (base : x.base < 2 ^ 12) (size : x.size < 2 ^ 12)
    (expected : x.expected < 2 ^ 20) (arrived : x.arrived < 2 ^ 24) (gen : x.gen < 256) (pcause : x.pcause < 2 ^ 12) (asid : x.asid < 2 ^ 16) :
    let v := mapWords (slotMap x waiters true)
    wbits (v.getD 0 0) 31 24 = slotStateCode x.st ∧ wbits (v.getD 0 0) 11 0 = x.base ∧ wbits (v.getD 0 0) 23 12 = x.size ∧
    wbits (v.getD 1 0) 19 0 = x.expected ∧ wbits (v.getD 1 0) 31 20 = x.pcause ∧ wbits (v.getD 2 0) 23 0 = x.arrived ∧
    wbits (v.getD 2 0) 31 24 = x.gen % 256 ∧ wbits (v.getD 3 0) 31 16 = x.asid := by
  have code := slotStateCode_le x.st
  simp only [mapWords, slotMap, List.getD_cons_zero, List.getD_cons_succ, wbits_ofNat, if_true]
  refine ⟨?_, ?_, ?_, ?_, ?_, ?_, ?_, ?_⟩ <;> omega

/-- Another context reads STATE alone (R228). -/
theorem mapWords_foreign (x : Slot) (waiters : Nat) :
    mapWords (slotMap x waiters false) = [BitVec.ofNat 32 (slotStateCode x.st * 2 ^ 24), 0, 0, 0] := by
  simp only [slotMap, Bool.false_eq_true, if_false]
  cases x.st <;> decide

theorem slotWaiters_lt (s : State) (core i : Nat) : s.slotWaiters core i < 2 ^ 12 := by
  have : s.slotWaiters core i ≤ 4095 := Nat.min_le_left ..
  omega

/-! What a lane's part of a TSYNC function meets (R223, R225, R227). -/

/-- What a waiting lane still reads as it was at issue does not concern its block (R247). -/
@[simp] theorem asSeen_block (w : Wave) (ln : Lane) : (w.asSeen ln).block = w.block := by
  unfold Wave.asSeen
  split <;> rfl

section
variable {s : State} {fo : Focus} {w : Wave} {l : Nat} {ln : Lane} {k : Block} (h : Solo s fo w l ln) (block : sget s.blocks w.block = some k)
  {a : Opd} {owner : Bool} {f : State → Focus → Wave → Nat → Lane → Block → Nat → Slot → State × Out}
include h block

/-- A lane whose wait has been answered goes on in its function without the checks (R227). -/
theorem tsync_released (released : ln.released = true) :
    let i := wbits (readOpd (w.asSeen ln) l ln a) 5 0
    let r := f s fo (w.asSeen ln) l ln k i (s.slot k.slotCore i)
    tsync s a owner f = (applyOut r.1 fo l false r.2).1 := by
  simp only [tsync, runSeen, runLanes_solo h, asSeen_block, h.focus, block, released, if_true]

variable (free : ln.wait = none)
include free

theorem tsync_badWord (bad : readOpd w l ln a &&& 0xFFFFFEC0 ≠ 0) : tsync s a owner f = s.traps fo l 0x11 0 (faultAux (laneAcc w ln false) 0 16) := by
  simp only [tsync, runSeen, runLanes_solo h, asSeen_none w free, h.focus, block, Lane.released, free, slotArgBad_iff.mpr bad, if_true]
  rfl

variable (sound : readOpd w l ln a &&& 0xFFFFFEC0 = 0)
include sound

theorem tsync_foreign (foreign : (s.slot k.slotCore (wbits (readOpd w l ln a) 5 0)).foreign w.asid = true) :
    tsync s a true f = s.traps fo l 0x11 0 (faultAux (laneAcc w ln false) 0 15) := by
  simp only [tsync, runSeen, runLanes_solo h, asSeen_none w free, h.focus, block, Lane.released, free, slotArgBad_false sound, foreign, Bool.and_self, if_true]
  rfl

/-- The function runs on a slot that is not another context's, or whosever it is where the owner does not count. -/
theorem tsync_runs {t : State} {o : Out} (mine : owner = true → (s.slot k.slotCore (wbits (readOpd w l ln a) 5 0)).foreign w.asid = false)
    (run : f s fo w l ln k (wbits (readOpd w l ln a) 5 0) (s.slot k.slotCore (wbits (readOpd w l ln a) 5 0)) = (t, o)) :
    tsync s a owner f = (applyOut t fo l false o).1 := by
  have own : (owner && (s.slot k.slotCore (wbits (readOpd w l ln a) 5 0)).foreign w.asid) = false := by
    cases owner
    · rfl
    · exact mine rfl
  simp only [tsync, runSeen, runLanes_solo h, asSeen_none w free, h.focus, block, Lane.released, free, slotArgBad_false sound, own, run, Bool.false_eq_true, if_false]

end

/-! TINIT (R223, R224, R226). -/

section
variable {s : State} {fo : Focus} {w : Wave} {l : Nat} {ln : Lane} {k : Block} (h : Solo s fo w l ln) (block : sget s.blocks w.block = some k)
  (free : ln.wait = none) {d a b : Opd} (sound : readOpd w l ln a &&& 0xFFFFFEC0 = 0)
  (mine : (s.slot k.slotCore (wbits (readOpd w l ln a) 5 0)).foreign w.asid = false)
include h block free sound mine

theorem exec_tinit_misaligned (mis : (readOpd w l ln b).toNat % 256 ≠ 0) :
    exec (.tinit d a b) s = .next (s.traps fo l 0x12 (readOpd w l ln b).toNat 0) :=
  congrArg _ (tsync_runs (t := s) (o := .trap (Trap.mk 0x12 (readOpd w l ln b).toNat 0) false) h block free sound (fun _ => mine)
    (if_pos (bne_iff_ne.mpr mis)))

variable (aligned : (readOpd w l ln b).toNat % 256 = 0) {size expected : Nat} (hsize : size = wbits (readOpd w l ln (opdPlus b 1)) 11 0)
  (hexpected : expected = wbits (readOpd w l ln (opdPlus b 1)) 31 12)
include aligned hsize hexpected

theorem exec_tinit_beyond (bad : size = 0 ∨ 2048 < size ∨ k.scratchBytes < (readOpd w l ln b).toNat + 256 * size ∨ 256 * size < expected) :
    exec (.tinit d a b) s = .next (s.traps fo l 0x11 (readOpd w l ln b).toNat (faultAux (laneAcc w ln false) 0 14)) := by
  subst hsize hexpected
  refine congrArg _ (tsync_runs (t := s) (o := .trap (slotProt w ln false (readOpd w l ln b).toNat reasonScrRange) false) h block free sound
    (fun _ => mine) ((if_neg (fun mis => bne_iff_ne.mp mis aligned)).trans (if_pos ?_)))
  simpa only [Bool.or_eq_true, decide_eq_true_eq, or_assoc] using bad

/-- TINIT gives its slot the new fields and returns GEN. -/
theorem exec_tinit_sets (good : ¬ (size = 0 ∨ 2048 < size ∨ k.scratchBytes < (readOpd w l ln b).toNat + 256 * size ∨ 256 * size < expected)) {t : State}
    (sets : s.initSlot k.slotCore (wbits (readOpd w l ln a) 5 0) ((readOpd w l ln a).getLsbD 8)
      ((k.origin + (readOpd w l ln b).toNat) / 256) size expected w.asid = t) :
    exec (.tinit d a b) s = .next (t.completes fo l d [BitVec.ofNat 32 (t.slot k.slotCore (wbits (readOpd w l ln a) 5 0)).gen] 0) := by
  subst hsize hexpected sets
  refine congrArg _ ((tsync_runs h block free sound (fun _ => mine)
    ((if_neg (fun mis => bne_iff_ne.mp mis aligned)).trans (if_neg ?_))).trans (applyOut_done ..))
  simpa only [Bool.or_eq_true, decide_eq_true_eq, or_assoc] using good

end

/-! TWAIT, TSTAT, TREADY and TEMPTY (R126, R127, R227 to R229). -/

section
variable {s : State} {fo : Focus} {w : Wave} {l : Nat} {ln : Lane} {k : Block} (h : Single s fo w l ln) (block : sget s.blocks w.block = some k)
  {d a : Opd} (sound : readOpd w l ln a &&& 0xFFFFFEC0 = 0) {i : Nat} {x : Slot} (hi : i = wbits (readOpd w l ln a) 5 0)
  (hx : x = s.slot k.slotCore i)
include h block sound hi hx

theorem exec_tstat : exec (.tstat d a) s = .next (s.completes fo l d (mapWords (slotMap x (s.slotWaiters k.slotCore i) (!x.foreign w.asid))) 0) := by
  subst hx hi
  exact congrArg _ ((tsync_runs h.toSolo block h.wait sound (fun owner => absurd owner Bool.false_ne_true) rfl).trans (applyOut_done ..))

variable (mine : x.foreign w.asid = false)
include mine

theorem exec_twait_over (past : x.st = .ready ∨ x.st = .empty) : exec (.twait d a) s = .next (s.completes fo l d [0] 0) := by
  subst hx hi
  refine congrArg _ ((congrArg (s.settled · d 1) ((tsync_runs h.toSolo block h.wait sound (fun _ => mine)
    (t := s) (o := .done (some d) [0] 0) ?_).trans (applyOut_done ..))).trans (settled_through h.toSolo h.wait d 1 completes_through))
  obtain st | st := past <;> simp only [h.wait, st]

theorem exec_twait_waits (outstanding : x.st = .filling ∨ x.st = .draining) :
    exec (.twait d a) s = .next (s.settled (s.waits fo l (.slotRelease k.slotCore i)) d 1) := by
  subst hx hi
  refine congrArg _ (congrArg (s.settled · d 1) (tsync_runs h.toSolo block h.wait sound (fun _ => mine)
    (t := s) (o := .wait (.slotRelease k.slotCore (wbits (readOpd w l ln a) 5 0))) ?_))
  obtain st | st := outstanding <;> simp only [h.wait, st]

theorem exec_twait_poisoned (poisoned : x.st = .poisoned) :
    exec (.twait d a) s = .next (s.traps fo l 0x20 0 (BitVec.ofNat 32 (i * 256 + x.pcause))) := by
  subst hx hi
  refine congrArg _ ((congrArg (s.settled · d 1) (tsync_runs h.toSolo block h.wait sound (fun _ => mine)
    (t := s) (o := .trap (tilePoison (wbits (readOpd w l ln a) 5 0) (s.slot k.slotCore (wbits (readOpd w l ln a) 5 0))) false) ?_)).trans
    (settled_through h.toSolo h.wait d 1 (takeTrap_through h.wave h.lane)))
  simp only [h.wait, poisoned]

theorem exec_tready_sets (outstanding : x.st = .filling ∨ x.st = .draining) : exec (.tready d a) s =
    .next (((s.setSlot k.slotCore i { x with st := .ready }).releaseSlot k.slotCore i 0 0).completes fo l d [0] 0) := by
  subst hx hi
  refine congrArg _ ((tsync_runs h.toSolo block h.wait sound (fun _ => mine) (o := .done (some d) [0] 0) ?_).trans (applyOut_done ..))
  obtain st | st := outstanding <;> simp only [st]

theorem exec_tready_refused (settled : x.st = .empty ∨ x.st = .ready ∨ x.st = .poisoned) :
    exec (.tready d a) s = .next (s.completes fo l d [5] 0) := by
  subst hx hi
  refine congrArg _ ((tsync_runs h.toSolo block h.wait sound (fun _ => mine) (o := .done (some d) [5] 0) ?_).trans (applyOut_done ..))
  obtain st | st | st := settled <;> simp only [st]

theorem exec_tempty : exec (.tempty d a) s =
    .next (((s.setSlot k.slotCore i { Slot.reset with gen := (x.gen + 1) % 256 }).releaseSlot k.slotCore i 7 0).completes fo l d [0] 0) := by
  subst hx hi
  exact congrArg _ ((tsync_runs h.toSolo block h.wait sound (fun _ => mine) rfl).trans (applyOut_done ..))

end

/-- TWAIT of a lane that its slot's end has released (R227). -/
theorem exec_twait_released {s : State} {fo : Focus} {w : Wave} {l : Nat} {ln : Lane} {k : Block} (h : Solo s fo w l ln)
    (block : sget s.blocks w.block = some k) {d a : Opd} {wt : Wait} {st : Nat} (waits : ln.wait = some wt) (status : wt.status = some st) :
    exec (.twait d a) s = .next (s.settled
      (if st = 32 then s.traps fo l 0x20 0 wt.value else s.completes fo l d [BitVec.ofNat 32 st] 0) d 1) := by
  have released : ln.released = true := by simp [Lane.released, waits, status]
  refine congrArg _ (congrArg (s.settled · d 1) ((tsync_released h block released).trans ?_))
  by_cases poisoned : st = 32
  · simp only [waits, status, poisonStatus, poisoned, if_true]
    rfl
  · simp only [waits, status, poisonStatus, poisoned, if_false]
    exact applyOut_done ..

/-- Settles O25: TINIT by the check that its operands fail first, or by what it makes of the slot; the functions of the slot by its state;
the lane that has been released by the status it has. -/
theorem slots : Obligations.Slots := by
  refine ⟨?tinit, ?functions, ?released⟩
  case tinit =>
    intro d a b s fo w l ln k h free block word i core x base size expected out prot bad
    refine ⟨fun badWord => congrArg _ (tsync_badWord h block free badWord),
      fun sound used other => congrArg _ (tsync_foreign h block free sound (foreign_iff.mpr ⟨used, other⟩)),
      fun sound mine mis => exec_tinit_misaligned h block free sound (foreign_false mine) mis,
      fun sound mine aligned beyond => exec_tinit_beyond h block free sound (foreign_false mine) aligned rfl rfl beyond,
      fun sound aligned good empty => ?empty, fun sound aligned good used own some_ => ?used⟩
    case empty =>
      have sets := exec_tinit_sets (d := d) h block free sound (foreign_false (.inl empty)) aligned rfl rfl good (initSlot_empty empty)
      rw [slot_setSlot_same, Slot.init_gen, Slot.init_eq] at sets
      exact sets
    case used =>
      have sets := exec_tinit_sets (d := d) h block free sound (foreign_false (.inr own)) aligned rfl rfl good (initSlot_used used)
      rw [slot_releaseSlot, slot_setSlot_same, Slot.init_gen, Slot.init_eq, if_neg (fun none_ => some_ none_.1), if_neg some_] at sets
      exact sets
  case functions =>
    intro d a s fo w l ln k h block word i core x sound
    refine ⟨fun mine => ?mine, mapWords (slotMap x (s.slotWaiters core i) (!x.foreign w.asid)), rfl, exec_tstat h block sound rfl rfl,
      fun mine base size expected arrived gen pcause asid => ?map, fun used other => ?foreign, rfl⟩
    case mine =>
      have own := foreign_false mine
      exact ⟨exec_twait_over h block sound rfl rfl own, exec_twait_waits h block sound rfl rfl own, exec_twait_poisoned h block sound rfl rfl own,
        exec_tready_sets h block sound rfl rfl own, exec_tready_refused h block sound rfl rfl own, exec_tempty h block sound rfl rfl own⟩
    case map =>
      rw [foreign_false mine]
      exact mapWords_mine (slotWaiters_lt s core i) base size expected arrived gen pcause asid
    case foreign =>
      rw [foreign_iff.mpr ⟨used, other⟩, Bool.not_true, mapWords_foreign]
      exact ⟨rfl, rfl, rfl, rfl⟩
  case released =>
    intro d a s fo w l ln k wt st h block waits status
    rw [exec_twait_released h block waits status]
    exact ⟨fun other => by rw [if_neg other], fun poisoned => by rw [if_pos poisoned]⟩

end Sys2Proof.Machine
end

section
/-! The part of an instruction of one lane that waits for nothing (R137, R247), and a store of an engine (R359). -/

namespace Sys2Proof.Machine

/-- What a group of one lane does where its lane waits for nothing: its part, and the end of that part. -/
theorem runSeen_part {s : State} {fo : Focus} {w : Wave} {l : Nat} {ln : Lane} (h : Solo s fo w l ln) (free : ln.wait = none)
    {f : State → Wave → Nat → Lane → State × Out} {r : State × Out} (run : f s w l ln = r) : runSeen s f = (applyOut r.1 fo l false r.2).1 := by
  rw [runSeen, runLanes_solo h, asSeen_none w free, run]

/-- No lane runs, so no L1 follows what is stored (R359). -/
theorem storeRun_engine {s : State} (none_ : s.focus = none) (la : Nat) (bs : List Byte) : s.storeRun la bs = s.storeHome la bs := by
  simp [State.storeRun, State.runCore, none_]

theorem hostFault_below {s : State} {la : Nat} (below : la < hostBase) : s.hostFault la = none := by simp [State.hostFault, below]

end Sys2Proof.Machine
end

section
/-! LCP by a group of one lane (R127, R230, R231). -/

namespace Sys2Proof.Machine

/-- The lane whose slot has been poisoned while it waited for it (R127). -/
theorem slotLost_drain {ln : Lane} {wt : Wait} {c i : Nat} (waits : ln.wait = some wt) (kind : wt.kind = .slotDrain c i) (status : wt.status = some 32) :
    ln.slotLost = some (Trap.mk 0x20 0 wt.value) := by
  simp [Lane.slotLost, waits, kind, status, poisonStatus]

theorem slotLost_free {ln : Lane} (free : ln.wait = none) : ln.slotLost = none := by simp [Lane.slotLost, free]

theorem exec_lcp_lost {s : State} {fo : Focus} {w : Wave} {l : Nat} {ln : Lane} {k : Block} (h : Solo s fo w l ln) (block : sget s.blocks w.block = some k)
    {sa g : Opd} {size : CopySize} {out ordered : Bool} {slot : BitVec 6} {t : Trap} (lost : ln.slotLost = some t) :
    exec (.lcp sa g size out slot ordered) s = .next (takeTrap s fo.wave l t false fo.len) := by
  show execLcp sa g size out slot ordered s = _
  simp only [execLcp, runSeen, runLanes_solo h, asSeen_block, h.focus, block, lost, applyOut_trap]

/-- What LCP to or from HBM does once its checks are passed (R14, R127, R231, R232): it waits for room; an inbound copy starts, and an outbound one as
its slot's state says. -/
def State.lcpPassed (s : State) (w : Wave) (core : Nat) (c : LaneCopy) (t : Target) : State × Out :=
  if s.requestRoom w.coreKey = false then (s, .wait .requests)
  else
    let starts := ((s.addCopy core c).noteTlb w.asid t, Out.done none [] 0)
    if c.inbound then starts
    else
      match (s.slot core c.slot).st with
      | .ready | .draining => starts
      | .poisoned => (s, .trap (tilePoison c.slot (s.slot core c.slot)) false)
      | .filling | .empty => (s, .wait (.slotDrain core c.slot))

section
variable {s : State} {w : Wave} {core : Nat} {c : LaneCopy} {t : Target}

theorem lcpPassed_noRoom (full : s.requestRoom w.coreKey = false) : s.lcpPassed w core c t = (s, .wait .requests) := if_pos full

variable (room : s.requestRoom w.coreKey = true)
include room

theorem lcpPassed_starts (starts : c.inbound = true ∨ (s.slot core c.slot).st = .ready ∨ (s.slot core c.slot).st = .draining) :
    s.lcpPassed w core c t = ((s.addCopy core c).noteTlb w.asid t, .done none [] 0) := by
  obtain inbound | st | st := starts
  · simp [State.lcpPassed, room, inbound]
  · simp [State.lcpPassed, room, st]
  · simp [State.lcpPassed, room, st]

variable (outbound : c.inbound = false)
include outbound

theorem lcpPassed_waits (early : (s.slot core c.slot).st = .filling ∨ (s.slot core c.slot).st = .empty) :
    s.lcpPassed w core c t = (s, .wait (.slotDrain core c.slot)) := by
  obtain st | st := early <;> simp [State.lcpPassed, room, outbound, st]

theorem lcpPassed_poisoned (poisoned : (s.slot core c.slot).st = .poisoned) :
    s.lcpPassed w core c t = (s, .trap (tilePoison c.slot (s.slot core c.slot)) false) := by
  simp [State.lcpPassed, room, outbound, poisoned]

end

section
variable {s : State} {fo : Focus} {w : Wave} {l : Nat} {ln : Lane} {k : Block} (h : Single s fo w l ln) (block : sget s.blocks w.block = some k)
  {sa g : Opd} {size : CopySize} {out ordered : Bool} {slot : BitVec 6} {x : Slot} (hx : x = s.slot k.slotCore slot.toNat)
include h block hx

theorem exec_lcp_foreign (foreign : x.foreign w.asid = true) :
    exec (.lcp sa g size out slot ordered) s = .next (s.traps fo l 0x11 0 (faultAux (laneAcc w ln false) 0 15)) := by
  subst hx
  refine congrArg _ (runSeen_part (r := (s, .trap (slotProt w ln false 0 reasonSlotOwner) false)) h.toSolo h.wait ?_)
  simp only [h.focus, block, slotLost_free h.wait, foreign, if_true]

variable (mine : x.foreign w.asid = false) {n sc va : Nat} (hn : n = copyBytes size) (hsc : sc = (readOpd w l ln sa).toNat)
include mine hn hsc

theorem exec_lcp_scratchMisaligned (mis : sc % n ≠ 0) : exec (.lcp sa g size out slot ordered) s = .next (s.traps fo l 0x12 sc 0) := by
  subst hx hn hsc
  refine congrArg _ (runSeen_part (r := (s, .trap (Trap.mk 0x12 (readOpd w l ln sa).toNat 0) false)) h.toSolo h.wait ?_)
  simp only [h.focus, block, slotLost_free h.wait, mine, bne_iff_ne.mpr mis, Bool.false_eq_true, if_false, if_true]

variable (scAligned : sc % n = 0) (hva : va = (readPair w l ln g).toNat)
include scAligned hva

theorem exec_lcp_misaligned (mis : va % n ≠ 0) : exec (.lcp sa g size out slot ordered) s = .next (s.traps fo l 0x12 va 0) := by
  subst hx hn hsc hva
  refine congrArg _ (runSeen_part (r := (s, .trap (Trap.mk 0x12 (readPair w l ln g).toNat 0) false)) h.toSolo h.wait ?_)
  simp only [h.focus, block, slotLost_free h.wait, mine, bne_eq_false_iff_eq.mpr scAligned, bne_iff_ne.mpr mis, Bool.false_eq_true, if_false, if_true]

variable (aligned : va % n = 0)
include aligned

theorem exec_lcp_beyond (beyond : k.scratchBytes < sc + n) : exec (.lcp sa g size out slot ordered) s =
    .next (s.traps fo l 0x11 sc (faultAux (laneAcc w ln (!out)) 0 14)) := by
  subst hx hn hsc hva
  refine congrArg _ (runSeen_part (r := (s, .trap (slotProt w ln (!out) (readOpd w l ln sa).toNat reasonScrRange) false)) h.toSolo h.wait ?_)
  simp only [h.focus, block, slotLost_free h.wait, mine, bne_eq_false_iff_eq.mpr scAligned, bne_eq_false_iff_eq.mpr aligned, beyond,
    Bool.false_eq_true, if_false, if_true]

variable (within : sc + n ≤ k.scratchBytes) {t : Target} (translated : s.translate (laneAcc w ln out) va = .ok t) (hbm : t.kind = .hbm)
  {copy : LaneCopy} (hcopy : copy = LaneCopy.mk fo.wave l k.launch (!out) va t.pa false w.asid (s.ctx w.asid).gen (k.origin + sc) n slot.toNat x.gen ordered
    s.ticket (if out then s.scratchRead k.slotCore (k.origin + sc) n else []))
include within translated hbm hcopy

/-- LCP whose checks are passed does what its direction and its slot let it do. -/
theorem exec_lcp_passed : exec (.lcp sa g size out slot ordered) s = .next
    (applyOut (s.lcpPassed w k.slotCore copy t).1 fo l false (s.lcpPassed w k.slotCore copy t).2).1 := by
  subst hx hn hsc hva hcopy
  refine congrArg _ (runSeen_part h.toSolo h.wait ?_)
  simp only [h.focus, block, slotLost_free h.wait, mine, bne_eq_false_iff_eq.mpr scAligned, bne_eq_false_iff_eq.mpr aligned, Nat.not_lt.mpr within,
    translated, hbm, Bool.false_eq_true, if_false, State.lcpPassed]
  cases s.requestRoom w.coreKey <;> cases out <;> rfl

end

end Sys2Proof.Machine
end

section
/-! The completion of lane copies (R125, R126, R128, R232, R233): O26. -/

namespace Sys2Proof.Machine

/-! What the copies that complete together move (R182, R232, R233). -/

section
variable {s : State} {c : LaneCopy} (here : c.remote = false) (near : s.reach s.agent (s.homeDie (localOf c.pa)) = true)
  (inside : localOf c.pa + 128 ≤ hbmEnd)
include here near inside

/-- Nothing stops a copy at its target in HBM that its die's links reach. -/
theorem copyTrap_none : s.copyTrap c = none := by
  have below : localOf c.pa < hostBase := by unfold hbmEnd at inside; unfold hostBase; omega
  have reached : s.reachable c.target = true := by
    simp only [State.reachable, LaneCopy.target, here, below, State.homeOf, near, Bool.false_eq_true, if_false, if_true, Bool.or_true]
  simp only [State.copyTrap, reached, hostFault_below below, Bool.not_true, Bool.false_eq_true, if_false, Option.map_none]

theorem moveCopies_inbound {core : Nat} {cs : List LaneCopy} {rem : List Byte} (inbound : c.inbound = true) (unread : c.data = [])
    (sound : s.poisoned (localOf c.pa) c.size = false) : s.moveCopies core c cs rem =
      .ok ((s.receive (localOf c.pa)).scratchWrite core c.scratch (zread s.mem (localOf c.pa) c.size)) := by
  simp only [State.moveCopies, State.copyRead, inbound, unread, here, copyTrap_none here near inside, sound, List.isEmpty_nil, Bool.not_true,
    Bool.false_eq_true, if_false, if_true, State.home]

/-- Part of a line is stored as it is. -/
theorem copyWrite_part (engine : s.focus = none) {pa : Nat} {bs : List Byte} (part : bs.length < 128) (sound : s.poisoned (localOf pa) bs.length = false) :
    s.copyWrite c pa bs = .ok (s.storeHome (localOf pa) bs) := by
  have short : bs.length ≠ 128 := by omega
  simp only [State.copyWrite, here, copyTrap_none here near inside, State.writeAt, short, sound, storeRun_engine engine, decide_false,
    Bool.false_and, Bool.false_eq_true, if_false]

/-- A whole line is stored whatever errors it holds, which goes with it (R182). -/
theorem copyWrite_line (engine : s.focus = none) (fullLines : s.run.full = true) {pa : Nat} {bs : List Byte} (whole : bs.length = 128) :
    s.copyWrite c pa bs = .ok ((s.unpoison (lineOf (localOf pa))).storeHome (localOf pa) bs) := by
  have stored : (s.unpoison (lineOf (localOf pa))).storeRun (localOf pa) bs = (s.unpoison (lineOf (localOf pa))).storeHome (localOf pa) bs :=
    storeRun_engine (s := s.unpoison _) engine ..
  simp only [State.copyWrite, here, copyTrap_none here near inside, State.writeAt, whole, fullLines, stored, decide_true, Bool.and_self,
    Bool.false_eq_true, if_false, if_true]

end

section
variable {s : State} {core n : Nat} {c : LaneCopy} {w : Wave} (input : s.input = some (.laneCopyComplete core n))
  (at_ : (s.core core).copies[n]? = some c)
include input at_

theorem exec_laneCopyComplete_held (held : ∃ d ∈ s.mergedCopies core c, s.copyHeld d = true) : exec .laneCopyComplete s = .next s := by
  have waits : (s.mergedCopies core c).any s.copyHeld = true := List.any_eq_true.mpr held
  show execLaneCopyComplete s = _
  simp only [execLaneCopyComplete, input, State.copyStep, at_, waits, if_true, Option.getD_none]

/-- Copies that nothing holds back and that move leave the list and count their bytes. -/
theorem exec_laneCopyComplete_moved (wave : s.wave c.wave = some w) (free : ¬ ∃ d ∈ s.mergedCopies core c, s.copyHeld d = true) {me : Client}
    (hme : me = .copy c.issue (((s.mergedCopies core c).headD c).lane)) (quiet : s.quiet me) {t : State}
    (moved : (s.asEngine me w.die).moveCopies core c (s.mergedCopies core c) (s.fabric.answersOf me).bytes = .ok t) :
    exec .laneCopyComplete s = .next (s.engineDone me (t.endCopies core (s.mergedCopies core c) none)) := by
  have goes : (s.mergedCopies core c).any s.copyHeld = false := Bool.eq_false_iff.mpr (fun held => free (List.any_eq_true.mp held))
  subst hme
  show execLaneCopyComplete s = _
  simp only [execLaneCopyComplete, input, State.copyStep, at_, goes, wave, Bool.false_eq_true, if_false]
  rw [engine_ok quiet]
  · rfl
  · simp only [moved]

end

/-! What the end of a transfer counts (R125, R126). -/

theorem counts_iff {s : State} {core i gen : Nat} {inbound : Bool} : s.counts core i gen inbound = true ↔
    (s.slot core i).gen = gen ∧ (s.slot core i).st = (if inbound then .filling else .draining) := by
  cases inbound <;> simp [State.counts]

section
variable {s : State} {core i gen : Nat} {inbound : Bool}

section
variable (other : s.counts core i gen inbound = false)
include other

theorem countBytes_other (n : Nat) : s.countBytes core i gen inbound n = s := by simp [State.countBytes, other]

theorem failTransfer_other (cause : Nat) : s.failTransfer core i gen inbound cause = s := by simp [State.failTransfer, other]

end

variable (mine : s.counts core i gen inbound = true)
include mine

theorem countBytes_part {n : Nat} (part : (s.slot core i).arrived + n < (s.slot core i).expected) : s.countBytes core i gen inbound n =
    s.setSlot core i { s.slot core i with arrived := (s.slot core i).arrived + n } := by
  simp only [State.countBytes, mine, part, if_true]

theorem countBytes_last {n : Nat} (last : (s.slot core i).arrived + n = (s.slot core i).expected) : s.countBytes core i gen inbound n =
    (s.setSlot core i (if inbound then { s.slot core i with st := .ready, arrived := (s.slot core i).expected }
      else { Slot.reset with gen := (s.slot core i).gen })).releaseSlot core i 0 0 := by
  simp only [State.countBytes, mine, last, Nat.lt_irrefl, if_false, if_true, Slot.empty]

theorem countBytes_beyond {n : Nat} (beyond : (s.slot core i).expected < (s.slot core i).arrived + n) : s.countBytes core i gen inbound n =
    s.poisonSlot core i 0 := by
  simp only [State.countBytes, mine, if_true, if_neg (Nat.not_lt.mpr (Nat.le_of_lt beyond)), if_neg (Nat.ne_of_gt beyond)]

theorem failTransfer_counted (cause : Nat) : s.failTransfer core i gen inbound cause = s.poisonSlot core i cause := by
  simp only [State.failTransfer, mine, if_true]

end

/-- Whoever waits for something of a slot that is poisoned gets TILE_POISON (R127, R227). -/
theorem poisonSlot_eq (s : State) (core i cause : Nat) : s.poisonSlot core i cause =
    (s.setSlot core i { s.slot core i with st := .poisoned, pcause := cause }).release
      (fun q => q = .slotRelease core i ∨ q = .slotReady core i ∨ q = .slotDrain core i) 32 (BitVec.ofNat 32 (i * 256 + cause)) [] := by
  have waiters : (fun q : WaitKind => q.onSlot core i) = fun q => decide (q = .slotRelease core i ∨ q = .slotReady core i ∨ q = .slotDrain core i) := by
    funext q
    rw [Bool.eq_iff_iff]
    simp [WaitKind.onSlot, or_assoc]
  rw [State.poisonSlot, waiters]
  rfl

/-- Settles O26: LCP by the check that fails first, or by what its direction and the slot let it do; the copies that complete by what they
move; the end of a transfer by whether it counts, and then by how its bytes compare with what the slot expects. -/
theorem laneCopies : Obligations.LaneCopies := by
  refine ⟨?issued, ?lost, ?completes, ?counted⟩
  case issued =>
    intro sa g size out ordered slot s fo w l ln k t h block n core x sc va off copy i
    refine ⟨fun used other => exec_lcp_foreign h block rfl (foreign_iff.mpr ⟨used, other⟩),
      fun own mis => exec_lcp_scratchMisaligned h block rfl (foreign_false own) rfl rfl mis,
      fun own sca mis => exec_lcp_misaligned h block rfl (foreign_false own) rfl rfl sca rfl mis,
      fun own sca al beyond => exec_lcp_beyond h block rfl (foreign_false own) rfl rfl sca rfl al beyond,
      fun own sca al within translated hbm => ?translated⟩
    case translated =>
      rw [exec_lcp_passed (ordered := ordered) h block rfl (foreign_false own) rfl rfl sca rfl al within translated hbm rfl]
      refine ⟨fun full => ?noRoom, fun room starts => ?starts, fun room outbound early => ?waits, fun room outbound poisoned => ?poisoned⟩
      case noRoom =>
        rw [lcpPassed_noRoom full]
        rfl
      case starts =>
        rw [lcpPassed_starts room (starts.imp_left (fun inbound => by rw [inbound]; rfl)), applyOut_pass]
        rfl
      case waits =>
        rw [lcpPassed_waits room (by rw [outbound]; rfl) early]
        rfl
      case poisoned =>
        rw [lcpPassed_poisoned room (by rw [outbound]; rfl) poisoned]
        rfl
  case lost =>
    intro sa g size out ordered slot s fo w l ln k wt c i h block waits kind status
    exact exec_lcp_lost h block (slotLost_drain waits kind status)
  case completes =>
    intro s core n c w input at_ wave here cs la me ran held ends
    refine ⟨exec_laneCopyComplete_held input at_, fun free quiet near inside => ⟨fun inbound unread sound => ?inbound,
      fun outbound one part sound => ?part, fun outbound many _ => ?line⟩⟩
    case inbound =>
      exact exec_laneCopyComplete_moved input at_ wave free rfl quiet (moveCopies_inbound here near inside inbound unread sound)
    case part =>
      refine exec_laneCopyComplete_moved input at_ wave free rfl quiet ?_
      rw [State.moveCopies, outbound, if_neg Bool.false_ne_true, if_pos one]
      exact copyWrite_part here near inside rfl part sound
    case line =>
      refine exec_laneCopyComplete_moved input at_ wave free rfl quiet ?_
      rw [State.moveCopies, outbound, if_neg Bool.false_ne_true, if_neg (Nat.not_le.mpr many)]
      exact copyWrite_line here near inside rfl rfl (by rw [List.length_map, List.length_range])
  case counted =>
    intro s core i gen n cause inbound x mine
    refine ⟨fun other => ?other, fun counted part => countBytes_part (counts_iff.mpr counted) part,
      fun counted last => countBytes_last (counts_iff.mpr counted) last, fun counted beyond => countBytes_beyond (counts_iff.mpr counted) beyond,
      fun counted => ?fails⟩
    case other =>
      have uncounted : s.counts core i gen inbound = false := Bool.eq_false_iff.mpr (fun counted => other (counts_iff.mp counted))
      exact ⟨countBytes_other uncounted n, failTransfer_other uncounted cause⟩
    case fails =>
      rw [failTransfer_counted (counts_iff.mpr counted), poisonSlot_eq]

end Sys2Proof.Machine
end

section
/-! The functions of the engines by a group of one lane that waits for nothing (R155, R234, R235, R241, R247). -/

namespace Sys2Proof.Machine

theorem got_free {ln : Lane} (free : ln.wait = none) : ln.got = [] := by simp [Lane.got, free]

theorem resumed_free {s : State} {a : Acc} {ln : Lane} (free : ln.wait = none) : s.resumed a ln = none := by simp [State.resumed, free]

section
variable {s : State} {fo : Focus} {w : Wave} {l : Nat} {ln : Lane} {k : Block} (h : Single s fo w l ln) (block : sget s.blocks w.block = some k)
  {d : Opd} {f : State → Focus → Wave → Nat → Lane → Block → State × Out} {t : State}
include h block

theorem engineInstr_done {ws : List Word} {fl : Flags} (run : f s fo w l ln k = (t, .done (some d) ws fl)) :
    engineInstr s d f = t.completes fo l d ws fl :=
  runInto_done h.toSolo h.wait d d (by simp only [block, run])

theorem engineInstr_trap {e : Trap} (run : f s fo w l ln k = (s, .trap e false)) : engineInstr s d f = takeTrap s fo.wave l e false fo.len :=
  runInto_trap h.toSolo h.wait d (by simp only [block, run]) h.wave h.lane

/-- A lane that begins to wait leaves its part of d outstanding (R247). -/
theorem engineInstr_waits {q : WaitKind} (run : f s fo w l ln k = (t, .wait q)) : engineInstr s d f = s.settled (t.waits fo l q) d 1 := by
  simp only [engineInstr, runInto, h.focus]
  exact congrArg (s.settled · d 1) (runSeen_part (r := (t, .wait q)) h.toSolo h.wait (by simp only [block, run]))

end

section
variable {s : State} {fo : Focus} {w : Wave} {l : Nat} {ln : Lane} (free : ln.wait = none) {va align n : Nat}
  {f : State → List Byte → List Byte → State × Out}
include free

theorem withRecord_misaligned (mis : va % align ≠ 0) : s.withRecord fo w l ln va align n f = (s, .trap (Trap.mk 0x12 va 0) false) := by
  simp only [State.withRecord, resumed_free free, bne_iff_ne.mpr mis, if_true]

theorem withRecord_read (aligned : va % align = 0) {bs rem : List Byte} {t : State}
    (read : s.laneRead w.coreKey (laneAcc w ln false) va n [] = .ok (bs, rem, t)) : s.withRecord fo w l ln va align n f = f t bs rem := by
  simp only [State.withRecord, resumed_free free, got_free free, bne_eq_false_iff_eq.mpr aligned, read, Bool.false_eq_true, if_false]

end

/-- An address a number of bytes further on, which wraps (R135). -/
theorem addrPlus_natCast (a : BitVec 64) (n : Nat) : addrPlus a (n : Int) = (a.toNat + n) % 2 ^ 64 := by
  rw [addrPlus, BitVec.ofInt_natCast, BitVec.toNat_add, BitVec.toNat_ofNat, Nat.add_mod_mod]

end Sys2Proof.Machine
end

section
/-! The submission and the control of stream jobs (R234, R235, R241): O27. -/

namespace Sys2Proof.Machine

/-! A record that SCMD has read (R235, R241). -/

/-- A job accepted at the end of its channel (R235). -/
def State.accepts (s : State) (core : Nat) (bs : List Byte) (asid : Nat) (priv : Bool) : State :=
  ({ s with ticket := s.ticket + 1 } : State).modCore core (fun x => { x with
    jobs := x.jobs ++ [{ SlipJob.new bs asid priv with serial := s.ticket }] })

section
variable {s : State} {fo : Focus} {w : Wave} {l : Nat} {ln : Lane} {k : Block} {d : Opd} {bs rem : List Byte}

theorem scmdRecord_full (full : 16 ≤ (s.core k.slotCore).jobs.length) : s.scmdRecord fo w l ln k d bs rem = (s, statusOut d 1) := if_pos full

variable (room : (s.core k.slotCore).jobs.length < 16)
include room

theorem scmdRecord_unformed (bad : (StreamCmd.ofBytes bs).formed = false) : s.scmdRecord fo w l ln k d bs rem = (s, statusOut d 2) := by
  simp only [State.scmdRecord, if_neg (Nat.not_le.mpr room), bad, Bool.not_false, if_true]

variable (formed : (StreamCmd.ofBytes bs).formed = true)
include formed

theorem scmdRecord_refused {good : Bool} (sides : s.sidesOk w.asid (StreamCmd.ofBytes bs) rem = .ok good)
    (bad : (good && s.signalOk w.asid (StreamCmd.ofBytes bs).signal) = false) : s.scmdRecord fo w l ln k d bs rem = (s, statusOut d 2) := by
  simp only [State.scmdRecord, if_neg (Nat.not_le.mpr room), formed, sides, bad, Bool.not_true, Bool.false_eq_true, if_false]

theorem scmdRecord_accepted (sides : s.sidesOk w.asid (StreamCmd.ofBytes bs) rem = .ok true)
    (signal : s.signalOk w.asid (StreamCmd.ofBytes bs).signal = true) :
    s.scmdRecord fo w l ln k d bs rem = (s.accepts k.slotCore bs w.asid ln.isPriv, statusOut d 0) := by
  simp only [State.scmdRecord, if_neg (Nat.not_le.mpr room), formed, sides, signal, Bool.not_true, Bool.and_self, Bool.false_eq_true, if_false, if_true]
  rfl

end

/-! The head of a channel and the job that SCANCEL finds (R241). -/

theorem modJob_head {s : State} {core : Nat} {j : SlipJob} {r : List SlipJob} (jobs : (s.core core).jobs = j :: r) (f : SlipJob → SlipJob) :
    s.modJob core 0 f = s.modCore core (fun c => { c with jobs := f j :: r }) := by
  simp only [State.modJob, State.modCore, jobs, List.modify_zero_cons]

theorem cancellable_iff {j : SlipJob} : j.cancellable = true ↔ (j.phase = .queued ∨ j.phase = .running ∨ j.phase = .faulted) ∧ j.stopping = false := by
  simp [SlipJob.cancellable, or_assoc]

/-- SCANCEL of a head that is within an iteration: it stops at its boundary. -/
theorem cancelJob_within {s : State} {core n : Nat} {j : SlipJob} (running : j.phase = .running) (busy : s.slipBusy core = true) :
    s.cancelJob core n j = s.modJob core n (fun x => { x with stopping := true }) := by
  simp [State.cancelJob, running, busy]

/-- SCANCEL of a head that is between iterations: it ends at once. -/
theorem cancelJob_head {s : State} {core : Nat} {j : SlipJob} (free : j.phase ≠ .running ∨ s.slipBusy core = false) :
    s.cancelJob core 0 j = (s.dropClient (.slip core)).endCancelled core 0 j := by
  obtain idle | idle := free <;> simp [State.cancelJob, idle]

section
variable {s : State} {fo : Focus} {w : Wave} {l : Nat} {ln : Lane} {k : Block} (h : Single s fo w l ln) (block : sget s.blocks w.block = some k)
  {d a b : Opd}
include h block

/-! SCMD (R155, R235). -/

theorem exec_scmd_misaligned (mis : (readPair w l ln a).toNat % 128 ≠ 0) :
    exec (.scmd d a) s = .next (s.traps fo l 0x12 (readPair w l ln a).toNat 0) :=
  congrArg _ (engineInstr_trap h block (withRecord_misaligned h.wait mis))

section
variable {bs rem : List Byte} {s1 : State} (aligned : (readPair w l ln a).toNat % 128 = 0)
  (read : s.laneRead w.coreKey (laneAcc w ln false) (readPair w l ln a).toNat 128 [] = .ok (bs, rem, s1))
include aligned read

/-- SCMD is a release for its Slip: it waits for the lane's copies (R155). -/
theorem exec_scmd_copying (copying : s1.copying fo.wave l = true) : exec (.scmd d a) s = .next (s.settled (s1.waits fo l .copies) d 1) :=
  congrArg _ (engineInstr_waits h block ((withRecord_read h.wait aligned read).trans (if_pos copying)))

theorem exec_scmd_acts (copied : s1.copying fo.wave l = false) {t : State} {v : Nat}
    (acts : s1.scmdRecord fo w l ln k d bs rem = (t, statusOut d v)) : exec (.scmd d a) s = .next (t.completes fo l d [BitVec.ofNat 32 v] 0) :=
  congrArg _ (engineInstr_done h block ((withRecord_read h.wait aligned read).trans ((if_neg (Bool.eq_false_iff.mp copied)).trans acts)))

end

/-! SRESUME (R241). -/

theorem exec_sresume_empty (empty : (s.core k.slotCore).jobs = []) : exec (.sresume d a) s = .next (s.completes fo l d [3] 0) :=
  congrArg _ (engineInstr_done h block (by simp only [empty]; rfl))

section
variable {j : SlipJob} {r : List SlipJob} (jobs : (s.core k.slotCore).jobs = j :: r)
include jobs

theorem exec_sresume_restarts (faulted : j.phase = .faulted) (id : j.cmd.jobId = (readOpd w l ln a).toNat) : exec (.sresume d a) s =
    .next ((s.modCore k.slotCore (fun x => { x with jobs := { j with
      phase := if j.bases.isSome then .running else .queued, status := 0, faultCode := 0, faultVa := 0, faultReason := 0 } :: r })).completes
      fo l d [0] 0) := by
  refine congrArg _ (engineInstr_done h block ?_)
  simp only [jobs, faulted, id, beq_self_eq_true, Bool.and_self, if_true, modJob_head jobs]
  rfl

theorem exec_sresume_refused (other : j.phase ≠ .faulted ∨ j.cmd.jobId ≠ (readOpd w l ln a).toNat) :
    exec (.sresume d a) s = .next (s.completes fo l d [3] 0) := by
  refine congrArg _ (engineInstr_done h block ?_)
  have no : (j.phase == .faulted && j.cmd.jobId == (readOpd w l ln a).toNat) = false := by
    obtain phase | id := other
    · simp [phase]
    · simp [id]
  simp only [jobs, no, Bool.false_eq_true, if_false]
  rfl

end

/-! SCANCEL (R126, R241). -/

theorem exec_scancel_none (none_ : ∀ j ∈ (s.core k.slotCore).jobs, j.cmd.jobId ≠ (readOpd w l ln a).toNat) :
    exec (.scancel d a) s = .next (s.completes fo l d [3] 0) := by
  have notFound : (s.core k.slotCore).jobs.findIdx? (fun j => j.cancellable && j.cmd.jobId == (readOpd w l ln a).toNat) = none := by
    rw [List.findIdx?_eq_none_iff]
    exact fun j mem => by simp [none_ j mem]
  refine congrArg _ (engineInstr_done h block ?_)
  simp only [notFound]
  rfl

theorem exec_scancel_head {j : SlipJob} {r : List SlipJob} (jobs : (s.core k.slotCore).jobs = j :: r) (id : j.cmd.jobId = (readOpd w l ln a).toNat)
    (acts : j.cancellable = true) : exec (.scancel d a) s = .next ((s.cancelJob k.slotCore 0 j).completes fo l d [0] 0) := by
  have found : (s.core k.slotCore).jobs.findIdx? (fun j => j.cancellable && j.cmd.jobId == (readOpd w l ln a).toNat) = some 0 := by
    rw [jobs, List.findIdx?_cons, acts, id, beq_self_eq_true, Bool.and_self, if_pos rfl]
  refine congrArg _ (engineInstr_done h block ?_)
  simp only [found]
  simp only [jobs, List.getElem?_cons_zero]
  rfl

/-! SPOLL (R241). -/

section
variable {idx : Nat} (hidx : idx = (readOpd w l ln b).toNat) {p : Nat} (hp : p = addrPlus (readPair w l ln a) ((64 + 64 * idx : Nat) : Int))
  (aligned : p % 4 = 0) {bs rem : List Byte} {s1 : State} (read : s.engRead (laneAcc w ln false) p 4 [] = .ok (bs, rem, s1))
include hidx hp aligned read

theorem exec_spoll_pending (pending : leNat bs ≠ (idx + 1) % 2 ^ 32) :
    exec (.spoll d a b) s = .next ((s1.dropL1 w.coreKey).completes fo l d [0xFFFFFFFF] 0) := by
  subst hidx hp
  refine congrArg _ (engineInstr_done h block ?_)
  simp only [resumed_free h.wait, got_free h.wait, bne_eq_false_iff_eq.mpr aligned, read, bne_iff_ne.mpr pending, Bool.false_eq_true, if_false, if_true]
  rfl

theorem exec_spoll_complete (seq : leNat bs = (idx + 1) % 2 ^ 32) {st rem' : List Byte} {s2 : State}
    (status : s1.engRead (laneAcc w ln false) (p + 8) 1 rem = .ok (st, rem', s2)) :
    exec (.spoll d a b) s = .next ((s2.dropL1 w.coreKey).completes fo l d [BitVec.ofNat 32 (leNat st)] 0) := by
  subst hidx hp
  refine congrArg _ (engineInstr_done h block ?_)
  simp only [resumed_free h.wait, got_free h.wait, bne_eq_false_iff_eq.mpr aligned, read, bne_eq_false_iff_eq.mpr seq, status, Bool.false_eq_true, if_false]
  rfl

end

end

/-- Settles O27: SCMD by what its record meets; SRESUME and SCANCEL by the head of the channel; SPOLL by whether SEQ has come. -/
theorem streamJobs : Obligations.StreamJobs := by
  intro d a b s fo w l ln k h block core va id
  refine ⟨exec_scmd_misaligned h block, fun bs rem s1 aligned read => ?submitted, fun j r jobs => ?head, exec_sresume_empty h block,
    exec_scancel_none h block, fun idx bs rem s1 hidx => ?polled⟩
  case submitted =>
    exact ⟨exec_scmd_copying h block aligned read, fun copied => ⟨fun full => exec_scmd_acts h block aligned read copied (scmdRecord_full full),
      fun room bad => exec_scmd_acts h block aligned read copied (scmdRecord_unformed room bad),
      fun good room formed sides bad => exec_scmd_acts h block aligned read copied (scmdRecord_refused room formed sides bad),
      fun room formed sides signal => exec_scmd_acts h block aligned read copied (scmdRecord_accepted room formed sides signal)⟩⟩
  case head =>
    refine ⟨exec_sresume_restarts h block jobs, exec_sresume_refused h block jobs, fun same phase going => ?cancelled⟩
    have acts : exec (.scancel d a) s = .next ((s.cancelJob core 0 j).completes fo l d [0] 0) :=
      exec_scancel_head h block jobs same (cancellable_iff.mpr ⟨phase, going⟩)
    refine ⟨fun running busy => ?within, fun free => ?now⟩
    case within => rw [acts, cancelJob_within running busy, modJob_head jobs]
    case now => rw [acts, cancelJob_head free, State.endCancelled, modJob_head (s := s.dropClient (.slip core)) jobs]
  case polled =>
    intro p aligned read
    have place : p = addrPlus (readPair w l ln a) ((64 + 64 * idx : Nat) : Int) := by rw [addrPlus_natCast, ← Nat.add_assoc]; rfl
    exact ⟨exec_spoll_pending h block hidx place aligned read, fun st rem' s2 seq status => exec_spoll_complete h block hidx place aligned read seq status⟩

end Sys2Proof.Machine
end

section
/-! SHALO of a lane that has waited, and the registers that it reads (R242, R247, R257): O28. -/

namespace Sys2Proof.Machine

/-- A halo record of one row of 8 bytes whose source pitch, 1, is no multiple of 8. -/
def oddHalo : List Byte := natLe 32 (2 ^ 16 + 8 * 2 ^ 64 + 2 ^ 96)

/-- A lane that waits in SHALO with that record, issued when g2 and g3 gave the address 0x40. -/
def haloLane : Lane :=
  { Lane.start 0x20000 65536 false with
    wait := some { kind := .slotReady 0 0, ticket := 0, status := none, value := 0, bytes := oddHalo }
    issued := some { unit := { pfx := none, instr := .shalo .z (.g 2), word := 0, len := 4 }, g := [(2, 0x40), (3, 0)], ctl := [] } }

/-- Its wave, whose g2 has been written since: the pair now gives the address 0x20. -/
def haloWave : Wave := { codeWave with lanes := [(0, haloLane)], g := [(2, 0x20), (3, 0)] }

def haloFocus : Focus := Focus.mk 0 [0] 0x20000 4 0 none

/-- The lane's group takes its SHALO up again; a handler, a REGION word, stands at TRAPVEC. -/
def haloResumed : State :=
  { State.reset.loadCode (natLe 4 0x1F) with waves := [(0, haloWave)], focus := some haloFocus, ctxs := [(0, Ctx.mk 0x20000 0)] }

/-- TRAPVA of lane 0 of wave 0 after a step, its low word. -/
def trapVaAfter (o : Host.Outcome State Fault Refusal) : Option Word :=
  match o with
  | .next t => (t.lane 0 0).map Lane.vaLo
  | .fault _ => none
  | .refused _ => none

/-- ALIGN names the address that the lane's pair gave when SHALO was issued. -/
theorem haloResumed_traps : trapVaAfter (exec (.shalo .z (.g 2)) haloResumed) = some 0x40 := by decide +kernel

/-- Refutes O28: its clause of a lane that has waited in SHALO gives ALIGN the address that a now has. Where a is a g pair that another group has
written meanwhile, the lane still reads it as it was at issue (R247, R257). In haloResumed the two addresses differ, 0x40 at issue and 0x20 now,
and the trap has the first. A record that is misaligned traps before SHALO waits, so no run comes to a lane that waits with one, but the clause
does not exclude it. -/
theorem not_halosAndTensorEntries : ¬ Obligations.HalosAndTensorEntries := by
  intro h
  obtain ⟨halo, -, -, -⟩ := h
  obtain ⟨-, resumed, -⟩ := halo .z (.g 2) haloResumed haloFocus haloWave 0 haloLane codeBlock ⟨rfl, rfl, rfl, rfl⟩ rfl
  obtain ⟨-, acts⟩ := resumed _ 0 0 rfl rfl
  obtain ⟨-, enabled⟩ := acts (by decide)
  obtain ⟨misaligned, -⟩ := enabled 0 (by decide +kernel)
  have traps := congrArg trapVaAfter (misaligned (by decide +kernel))
  rw [haloResumed_traps] at traps
  exact absurd traps (by decide +kernel)

end Sys2Proof.Machine
end

section
/-! A Slip job that takes its place on the ring while a die link retrains (R171, R238): O29. -/

namespace Sys2Proof.Machine

/-- A job that has ended, its completion ring at 0x20000. -/
def endedJob : SlipJob :=
  { record := natLe 128 (0x800 * 2 ^ 224), asid := 0, priv := false, phase := .ending, status := 0, bases := none, iter := 0, bytes := 0, cur := none,
    faultCode := 0, faultVa := 0, faultReason := 0, out := [] }

/-- The Slip of core 0 of die 4 is to complete that job while the link from die 4 to die 5 retrains. The ring's page is homed on die 4, the
context table on die 5. -/
def ringBehindLink : State :=
  { State.reset.loadCode [] with
    cores := [(256, { CoreState.reset with jobs := [endedJob] })], input := some (.slipJobComplete 256)
    links := State.reset.links.set 10 { LinkRegs.reset with busy := true } }

/-- The ring's page, as Pavilion translates it. -/
def widxTarget : Target := Target.mk .hbm 0x106000 (some (Page.mk .hbm 0x20000 4096 0x106000 1 true true true))

/-- WIDX of the ring after a step. -/
def widxAfter (o : Host.Outcome State Fault Refusal) : Option Nat :=
  match o with
  | .next t => some (leNat (zread t.mem 0x106000 8))
  | .fault _ => none
  | .refused _ => none

theorem eq_ok_of_toOption {ε α : Type} {x : Except ε α} {a : α} (h : x.toOption = some a) : x = .ok a := by
  cases x with
  | ok b => exact congrArg _ (Option.some.inj h)
  | error e => cases h

theorem ringBehindLink_translates : ringBehindLink.translate (Acc.mk 0 false true false true) endedJob.cmd.ringVa = .ok widxTarget :=
  eq_ok_of_toOption (by decide +kernel)

/-- The Slip's own translation waits for the link, and nothing is added. -/
theorem ringBehindLink_waits : widxAfter (exec .slipJobComplete ringBehindLink) = some 0 := by decide +kernel

/-- Refutes O29: its clause of the add to WIDX asks that the ring's address translates for the agent that the state has, which between
instructions is Pavilion, and not for the Slip, whose accesses leave from its own die. In ringBehindLink the link from that die to the context
table's retrains (R171): Pavilion translates the address by its own links, the Slip waits, and the add that the clause gives has not happened. -/
theorem not_slipJobsRun : ¬ Obligations.SlipJobsRun := by
  intro h
  have quiet : ∀ c, ringBehindLink.quiet c := fun c e mem => nomatch mem
  obtain ⟨-, -, -, -, -, -, takesPlace, -, -⟩ := h ringBehindLink 256 endedJob [] rfl (quiet _) (quiet _) rfl
  obtain ⟨v, ran, added, -, -⟩ := takesPlace widxTarget 0x106000 rfl rfl rfl ringBehindLink_translates rfl (by decide) (by decide) (by decide +kernel)
    (by decide +kernel) (by decide)
  have waits := ringBehindLink_waits
  rw [ran, widxAfter, added] at waits
  exact absurd waits (by decide +kernel)

end Sys2Proof.Machine
end

section
/-! The kinds of MOVX and LDL (R147, R245, R255, R258): O9. -/

namespace Sys2Proof.Machine

/-- Without a prefix a result-writing instruction masks no lane off and clears no g register (R44, R261). -/
theorem resultInstr_bare {s : State} {fo : Focus} (focus : s.focus = some fo) (bare : fo.pfx = none) (d : Opd)
    (f : Option PfxFields → Wave → Nat → Lane → Except Trap (Word × Flags)) : resultInstr s d f = runPure s (resultOut d none f) := by
  have clears : clearMaskedG s d = s := by
    cases d with
    | g r => cases wave : s.wave fo.wave <;> simp [clearMaskedG, focus, wave, bare, zeroing]
    | _ => simp [clearMaskedG, focus]
  simp only [resultInstr, focus, clears, bare]

/-- A part over registers that completes with a word for its destination in every lane of a group without a prefix. -/
theorem runPure_writes {s : State} {fo : Focus} {w : Wave} (group : GroupRuns s fo w) (bare : fo.pfx = none) {d : Opd}
    {part : Wave → Nat → Lane → Out} {f : Option PfxFields → Wave → Nat → Lane → Except Trap (Word × Flags)}
    (form : ∀ w l ln, part w l ln = resultOut d none f w l ln) {v : Nat → Lane → Word}
    (value : ∀ l ∈ fo.lanes, ∀ ln, w.lane l = some ln → f none w l ln = .ok (v l ln, 0)) :
    GroupEnds s (runPure s part) fo w (resultEnd fo w d v (fun _ _ => 0)) (gWritten fo w d v) := by
  have same : runPure s part = resultInstr s d f := by
    rw [resultInstr_bare group.focus bare, funext (fun w => funext (fun l => funext (form w l)))]
  rw [same]
  exact resultInstr_ends group d f v _ (fun l mem ln lane _ => by rw [bare]; exact value l mem ln lane)

theorem operandTrap_eq {s : State} {fo : Focus} (focus : s.focus = some fo) : operandTrap s = Trap.mk 0x02 0 fo.word := by
  simp [operandTrap, State.word, focus]

theorem privTrap_eq {s : State} {fo : Focus} (focus : s.focus = some fo) : privTrap s = Trap.mk 0x06 0 fo.word := by
  simp [privTrap, State.word, focus]

/-- A control register that the lane may name (R36, R255). -/
theorem ctlPriv_allowed {n : BitVec 9} {ln : Lane} (allowed : n.toNat < 256 ∨ ln.isPriv = true) : (ctlPriv n && !ln.isPriv) = false := by
  obtain low | priv := allowed
  · rw [ctlPriv, decide_eq_false (Nat.not_le.mpr low), Bool.false_and]
  · rw [priv, Bool.not_true, Bool.and_false]

/-- One that it may not. -/
theorem ctlPriv_refused {n : BitVec 9} {ln : Lane} (high : 256 ≤ n.toNat) (user : ln.isPriv = false) : (ctlPriv n && !ln.isPriv) = true := by
  rw [ctlPriv, decide_eq_true high, user, Bool.not_false, Bool.and_true]

section
variable (v : Opd) (n : BitVec 9)

theorem movm_writes : WritesAlone (.movm v n) v (fun _ _ w _ _ => n.toNat < w.regs) (fun _ _ _ _ ln => ln.mreg n.toNat) := by
  intro s fo w group bare inside
  refine ⟨_, rfl, runPure_writes group bare (f := fun _ w _ ln =>
    if w.regs ≤ n.toNat then .error (operandTrap s) else .ok (ln.mreg n.toNat, 0)) (fun w l ln => ?form) (fun l mem ln lane => ?value)⟩
  case form => by_cases beyond : w.regs ≤ n.toNat <;> simp [resultOut, maskedOff, beyond]
  case value => exact if_neg (Nat.not_le.mpr (inside l mem ln lane))

theorem movg_writes : WritesAlone (.movg v n) v (fun _ _ _ _ _ => True) (fun _ _ w _ _ => w.greg n.toNat) :=
  fun _ _ _ group bare _ => ⟨_, rfl, runPure_writes group bare (f := fun _ w _ _ => .ok (w.greg n.toNat, 0)) (fun _ _ _ => rfl) (fun _ _ _ _ => rfl)⟩

theorem movc_writes : WritesAlone (.movc v n) v (fun _ _ _ _ ln => n.toNat < 256 ∨ ln.isPriv = true) (fun s _ w _ ln => readCtl s w ln n.toNat) := by
  intro s fo w group bare allowed
  refine ⟨_, rfl, runPure_writes group bare (f := fun _ w _ ln =>
    if ctlPriv n && !ln.isPriv then .error (privTrap s) else .ok (readCtl s w ln n.toNat, 0)) (fun w l ln => ?form) (fun l mem ln lane => ?value)⟩
  case form => cases refused : ctlPriv n && !ln.isPriv <;> simp [resultOut, maskedOff, refused]
  case value => exact if_neg (by rw [ctlPriv_allowed (allowed l mem ln lane)]; exact Bool.false_ne_true)

end

section
variable {s : State} {fo : Focus} {w : Wave} {l : Nat} {ln : Lane} (h : Solo s fo w l ln) {v : Opd} {n : BitVec 9}
include h

theorem exec_movm_beyond (beyond : w.regs ≤ n.toNat) : exec (.movm v n) s = .next (s.traps fo l 0x02 0 fo.word) := by
  refine congrArg _ ((runPure_solo h _).trans ?_)
  rw [if_pos beyond, applyOut_trap, operandTrap_eq h.focus]
  rfl

theorem exec_movc_refused (high : 256 ≤ n.toNat) (user : ln.isPriv = false) : exec (.movc v n) s = .next (s.traps fo l 0x06 0 fo.word) := by
  refine congrArg _ ((runPure_solo h _).trans ?_)
  rw [if_pos (ctlPriv_refused high user), applyOut_trap, privTrap_eq h.focus]
  rfl

end

/-! What MOVC reads (R255, R420). -/

/-- The low word of an address. -/
theorem toNat_addrLow (a : VA) : (a.extractLsb' 0 32).toNat = a.toNat % 2 ^ 32 := by simp

/-- Bits 56 to 32 of an address, in a word. -/
theorem toNat_addrHigh (a : VA) : (BitVec.zeroExtend 32 (a.extractLsb' 32 25)).toNat = a.toNat / 2 ^ 32 % 2 ^ 25 := by
  rw [BitVec.toNat_setWidth, BitVec.extractLsb'_toNat, Nat.shiftRight_eq_div_pow]
  omega

theorem here_eq {s : State} {fo : Focus} (focus : s.focus = some fo) : s.here = fo.pc := by simp [State.here, focus]

/-- Of the wave's own control registers MOVC reads what is stored (R255, R256). -/
theorem readCtl_wave (s : State) (w : Wave) (ln : Lane) {i : Nat} (from8 : 8 ≤ i) (to21 : i ≤ 21) : readCtl s w ln i = sgetD w.ctl i 0 := by
  unfold readCtl
  split
  case h_26 => rfl
  all_goals omega

/-! LDL (R147). -/

/-- Bytes fetched through an instruction cache change of the package the caches and the directory alone (R112, R366). -/
theorem fetchBytes_rest (s : State) (core la n : Nat) :
    ∃ cs d x c, (s.fetchBytes core la n).2 = { s with cores := cs, dir := d, sent := x, corrected := c } := by
  have filled (now : List Byte) : ∃ cs d x c,
      (s.receiveBy (core / 64) (lineOf la)).modCore core (fun c => { c with icache := sput c.icache (lineOf la) now }) =
        { s with cores := cs, dir := d, sent := x, corrected := c } := by
    rw [receiveBy_rest]
    exact ⟨_, _, _, _, rfl⟩
  have kept : ∃ cs d x c, s = { s with cores := cs, dir := d, sent := x, corrected := c } := ⟨s.cores, s.dir, s.sent, s.corrected, rfl⟩
  unfold State.fetchBytes
  dsimp only
  split
  · split
    · exact kept
    · split
      · exact kept
      · exact filled _
  · exact filled _

section
variable {s s1 : State} {core : Nat} {a : Acc} {va n : Nat} {t : Target} {bs : List Byte} (fetched : s.fetchFrom core a va n t = .ok (bs, s1))
include fetched

/-- A fetch that is answered has cached its translation, on the package as it was or as its bytes have left it. -/
theorem fetchFrom_noted : ∃ u, s1 = u.noteAt (core / 64) a.asid t ∧ (u = s ∨ u = (s.fetchBytes core (localOf t.pa) n).2) := by
  unfold State.fetchFrom at fetched
  dsimp only at fetched
  cases kind : t.kind <;> simp only [kind] at fetched
  case remote =>
    split at fetched
    · exact ⟨s, (congrArg Prod.snd (Except.ok.inj fetched)).symm, .inl rfl⟩
    · split at fetched <;> cases fetched
  case mmio | info => cases fetched
  case hbm | host =>
    split at fetched
    · cases fetched
    · split at fetched
      · cases fetched
      · split at fetched
        · cases fetched
        · exact ⟨_, (congrArg Prod.snd (Except.ok.inj fetched)).symm, .inr rfl⟩

/-- So it changes of the package the caches and the directory alone. -/
theorem fetchFrom_rest : ∃ cs tl tb d x c, s1 = { s with cores := cs, tlb := tl, tables := tb, dir := d, sent := x, corrected := c } := by
  obtain ⟨u, rfl, same | filled⟩ := fetchFrom_noted fetched
  · rw [same]
    exact ⟨s.cores, noteAt_rest ..⟩
  · obtain ⟨cs, d, x, c, read⟩ := fetchBytes_rest s core (localOf t.pa) n
    obtain ⟨tl, tb, d', x', c', noted⟩ := noteAt_rest u (core / 64) a.asid t
    exact ⟨cs, tl, tb, d', x', c', by rw [noted, filled, read]⟩

end

section
variable {s s1 : State} {w : Wave} {priv : Bool} {va : Nat} {t : Target} (translated : s.translate (fetchAcc w.asid priv) va = .ok t)
include translated

theorem literal_fetched (memory : t.kind ≠ .mmio) {bs : List Byte} (fetched : s.fetchFrom w.coreKey (fetchAcc w.asid priv) va 4 t = .ok (bs, s1)) :
    s.literal w priv va = .ok (wordAt bs 0, s1) := by
  simp only [State.literal, translated, beq_eq_false_iff_ne.mpr memory, fetched, Bool.false_eq_true, if_false]

theorem literal_register (register : t.kind = .mmio) (near : s.reachable t = true) :
    s.literal w priv va = .ok (s.mmioWord (localOf t.pa - mmioBase), s.noteTlb w.asid t) := by
  simp only [State.literal, translated, register, beq_self_eq_true, near, if_true]

end

section
variable {s s1 : State} {fo : Focus} {w : Wave} {l : Nat} {ln : Lane} (h : Single s fo w l ln) {d : Opd} {imm : BitVec 19}
include h

theorem exec_ldl_read {v : Word} (read : s.literal w ln.isPriv ((fo.pc &&& ~~~3#64) + 4 * imm.zeroExtend 64).toNat = .ok (v, s1)) :
    exec (.ldl d imm) s = .next (s1.completes fo l d [v] 0) := by
  refine congrArg _ (runInto_done h.toSolo h.wait d d ?_)
  simp only [here_eq h.focus, show (0xFFFFFFFFFFFFFFFC : VA) = ~~~3#64 from rfl, read]

theorem exec_ldl_faults {t : Trap} (faults : s.literal w ln.isPriv ((fo.pc &&& ~~~3#64) + 4 * imm.zeroExtend 64).toNat = .error t)
    (alone : t.need = none) (cause : t.cause ≠ 0) : exec (.ldl d imm) s = .next (takeTrap s fo.wave l t false fo.len) := by
  refine congrArg _ (runInto_trap h.toSolo h.wait d ?_ h.wave h.lane)
  simp only [here_eq h.focus, show (0xFFFFFFFFFFFFFFFC : VA) = ~~~3#64 from rfl, faults, State.fetchOut, alone, cause, if_false]

end

/-- Settles O9: the kinds of MOVX by what their lanes read, the control registers one by one, LDL by what its literal gives. -/
theorem registerReads : Obligations.RegisterReads := by
  refine ⟨fun v n => ?kinds, fun s fo w ln focus => ?control, fun d imm s fo w l ln h => ?literals⟩
  case kinds =>
    exact ⟨movm_writes v n, movg_writes v n, movc_writes v n, fun s fo w l ln h => exec_movm_beyond h, fun s fo w l ln h => exec_movc_refused h⟩
  case control =>
    have pcLow : (readCtl s w ln 2).toNat = fo.pc.toNat % 2 ^ 32 := by rw [← here_eq focus]; exact toNat_addrLow _
    have pcHigh : (readCtl s w ln 27).toNat = fo.pc.toNat / 2 ^ 32 % 2 ^ 25 := by rw [← here_eq focus]; exact toNat_addrHigh _
    have asid : (readCtl s w ln 24).toNat = w.asid % 65536 := Nat.mod_eq_of_lt (by omega)
    have prio : (readCtl s w ln 26).toNat = w.prio % 8 := Nat.mod_eq_of_lt (by omega)
    exact ⟨rfl, pcLow, pcHigh, toNat_addrLow _, toNat_addrHigh _, fun _ => rfl, rfl, rfl, asid, rfl, prio, rfl, rfl, rfl, fun i => readCtl_wave s w ln⟩
  case literals =>
    refine ⟨fun t bs s1 translated memory fetched => ?code, fun t translated register near => ?register, fun t => exec_ldl_faults h⟩
    case code =>
      have read := exec_ldl_read h (d := d) (literal_fetched translated memory fetched)
      obtain ⟨_, _, _, _, _, _, rfl⟩ := fetchFrom_rest fetched
      exact ⟨read, rfl, rfl⟩
    case register => exact exec_ldl_read h (literal_register translated register near)

end Sys2Proof.Machine
end

section
/-! The kinds of MOVX that write (R245, R247, R254, R255, R258): O10. -/

namespace Sys2Proof.Machine

/-! MOVMW (R245, R254, R258). -/

section
variable {s : State} {fo : Focus} {w : Wave} {l : Nat} {ln : Lane} (h : Solo s fo w l ln) {v : Opd} {n : BitVec 9}
include h

theorem exec_movmw_beyond (beyond : w.regs ≤ n.toNat) : exec (.movmw v n) s = .next (s.traps fo l 0x02 0 fo.word) := by
  refine congrArg _ ((runLanes_solo h _).trans ?_)
  simp only [h.focus, beyond, if_true, applyOut_trap, operandTrap_eq h.focus]
  rfl

section
variable (inside : n.toNat < w.regs)
include inside

theorem exec_movmw_empty (empty : ln.bank.curDesc = none) :
    exec (.movmw v n) s = .next ((s.modLane fo.wave l (fun x => { x with m := sput x.m n.toNat (readOpd w l ln v) })).passes fo l) := by
  refine congrArg _ ((runLanes_solo h _).trans ?_)
  simp only [h.focus, Nat.not_le.mpr inside, if_false, empty, Desc.empty, List.any_nil, Bool.false_eq_true, applyOut_pass]

variable {va : VA} {cd : Desc} {s1 : State} (current : ln.bank.curDesc = some va) (read : readDesc s w ln.isPriv va.toNat = .ok (cd, s1))
include current read

theorem exec_movmw_free (free : ∀ e ∈ cd.loads, e.1 ≠ n.toNat) :
    exec (.movmw v n) s = .next ((s1.modLane fo.wave l (fun x => { x with m := sput x.m n.toNat (readOpd w l ln v) })).passes fo l) := by
  have none_ : cd.loads.any (fun e => e.1 == n.toNat) = false := by simpa using free
  refine congrArg _ ((runLanes_solo h _).trans ?_)
  simp only [h.focus, Nat.not_le.mpr inside, if_false, current, read, none_, Bool.false_eq_true, applyOut_pass]

theorem exec_movmw_loaded (loaded : ∃ e ∈ cd.loads, e.1 = n.toNat) : exec (.movmw v n) s = .next (s1.traps fo l 0x05 0 4) := by
  have some_ : cd.loads.any (fun e => e.1 == n.toNat) = true := by simpa using loaded
  refine congrArg _ ((runLanes_solo h _).trans ?_)
  simp only [h.focus, Nat.not_le.mpr inside, if_false, current, read, some_, if_true, applyOut_trap]
  rfl

end

end

/-! MOVGW (R247, R258). -/

/-- The write of a group's lowest lane, where each of its lanes would write one g register. -/
theorem gTo_lowest {fo : Focus} {w : Wave} (live : ∀ l ∈ fo.lanes, (w.lane l).isSome = true) (q : Nat) (v : Nat → Lane → Word) (r : Nat) :
    gTo (fo.lanes.findSome? (fun l => (w.lane l).map (fun ln => (q, v l ln)))) r =
      if r = q then (fo.lanes.head?.bind w.lane).map (fun ln => v (fo.lanes.headD 0) ln) else none := by
  cases lanes : fo.lanes with
  | nil => simp [gTo]
  | cons l rest =>
    obtain ⟨ln, lane⟩ := Option.isSome_iff_exists.mp (live l (by simp [lanes]))
    simp [lane, gTo]

theorem movgw_ends (v : Opd) (n : BitVec 9) {s : State} {fo : Focus} {w : Wave} (group : GroupRuns s fo w) :
    ∃ t, exec (.movgw v n) s = .next t ∧ GroupEnds s t fo w (fun _ ln => ln.advance fo.next) (fun r =>
      if r = n.toNat then (fo.lanes.head?.bind w.lane).map (fun ln => readOpd w (fo.lanes.headD 0) ln v) else none) := by
  refine ⟨_, rfl, ?_⟩
  rw [← funext (gTo_lowest group.live n.toNat (fun l ln => readOpd w l ln v))]
  refine runLanes_ends group _ _ _ (fun l _ ln lane => ⟨_, fun _ => rfl, ?_⟩)
  rw [lane]
  exact .shared _ _

/-! MOVTC (R255, R420, R421): by the kind of register. -/

section
variable {s : State} {fo : Focus} {w : Wave} {l : Nat} {ln : Lane} (h : Solo s fo w l ln) {v : Opd} {n : BitVec 9}
include h

theorem exec_movtc_refused (high : 256 ≤ n.toNat) (user : ln.isPriv = false) : exec (.movtc v n) s = .next (s.traps fo l 0x06 0 fo.word) := by
  refine congrArg _ ((runLanes_solo h _).trans ?_)
  simp only [h.focus, ctlPriv_refused high user, if_true, applyOut_trap, privTrap_eq h.focus]
  rfl

section
variable (allowed : n.toNat < 256 ∨ ln.isPriv = true)
include allowed

/-- A register of the lane, or one that is read only. -/
theorem exec_movtc_lane (own : ¬ (8 ≤ n.toNat ∧ n.toNat ≤ 20) ∧ n.toNat ≠ 21 ∧ n.toNat ≠ 263 ∧ n.toNat ≠ 264) {f : Lane → Lane}
    (writes : ∀ y, Lane.writeCtl y w n.toNat (readOpd w l ln v) = f y) : exec (.movtc v n) s = .next ((s.modLane fo.wave l f).passes fo l) := by
  rw [← funext writes]
  obtain ⟨notWave, notStatus, notVec, notLink⟩ := own
  refine congrArg _ ((runLanes_solo h _).trans ?_)
  simp only [h.focus, ctlPriv_allowed allowed, Bool.false_eq_true, Bool.and_eq_true, decide_eq_true_eq, notWave, notStatus, notVec, notLink, if_false,
    applyOut_pass]

end

/-- A register of the wave that takes the bits of its mask. -/
theorem exec_movtc_wave (shared : 8 ≤ n.toNat ∧ n.toNat ≤ 20) : exec (.movtc v n) s =
    .next ((s.passes fo l).modWave fo.wave (fun w' => { w' with ctl := sput w'.ctl n.toNat (readOpd w l ln v &&& waveCtlMask n.toNat) })) := by
  have allowed : (ctlPriv n && !ln.isPriv) = false := ctlPriv_allowed (.inl (by omega))
  refine congrArg _ ((runLanes_solo h _).trans ?_)
  simp only [h.focus, allowed, Bool.false_eq_true, shared, decide_true, Bool.and_self, if_false, if_true]
  rfl

theorem exec_movtc_kstatus : exec (.movtc v 21) s =
    .next ((s.passes fo l).modWave fo.wave (fun w' => { w' with ctl := sput w'.ctl 21 (sgetD w.ctl 21 0 &&& readOpd w l ln v) })) := by
  refine congrArg _ ((runLanes_solo h _).trans ?_)
  simp only [h.focus]
  rfl

section
variable (priv : ln.isPriv = true)
include priv

theorem exec_movtc_trapVec :
    exec (.movtc v 263) s = .next ((s.modCtx w.asid (fun c => { c with trapVec := readOpd w l ln v &&& 0xFFFFFFFE })).passes fo l) := by
  refine congrArg _ ((runLanes_solo h _).trans ?_)
  simp only [h.focus, priv, ← applyOut_pass _ fo l false]
  rfl

theorem exec_movtc_linkTrapW : exec (.movtc v 264) s = .next (({ s with linkTrapW := readOpd w l ln v } : State).passes fo l) := by
  refine congrArg _ ((runLanes_solo h _).trans ?_)
  simp only [h.focus, priv, ← applyOut_pass _ fo l false]
  rfl

end

end

/-- A tile's shape, DROPP and DROPSTEP hold bits 23 to 0 (R255, R256). -/
theorem waveCtlMask_low {i : Nat} (shape : (8 ≤ i ∧ i ≤ 15) ∨ i = 18 ∨ i = 20) : waveCtlMask i = 0x00FFFFFF := by
  unfold waveCtlMask
  split
  case h_4 => rfl
  all_goals omega

/-- DROPSEED and DROPSCALE hold whole words (R255). -/
theorem waveCtlMask_word {i : Nat} (word : i = 16 ∨ i = 17 ∨ i = 19) (x : Word) : x &&& waveCtlMask i = x := by
  obtain rfl | rfl | rfl := word <;> exact BitVec.and_allOnes

/-- A write to a read-only register leaves the lane (R255). -/
theorem writeCtl_readOnly (ln : Lane) (w : Wave) (x : Word) {i : Nat}
    (readOnly : i = 2 ∨ i = 3 ∨ i = 5 ∨ i = 6 ∨ i = 7 ∨ (23 ≤ i ∧ i ≤ 28) ∨ i = 265) : ln.writeCtl w i x = ln := by
  unfold Lane.writeCtl
  split
  case h_12 => rfl
  all_goals omega

/-- Settles O10: MOVMW by what its descriptor loads, MOVGW by the lowest lane's word, MOVTC by the kind of register. -/
theorem registerWrites : Obligations.RegisterWrites := by
  refine ⟨fun v n => ?files, ?control⟩
  case files =>
    exact ⟨fun s fo w l ln h => exec_movmw_beyond h, fun s fo w l ln h => exec_movmw_empty h,
      fun s fo w l ln va cd s1 h inside current read => ⟨exec_movmw_free h inside current read, exec_movmw_loaded h inside current read⟩,
      fun s fo w => movgw_ends v n⟩
  case control =>
    intro v n s fo w l ln h x lanewise wavewise
    refine ⟨exec_movtc_refused h, ?fpmode, ?fpflags, ?homehint, ?stklim, ?readOnly, ?low, ?word, ?kstatus,
      fun priv => ⟨?cause, ?trapPc, ?vaLo, ?vaHi, ?aux, ?trapRegion, ?privState, ?trapVec, ?linkTrapW, ?clkStretch⟩⟩
    case fpmode | fpflags | homehint | stklim => rintro rfl; exact exec_movtc_lane h (.inl (by decide)) (by decide) (fun _ => rfl)
    case cause | trapPc | vaLo | vaHi | aux | trapRegion | privState => rintro rfl; exact exec_movtc_lane h (.inr priv) (by decide) (fun _ => rfl)
    case readOnly =>
      intro index
      have number : n.toNat = 2 ∨ n.toNat = 3 ∨ n.toNat = 5 ∨ n.toNat = 6 ∨ n.toNat = 7 ∨ (23 ≤ n.toNat ∧ n.toNat ≤ 28) := by
        bv_omega
      exact exec_movtc_lane h (.inl (by omega)) (by omega) (fun y => writeCtl_readOnly y w x (by omega))
    case clkStretch => rintro rfl; exact exec_movtc_lane h (.inr priv) (by decide) (fun y => writeCtl_readOnly y w x (by decide))
    case low =>
      intro index
      have number : (8 ≤ n.toNat ∧ n.toNat ≤ 15) ∨ n.toNat = 18 ∨ n.toNat = 20 := by bv_omega
      have writes := exec_movtc_wave h (v := v) (n := n) (by omega)
      rwa [waveCtlMask_low number] at writes
    case word =>
      intro index
      have number : n.toNat = 16 ∨ n.toNat = 17 ∨ n.toNat = 19 := by bv_omega
      have writes := exec_movtc_wave h (v := v) (n := n) (by omega)
      rwa [waveCtlMask_word number] at writes
    case kstatus => rintro rfl; exact exec_movtc_kstatus h
    case trapVec => rintro rfl; exact exec_movtc_trapVec h priv
    case linkTrapW => rintro rfl; exact exec_movtc_linkTrapW h priv

end Sys2Proof.Machine
end

section
/-! REGION at the PC of a wait that was interrupted (R251, R254): O11. -/

namespace Sys2Proof.Machine

/-- A wait for the answer of a name's home, interrupted at 0x20000 outside a handler. -/
def parkedName : Parked :=
  { pc := 0x20000, inTrap := false, wait := { kind := .name 0, ticket := 0, status := none, value := 0, bytes := [] } }

/-- A lane at that PC with the wait kept. -/
def parkedLane : Lane := { Lane.start 0x20000 65536 false with parked := [parkedName] }

def parkedWave : Wave := { codeWave with lanes := [(0, parkedLane)] }

def parkedFocus : Focus := Focus.mk 0 [0] 0x20000 4 0x401F none

/-- The code at the lane's PC is now a REGION, its descriptor the empty one in the word after it. -/
def parkedAtRegion : State :=
  { State.reset.loadCode (natLe 4 0x401F ++ natLe 4 0) with waves := [(0, parkedWave)], focus := some parkedFocus }

/-- The interrupted waits of lane 0 of wave 0 after a step. -/
def parkedAfter (o : Host.Outcome State Fault Refusal) : Option (List Parked) :=
  match o with
  | .next t => (t.lane 0 0).map Lane.parked
  | .fault _ => none
  | .refused _ => none

/-- The REGION reads the empty descriptor, and its lane stands. -/
theorem parkedAtRegion_reads : ∃ t x, readDesc parkedAtRegion parkedWave false 0x20004 = .ok (Desc.empty, t) ∧ t.lane 0 0 = some x := by
  have reads : (readDesc parkedAtRegion parkedWave false 0x20004).toOption.map (fun r => (r.1, (r.2.lane 0 0).isSome)) = some (Desc.empty, true) := by
    decide +kernel
  obtain ⟨⟨nd, t⟩, read, seen⟩ := Option.map_eq_some_iff.mp reads
  obtain ⟨rfl, stands⟩ := Prod.mk.inj seen
  obtain ⟨x, lane⟩ := Option.isSome_iff_exists.mp stands
  exact ⟨t, x, eq_ok_of_toOption read, lane⟩

/-- REGION completes, and the lane has no interrupted wait left. -/
theorem parkedAtRegion_drops : parkedAfter (exec (.region 2) parkedAtRegion) = some [] := by decide +kernel

/-- Refutes O11: it lists what a REGION that is accepted changes of its lane, and Lane.parked is not among it. But REGION completes as every
instruction does (Lane.advance): the waits interrupted in the same standing are kept for the instruction at the PC to be executed again (R254), and
once another instruction has completed there they are gone. In parkedAtRegion a wait was interrupted at the PC at which the code now has a REGION;
the REGION is executed, and the lane keeps no such wait. -/
theorem not_regionCommitsAndLoads : ¬ Obligations.RegionCommitsAndLoads := by
  intro h
  obtain ⟨t, x, read, lane⟩ := parkedAtRegion_reads
  obtain ⟨-, accepted⟩ := h 2 parkedAtRegion parkedFocus parkedWave 0 parkedLane ⟨rfl, rfl, rfl, rfl⟩
  obtain ⟨-, completes⟩ := accepted Desc.empty parkedAtRegion Desc.empty t (by decide) rfl read
  obtain ⟨e, ran, same, -⟩ := completes rfl
  have kept : e.parked = [parkedName] := by rw [same]; rfl
  have left : (t.modLane parkedFocus.wave 0 (fun _ => e)).lane 0 0 = some e := lane_modLane lane _
  have drops := parkedAtRegion_drops
  rw [ran, parkedAfter, left, Option.map_some, kept] at drops
  exact absurd drops (by decide)

end Sys2Proof.Machine
end
